-- ==== Sys2Proof/Word.lean ====
section
/-! DEFINITION. The word types of the NZL-4800 and the shapes of sparse storage. -/

namespace Sys2Proof

/-- A byte (00, Bytes, bits and words). -/
abbrev Byte := BitVec 8

/-- A word is 32 bits. -/
abbrev Word := BitVec 32

/-- A doubleword is 64 bits. -/
abbrev DWord := BitVec 64

/-- Numbers of the repeated units (R10). -/
abbrev IslandId := Fin 48
abbrev PortId := Fin 96
abbrev PairId := Fin 8
abbrev TenantId := Fin 8
abbrev RingId := Fin 32
abbrev PartnerId := Fin 4096
abbrev VectorId := Fin 64
abbrev WindowId := Fin 64
abbrev SynthId := Fin 4
/-- One of the global clock lines GCLK0 to GCLK15. -/
abbrev LineId := Fin 16

/-- A sparse table: entries by number, numbers strictly rising, no entry equal to
what an unlisted number holds. -/
abbrev Tab (α : Type) := List (Nat × α)

/-- The eight modes (R29). -/
inductive Mode where
  | reset | load | wake | run | degraded | service | hold | test
  deriving DecidableEq, Repr

/-- The encodings of the modes (R29). -/
def Mode.code : Mode → Nat
  | .reset => 0 | .load => 1 | .wake => 2 | .run => 3
  | .degraded => 4 | .service => 5 | .hold => 6 | .test => 7

/-- The path a bitstream load comes by (R127, LDR_STATUS.LAST_PATH of R160). -/
inductive Path where
  | flash | chain | host | jtag
  deriving DecidableEq, Repr

/-- LAST_PATH encoding (R160). -/
def Path.code : Path → Nat
  | .flash => 0 | .chain => 1 | .host => 2 | .jtag => 3

/-- Who asks for an access to the DIA or to an island's user registers (R16, R24, R74): the
keeper, the thread of a ring, the windows of a tenant's function, the DMA of a ring. -/
inductive Requester where
  | keeper
  | ring (r : Nat)
  | window (t : Nat)
  | dma (r : Nat)
  deriving DecidableEq, Repr

/-- Who asks for leave (R479). -/
inductive Asker where
  | wake
  | release (i : Nat) (t : Option Nat)
  | bank (b : Nat)
  | synth (c : Nat)
  | burst
  | dmaRate
  | island (i : Nat)
  | program (r : Nat)
  deriving DecidableEq, Repr

/-- The kind number of a request (R479). -/
def Asker.kind : Asker → Nat
  | .wake => 0 | .release _ _ => 1 | .bank _ => 2 | .synth _ => 3 | .burst => 4 | .dmaRate => 5
  | .island _ => 6 | .program _ => 7

end Sys2Proof
end

