-- ==== Sys2Proof/Config.lean ====
section
/-! DEFINITION. What the rules leave open: constants with no body, so that a claim holds for
every value of them. -/

namespace Sys2Proof.Config

/-- The fused 64-bit serial number's bits but the lowest word's last (R510): opaque. -/
opaque serial : Nat

/-- SUP_DSN (R510): 64 bits, never zero. -/
def dsn : Nat := serial % (2 ^ 64 - 1) + 1

/-- A free value, by the number of its draw: the lag of the shadow of X22, 8 to 72 ns (R24). -/
opaque shadowLag : Nat → Nat

/-- The level that the board puts on a pin: core time, island, pin (R56). -/
opaque pinLevel : Nat → Nat → Nat → Bool

/-- The global lines that have an edge within a timebase cycle, in order: core time at the
cycle's start. A line named twice has two edges (R22: no clock of the fabric has a fixed phase). -/
opaque edges : Nat → List Nat

/-- The level of a combinational loop (R65), which no rule gives: core time, island, macrocell. -/
opaque loopLevel : Nat → Nat → Nat → Bool

/-- Which of the handles not in use a lease takes (R483 leaves the choice): the draw's number. -/
opaque handleChoice : Nat → Nat

/-- The frequency in Hz that the board gives a GCK ball (R406). -/
opaque gckHz : Nat → Nat

/-- Whether a harbour port drives a signal that is both in and out, by core time, port and signal: its protocol's
bit timing is not in the state. -/
opaque portDrives : Nat → Nat → Nat → Bool

/-- Whether the bus of an I3C port with a transfer in progress is in an open-drain phase: core time, port. -/
opaque openDrain : Nat → Nat → Bool

/-- The level that a harbour port gives a signal it drives: core time, port, signal. -/
opaque portLevel : Nat → Nat → Nat → Bool

/-- What UWR, UADDR and UWDATA present while they carry no access (R75), which no rule gives: core time,
island, strait input. -/
opaque interfaceIdle : Nat → Nat → Nat → Bool

/-- Whether VCCAUX is valid while a power-on reset is in progress (R218, R528), by core time: the board's. -/
opaque vccauxValid : Nat → Bool

/-- Whether a bank's supply that is below 1.0 V is at 0.95 V or more (R528): core time, bank. -/
opaque vccoHolds : Nat → Nat → Bool

/-- The present level of the SHORE_PULL strap (R211), 0 low, 1 high, 2 open, by core time: the board's. -/
opaque shorePull : Nat → Nat

/-- The order in which latches and asynchronous controls of a loop that does not settle leave a register
(R65, R68), which no rule gives: core time, island, macrocell. -/
opaque loopRegister : Nat → Nat → Nat → Bool

/-- A level at a pin or signal that the rules leave open (R85, R171), by the number of its draw. -/
opaque freeLevel : Nat → Bool

/-- Whether port microcode of a PML that the compatibility rules do not accept supports a TYPE: which ones, the
rules leave open (R410, R439). -/
opaque microcodeSupports : Nat → Nat → Bool

/-- Whether the lookup for a slot of a RETURN ring meets a parity error (R272), by the number of its draw. -/
opaque atcParity : Nat → Bool

/-- What the host's memory holds (R286, R296): core time, host address of a word. -/
opaque hostWord : Nat → Nat → Word

/-- A value the rules leave open, by the number of its draw. -/
opaque freeValue : Nat → Nat

end Sys2Proof.Config
end

