-- ==== Sys2Proof/Machine/Bits.lean ====
section
/-! DEFINITION. Bit fields, byte order, sparse tables and byte memories: the helpers every
operation shares. -/

namespace Sys2Proof.Machine

/-! ## Bit fields (R4) -/

/-- Field [lo + len - 1 : lo] of a value, as a number. -/
def field (v lo len : Nat) : Nat := (v >>> lo) % 2 ^ len

/-- Bit n of a number. -/
def bitAt (v n : Nat) : Bool := (v >>> n) % 2 == 1

/-- A flag as a one-bit field's value. -/
def bnat (b : Bool) : Nat := if b then 1 else 0

/-- A flag at a place of a register. -/
def flag (b : Bool) (n : Nat) : Nat := if b then 2 ^ n else 0

/-- A value at a place of a register, kept to len bits. -/
def place (v lo len : Nat) : Nat := (v % 2 ^ len) <<< lo

/-- A register's value put together from its fields. -/
def reg32 (fields : List Nat) : Word := BitVec.ofNat 32 (fields.foldl (· + ·) 0)

/-- Addition that stops at a limit (saturating counters). -/
def satAdd (limit a b : Nat) : Nat := min limit (a + b)

/-- A saturating 32-bit counter's next value. -/
def satInc32 (a : Nat) : Nat := satAdd 0xFFFFFFFF a 1

/-- Distance from b up to a, modulo 2^32. -/
def dist32 (a b : Nat) : Nat := (a + 2 ^ 32 - b % 2 ^ 32) % 2 ^ 32

/-- Low and high halves of a doubleword. -/
def lo32 (v : Nat) : Nat := v % 2 ^ 32
def hi32 (v : Nat) : Nat := (v >>> 32) % 2 ^ 32

/-! ## Bytes: every multi-byte quantity is little-endian (R3) -/

/-- The n bytes of a number, least significant first. -/
def leBytes : Nat → Nat → List Byte
  | 0, _ => []
  | n + 1, v => BitVec.ofNat 8 v :: leBytes n (v >>> 8)

/-- The number little-endian bytes spell. -/
def leNat : List Byte → Nat
  | [] => 0
  | b :: bs => b.toNat + 256 * leNat bs

/-- The four bytes of a word. -/
def wordBytes (w : Word) : List Byte := leBytes 4 w.toNat

/-- The words that bytes spell, a short last word filled up with zeros. -/
def bytesWords : List Byte → List Word
  | b0 :: b1 :: b2 :: b3 :: bs => BitVec.ofNat 32 (leNat [b0, b1, b2, b3]) :: bytesWords bs
  | [] => []
  | bs => [BitVec.ofNat 32 (leNat bs)]

/-- The bytes of a list of words. -/
def wordsBytes (ws : List Word) : List Byte := ws.flatMap wordBytes

/-- Word n of a list, zero past its end. -/
def wordAt (ws : List Word) (n : Nat) : Nat := (ws.getD n 0).toNat

/-- A wide number spelled by words, word 0 lowest. -/
def wordsNat : List Word → Nat
  | [] => 0
  | w :: ws => w.toNat + 2 ^ 32 * wordsNat ws

/-- The n words of a wide number, lowest first. -/
def natWords : Nat → Nat → List Word
  | 0, _ => []
  | n + 1, v => BitVec.ofNat 32 v :: natWords n (v >>> 32)

/-- The bytes seen big end first, for the standards that fix that order. -/
def beNat (bs : List Byte) : Nat := leNat bs.reverse

/-! ## Sparse tables -/

/-- What a table holds under a number; an unlisted number holds `d` of it. -/
def tabGet {α : Type} (d : Nat → α) : Tab α → Nat → α
  | [], k => d k
  | (j, v) :: t, k => if j = k then v else tabGet d t k

/-- A table without an entry for a number. -/
def tabDel {α : Type} (t : Tab α) (k : Nat) : Tab α := t.filter (fun e => e.1 != k)

/-- A table with an entry put in its place. -/
def tabPut {α : Type} : Tab α → Nat → α → Tab α
  | [], k, w => [(k, w)]
  | (j, v) :: t, k, w =>
    if j = k then (j, w) :: t else if k < j then (k, w) :: (j, v) :: t else (j, v) :: tabPut t k w

/-- A write that keeps the canonical form: writing what an unlisted number holds removes
the entry. -/
def tabSet {α : Type} [DecidableEq α] (d : Nat → α) (t : Tab α) (k : Nat) (v : α) : Tab α :=
  if v = d k then tabDel t k else tabPut t k v

/-- A change of one entry. -/
def tabMod {α : Type} [DecidableEq α] (d : Nat → α) (t : Tab α) (k : Nat) (f : α → α) : Tab α :=
  tabSet d t k (f (tabGet d t k))

/-- The same change of every entry of a range of numbers. -/
def tabModAll {α : Type} [DecidableEq α] (d : Nat → α) (t : Tab α) (n : Nat) (f : Nat → α → α) :
    Tab α :=
  (List.range n).foldl (fun u k => tabMod d u k (f k)) t

/-! ## Byte memories -/

/-- One byte of a memory; an unlisted address reads as `d`. -/
def memByte (d : Byte) (m : List (Nat × Byte)) (a : Nat) : Byte := tabGet (fun _ => d) m a

/-- A byte written. -/
def memSetByte (d : Byte) (m : List (Nat × Byte)) (a : Nat) (v : Byte) : List (Nat × Byte) :=
  tabSet (fun _ => d) m a v

/-- Bytes read from an address on. -/
def memRead (d : Byte) (m : List (Nat × Byte)) (a : Nat) : Nat → List Byte
  | 0 => []
  | n + 1 => memByte d m a :: memRead d m (a + 1) n

/-- Bytes written from an address on. -/
def memWrite (d : Byte) (m : List (Nat × Byte)) (a : Nat) : List Byte → List (Nat × Byte)
  | [] => m
  | b :: bs => memWrite d (memSetByte d m a b) (a + 1) bs

/-- The word at an address. -/
def memWord (d : Byte) (m : List (Nat × Byte)) (a : Nat) : Word :=
  BitVec.ofNat 32 (leNat (memRead d m a 4))

/-- Numbers strictly rising from a bound on. -/
def rising {α : Type} (lo : Nat) : Tab α → Bool
  | [] => true
  | (k, _) :: t => decide (lo ≤ k) && rising (k + 1) t

/-- The canonical form of a byte memory: addresses strictly rising, no entry equal to what
an unlisted address reads as. -/
def memWf (d : Byte) (m : List (Nat × Byte)) : Bool :=
  rising 0 m && m.all (fun c => c.2 != d)

/-! ## Lists -/

/-- The list without what stands at a place. -/
def dropAt {α : Type} (l : List α) (n : Nat) : List α := l.take n ++ l.drop (n + 1)

/-- The list with the thing at a place changed. -/
def modAt {α : Type} (l : List α) (n : Nat) (f : α → α) : List α :=
  (l.zipIdx).map (fun p => if p.2 = n then f p.1 else p.1)

/-- How many numbers below n have a property. -/
def countBelow (n : Nat) (p : Nat → Bool) : Nat := ((List.range n).filter p).length

/-- Whether some number below n has a property. -/
def anyBelow (n : Nat) (p : Nat → Bool) : Bool := (List.range n).any p

/-- A register of flags built from a property of bit numbers. -/
def maskOf (n : Nat) (p : Nat → Bool) : Nat :=
  (List.range n).foldl (fun a k => if p k then a + 2 ^ k else a) 0

/-- Things put in order by a number each carries, equal numbers staying in order. -/
def insertBy {α : Type} (key : α → Nat) (x : α) : List α → List α
  | [] => [x]
  | y :: ys => if key x < key y then x :: y :: ys else y :: insertBy key x ys

def sortBy {α : Type} (key : α → Nat) (l : List α) : List α := l.foldl (fun a x => insertBy key x a) []

/-- A two's complement number of n bits. -/
def signed (n v : Nat) : Int := if v % 2 ^ n < 2 ^ (n - 1) then ((v % 2 ^ n : Nat) : Int)
  else ((v % 2 ^ n : Nat) : Int) - ((2 ^ n : Nat) : Int)

/-- An integer as n two's complement bits. -/
def wrapInt (n : Nat) (v : Int) : Nat := (v % ((2 ^ n : Nat) : Int)).toNat

end Sys2Proof.Machine
end

