-- ==== Sys2Proof/Machine/Digest.lean ====
section
/-! DEFINITION. CRC-32C (R114), SHA-256 (R121, by FIPS 180-4) and the SECDED code of a frame
(R111, R112). -/

namespace Sys2Proof.Machine

/-! ## CRC-32C (R114) -/

def crcBit (c : Word) : Word :=
  if c.toNat % 2 = 1 then (c >>> 1) ^^^ 0x82F63B78#32 else c >>> 1

def crcByte (c : Word) (b : Byte) : Word :=
  crcBit (crcBit (crcBit (crcBit (crcBit (crcBit (crcBit (crcBit (c ^^^ b.setWidth 32))))))))

/-- The running value before any byte. -/
def crcInit : Word := 0xFFFFFFFF#32

/-- The running value after more bytes. -/
def crcMore (c : Word) (bs : List Byte) : Word := bs.foldl crcByte c

/-- The value that stands for a finished run. -/
def crcFinal (c : Word) : Word := c ^^^ 0xFFFFFFFF#32

/-- CRC-32C of bytes in ascending address order. -/
def crc32c (bs : List Byte) : Word := crcFinal (crcMore crcInit bs)

/-! ## SHA-256 (R121)

R121 names FIPS 180-4 and no words of it. FIPS 180-4 describes its constants as the first 32 bits of the
fractional parts of roots of the first primes; they are computed here from that description. -/

/-- The largest number above x by less than 2^n whose k-th power is at most v, found bit by bit. -/
def rootBits (k v : Nat) : Nat → Nat → Nat
  | 0, x => x
  | n + 1, x => rootBits k v n (if (x + 2 ^ n) ^ k ≤ v then x + 2 ^ n else x)

/-- The first 32 bits of the fraction of the k-th root of a prime below 2^9, k being 2 or 3. -/
def rootWord (k p : Nat) : Word := BitVec.ofNat 32 (rootBits k (p * 2 ^ (32 * k)) 37 0)

/-- The first 64 primes: those below 312. -/
def shaPrimes : List Nat :=
  (List.range 312).filter (fun n => decide (2 ≤ n) && (List.range n).all (fun d => d < 2 || n % d != 0))

/-- A hash in progress: the eight words, the bytes of the open block (latest first), the bytes taken. -/
structure Sha where
  h : List Word := (shaPrimes.take 8).map (rootWord 2)
  tail : List Byte := []
  len : Nat := 0
  deriving DecidableEq, Repr

/-- A word turned right by three counts, the results combined. -/
def turned (x : Word) (i j k : Nat) : Word := x.rotateRight i ^^^ x.rotateRight j ^^^ x.rotateRight k

/-- The same with the last turn a shift. -/
def turnedShifted (x : Word) (i j k : Nat) : Word :=
  x.rotateRight i ^^^ x.rotateRight j ^^^ BitVec.ofNat 32 (x.toNat / 2 ^ k)

/-- One round on the eight words: a new first word enters, and the fourth becomes a sum. -/
def shaRound (st : List Word) (add : Word) : List Word :=
  let at_ := fun k => st.getD k 0
  let e := at_ 4
  let chosen := at_ 6 ^^^ (e &&& (at_ 5 ^^^ at_ 6))
  let sum := at_ 7 + add + chosen + turned e 6 11 25
  let most := (at_ 0 &&& at_ 1) ||| (at_ 2 &&& (at_ 0 ||| at_ 1))
  (sum + most + turned (at_ 0) 2 13 22) :: (st.take 3 ++ (at_ 3 + sum) :: (st.drop 4).take 3)

/-- The word each of the 64 rounds adds: cube roots. -/
def shaTurns : List Word := shaPrimes.map (rootWord 3)

/-- The rounds of one block, one for each added word; the window holds the sixteen schedule words
from the round's own on, and slides one word a round. -/
def shaRounds : List Word → List Word → List Word → List Word
  | [], _, st => st
  | c :: cs, window, st =>
    let at_ := fun k => window.getD k 0
    let more := at_ 0 + at_ 9 + turnedShifted (at_ 1) 7 18 3 + turnedShifted (at_ 14) 17 19 10
    shaRounds cs (window.drop 1 ++ [more]) (shaRound st (c + at_ 0))

/-- Bytes as words whose first byte is the most significant. -/
def bigWords (bs : List Byte) : List Word :=
  (bytesWords bs).map (fun w => BitVec.ofNat 32 (leNat (wordBytes w).reverse))

/-- One 64-byte block, its bytes latest first. -/
def shaBlock (h : List Word) (rev : List Byte) : List Word :=
  List.zipWith (· + ·) h (shaRounds shaTurns (bigWords rev.reverse) h)

/-- One more byte. -/
def shaByte (s : Sha) (b : Byte) : Sha :=
  if s.tail.length < 63 then { s with tail := b :: s.tail, len := s.len + 1 }
  else { h := shaBlock s.h (b :: s.tail), tail := [], len := s.len + 1 }

def shaMore (s : Sha) (bs : List Byte) : Sha := bs.foldl shaByte s

/-- What ends a message of n bytes: one bit 1, zeros, and the length in bits over eight bytes. -/
def shaPadding (n : Nat) : List Byte :=
  [0x80#8] ++ List.replicate ((119 - n % 64) % 64) 0#8 ++ (leBytes 8 (8 * n)).reverse

/-- The 32 digest bytes, byte 0 first. -/
def shaFinal (s : Sha) : List Byte :=
  (shaMore s (shaPadding s.len)).h.flatMap (fun w => (wordBytes w).reverse)

/-! ## The SECDED code of a frame (R111) -/

/-- The position of data bit d: the row k of R111 that holds it, then d + k + 2. -/
def secPosition (d : Nat) : Nat :=
  let k := if d < 1 then 1 else if d < 4 then 2 else if d < 11 then 3 else if d < 26 then 4
    else if d < 57 then 5 else if d < 120 then 6 else if d < 247 then 7 else if d < 502 then 8
    else if d < 1013 then 9 else if d < 2036 then 10 else 11
  d + k + 2

/-- HC and the parity of the data bits, taken together, over the bits from `d` on. -/
def secScan (v : Nat) : Nat → Nat → Nat × Bool → Nat × Bool
  | 0, _, acc => acc
  | n + 1, d, (hc, p) =>
    if bitAt v d then secScan v n (d + 1) (hc ^^^ secPosition d, !p) else secScan v n (d + 1) (hc, p)

/-- Parity of a number's low n bits. -/
def parityOf : Nat → Nat → Bool
  | 0, _ => false
  | n + 1, v => xor (bitAt v 0) (parityOf n (v >>> 1))

/-- HC of the data, and the parity of the data. -/
def secHc (data : BitVec 2048) : Nat × Bool := secScan data.toNat 2048 0 (0, false)

/-- The check word the frame engine writes with a frame (R107, R108). -/
def checkWord (faddr : Nat) (data : BitVec 2048) : Word :=
  let hp := secHc data
  reg32 [place hp.1 0 12, flag (xor hp.2 (parityOf 12 hp.1)) 12, place faddr 16 16]

/-- The findings of a check (R112). -/
inductive Finding where
  | clean
  | reservedCleared
  | checkBit
  | dataBit (d : Nat)
  | uncorrectable
  | addressMismatch
  deriving DecidableEq, Repr

/-- The finding's code in TIDE_LAST_FIND (R200). -/
def Finding.code : Finding → Nat
  | .clean => 0 | .dataBit _ => 1 | .checkBit => 2 | .reservedCleared => 3
  | .uncorrectable => 4 | .addressMismatch => 5

/-- Whether a frame with this finding passes its check (R112). -/
def Finding.passes : Finding → Bool
  | .uncorrectable => false
  | .addressMismatch => false
  | _ => true

/-- Whether a number is a power of two below 2^12. -/
def isPow2 (s : Nat) : Bool := anyBelow 12 (fun k => s == 2 ^ k)

/-- The data bit at a position that is no power of two (the inverse of `secPosition`). -/
def secDataBit (p : Nat) : Nat := p - 1 - countBelow 12 (fun k => decide (2 ^ k < p))

/-- The syndrome s and the finding of a stored frame at an address (R112). -/
def secCheck (addr : Nat) (data : BitVec 2048) (check : Word) : Nat × Finding :=
  let hp := secHc data
  let c := check.toNat
  let s := hp.1 ^^^ field c 0 12
  let p := xor hp.2 (parityOf 13 c)
  (s,
    if field c 16 16 ≠ addr then .addressMismatch
    else if s = 0 ∧ p = false then (if field c 13 3 = 0 then .clean else .reservedCleared)
    else if s = 0 then .checkBit
    else if p = false then .uncorrectable
    else if isPow2 s then .checkBit
    else if s ≤ 2060 then .dataBit (secDataBit s)
    else .uncorrectable)

/-- The data after the correction of a finding. -/
def secCorrect (f : Finding) (data : BitVec 2048) : BitVec 2048 :=
  match f with
  | .dataBit d => data ^^^ BitVec.ofNat 2048 (2 ^ d)
  | _ => data

end Sys2Proof.Machine
end

