-- ==== Sys2Proof/Machine/StateCore.lean ====
section
/-! DEFINITION. The state of the supervision layer: mode unit, islands and their seals, frames,
loader, chain, flash, JTAG, tide, banks, power leave, logbook and versions. Plain data; every
default is the value after power-on reset. -/

namespace Sys2Proof.Machine

/-! ## Mode unit (R29 to R50) -/

/-- A transition of R31 in progress: its number, its target mode, and whether an accepted command
is its cause (R46). -/
structure Trans where
  id : Nat
  target : Mode
  cmd : Bool := false
  /-- FREEZE of the command that T10 serves -/
  freeze : Bool := false
  deriving DecidableEq, Repr

structure ModeUnit where
  mode : Mode := .reset
  prev : Mode := .reset
  frozen : Bool := false
  untested : Bool := false
  holdCause : Nat := 0
  changes : Nat := 0
  trans : Option Trans := some { id := 1, target := .reset }
  /-- a cause of T8 that waits (R34) -/
  waitT8 : Bool := false
  /-- a cause of T9 that waits (R34) -/
  waitT9 : Bool := false
  result : Nat := 0
  lastCmd : Nat := 0
  /-- an unlock sequence is in progress (R47) -/
  unlock : Bool := false
  /-- SUP_RESET_CAUSE bits: POR, SYS_RST, PROG -/
  causePor : Bool := true
  causeSys : Bool := false
  causeProg : Bool := false
  noticeEn : Nat := 0x7F
  /-- the mode in which the reset began, none for a power-on reset (R32, R506) -/
  resetBegan : Option Mode := none
  /-- level of the two reset inputs, and power-on reset not completed yet (R31, R34) -/
  sysLow : Bool := false
  progLow : Bool := false
  porActive : Bool := true
  /-- this device drives DONE low (R43, R155) -/
  doneLow : Bool := true
  /-- DONE has been released since the last entry to RESET (R43) -/
  doneReleased : Bool := false
  /-- FAULT_N asserted by the HOLD rule (R42, R508) -/
  holdFault : Bool := false
  /-- islands to which the HOLD in force applies shore states (R39) -/
  holdShore : BitVec 48 := 0
  /-- the level FAULT_N had when RESUME was accepted for a T12 wake, while that wake runs -/
  wakeFaultKept : Option Bool := none
  /-- level of FAULT_N last logged: asserted (R508) -/
  faultShown : Bool := false
  /-- a wake has completed since the last entry to RESET or HOLD (R31, T11) -/
  wakeDone : Bool := false
  /-- some wake has completed since the last entry to RESET (R110, R37) -/
  firstWake : Bool := false
  /-- WAKE has been entered since the last entry to RESET (R86, R110) -/
  wakeEntered : Bool := false
  /-- global set/reset is released: by wake step 3, until the next RESET or T12 (R69, R157) -/
  gsrOff : Bool := false
  /-- the island clocks have been started: by wake step 5, until the next RESET or T12 (R157) -/
  clocksOn : Bool := false
  /-- the global region has been written in SERVICE (R31, T11) -/
  globalWritten : Bool := false
  /-- a RUN or DEGRADED has been entered since the last entry to RESET (R49) -/
  ranOnce : Bool := false
  /-- the wake in progress was entered by T12 (R33) -/
  wakeT12 : Bool := false
  /-- wake steps reached: 0 none, 3, 4, 5 (R157) -/
  wakeStep : Nat := 0
  /-- the mode mirror of every function (R49): SUP_MODE bits [12:0] -/
  mirror : Nat := 0
  /-- straps latched at T3 (R136): CHAIN_FIRST, BENCH_EN, and SHORE_PULL 0 low, 1 high, 2 open; none
  before any latch (R211) -/
  chainFirst : Bool := false
  benchEn : Bool := false
  shorePull : Option Nat := none
  /-- CFG_RST_N is released at T3 (R209) -/
  cfgRstLow : Bool := true
  deriving DecidableEq, Repr

/-! ## Frames (R106 to R110) -/

/-- A stored frame. `logic` holds what stands in the logic latches while the frame is held
(R110, R183); without it the logic latches hold the stored data. -/
structure Frame where
  data : BitVec 2048 := 0
  check : Word := 0
  logic : Option (BitVec 2048) := none
  deriving DecidableEq, Repr

/-! ## Islands -/

/-- Load state of an island (R174). -/
inductive LoadState where
  | none | open | complete | incomplete
  deriving DecidableEq, Repr

def LoadState.code : LoadState → Nat
  | .none => 0 | .open => 1 | .complete => 2 | .incomplete => 3

/-- Seal reasons (R170). -/
inductive Reason where
  | command | load | quarantine | flr | hold
  deriving DecidableEq, Repr

/-- A reason's bit number in TIDE_ISLAND_i (R200). -/
def Reason.bit : Reason → Nat
  | .command => 1 | .load => 2 | .quarantine => 3 | .flr => 4 | .hold => 5

/-- Release mechanisms as SEAL_OFF names them (R506). -/
inductive Mechanism where
  | instruction | loadDone | repairEnd | wake
  deriving DecidableEq, Repr

def Mechanism.code : Mechanism → Nat
  | .instruction => 1 | .loadDone => 2 | .repairEnd => 3 | .wake => 4

/-- A release of an island under way (R179 to R181): what makes it, the rings whose
ISLAND_RELEASE waits for it, whether its leave has been granted, and whether the island has left the
sealed state at an unfreeze, its registers still in reset (R41, R182). -/
structure Release where
  mech : Mechanism
  rings : List Nat := []
  granted : Bool := false
  left : Bool := false
  deriving DecidableEq, Repr

/-- A load by frame instructions (R361 to R363): the ring, the manifest, the progress. -/
structure FrameLoad where
  ring : Nat
  bitmap : BitVec 168
  count : Nat
  digest : List Byte
  last : Option Nat := none
  written : Nat := 0
  sha : Sha := {}
  deriving DecidableEq, Repr

/-- An access presented to an island's user logic (R74, X6): word offset, data, requester. A
64-bit access is two (R15): `upper` holds the second half's data while the first is made, and
`got` the first half's read data after it. -/
structure FabAccess where
  write : Bool
  addr : Nat
  data : Word := 0
  who : Requester
  upper : Option Word := none
  got : List Word := []
  deriving DecidableEq, Repr

/-- An access to the DIA that waits behind an earlier one of its requester (R16): address, length, the bytes
written. -/
structure DiaRequest where
  who : Requester
  write : Bool
  addr : Nat
  len : Nat
  data : List Byte := []
  /-- the verdict of the charter it was accepted under, once a change of that is due (R244): denied -/
  judged : Option Bool := none
  deriving DecidableEq, Repr

/-- The interface an island's logic sees at its user register port (R73). -/
structure UregPort where
  ureq : Bool := false
  uwr : Bool := false
  uaddr : Nat := 0
  uwdata : Word := 0
  /-- UWR, UADDR and, for a write, UWDATA are valid: from the UREQ cycle to the cycle after UACK is sampled -/
  valid : Bool := false
  /-- the access outstanding -/
  busy : Option FabAccess := none
  /-- an edge of the interface clock has begun its UREQ cycle (R75) -/
  shown : Bool := false
  /-- the URDATA sampled with UACK = 1, while the completion is on its way (R75, X6) -/
  ack : Option Word := none
  /-- accesses that wait for the one in progress (X6, R24) -/
  waiting : List FabAccess := []
  deriving DecidableEq, Repr

/-- The leave port of an island (R77, R78). -/
structure LeavePort where
  /-- LREQ as the interface clock last sampled it -/
  seen : Bool := false
  /-- a rise of LREQ has made a request, and LREQ has not been sampled low since -/
  asked : Bool := false
  /-- requests and their ends that the leave unit has not been told of (X7): a rise with the LSEL sampled,
  or a fall -/
  edges : List (Option Nat) := []
  /-- the unit's answer, on its way to the port's registers (X7) -/
  granted : Bool := false
  denied : Bool := false
  /-- LGRANT and LDENY as the port presents them -/
  lgrant : Bool := false
  ldeny : Bool := false
  deriving DecidableEq, Repr

structure Isl where
  command : Bool := false
  load : Bool := false
  quarantine : Bool := false
  flr : Bool := false
  hold : Bool := false
  loadState : LoadState := .none
  replaced : Bool := false
  leaveDenied : Bool := false
  /-- REPAIR of TIDE_ISLAND_i (R195, R200) -/
  repair : Nat := 0
  qcount : Nat := 0
  /-- the island's TIDE_QUAR bit -/
  quarantined : Bool := false
  /-- the re-check has passed and the quarantine ends at the next release (R192, step 5) -/
  healed : Bool := false
  /-- frame of the finding that quarantined it last -/
  qframe : Nat := 0
  /-- core times of the last quarantines, latest first (R197) -/
  qtimes : List Nat := []
  /-- KEEP of TIDE_QPOLICY (R196) -/
  keep : Bool := false
  /-- home ports stopped for the seal (R173) -/
  portsStopped : Bool := false
  release : Option Release := none
  frameLoad : Option FrameLoad := none
  /-- island clocks whose registers have not left reset yet after a release (R182) -/
  coldClocks : BitVec 4 := 0
  /-- pin outputs at the instant of the seal, or of the freeze: enabled, and level (R171, R40) -/
  keepEn : BitVec 32 := 0
  keepLevel : BitVec 32 := 0
  /-- user registers and latches, macrocell m at bit m (R53) -/
  user : BitVec 576 := 0
  /-- the product-term clocks' levels when the fabric last settled (R66) -/
  ptclk : BitVec 576 := 0
  /-- causeway registers: east lines 0-7, west lines 8-15 (R98) -/
  cause : BitVec 16 := 0
  ureg : UregPort := {}
  leave : LeavePort := {}
  deriving DecidableEq, Repr

/-! ## Global lines, synthesizers, capture (R93 to R105) -/

/-- A CAPTURE in progress on a line (R102 to R105), and what the line's latest rising edge since its
start gives: device time, and each named island's registers. -/
structure Capture where
  ring : Nat
  islands : BitVec 48
  edge : Option (Nat × List (Nat × Option (BitVec 576))) := none
  deriving DecidableEq, Repr

structure Clocks where
  lock : BitVec 4 := 0
  loss : BitVec 4 := 0
  /-- synthesizers that have locked since their setup was taken (R96: a later lock is a relock) -/
  ran : BitVec 4 := 0
  /-- synthesizers waited for (R95) -/
  waiting : BitVec 4 := 0
  lineActive : BitVec 16 := 0
  /-- level of each global line -/
  lineHigh : BitVec 16 := 0
  /-- level that the island clocks of each line have: they rise with the line only where they run -/
  clockHigh : BitVec 16 := 0
  captures : Tab (Option Capture) := []
  deriving DecidableEq, Repr

/-! ## Loader -/

/-- Where a bitstream load stands in the packet order (R117). -/
inductive LoadPhase where
  | afterSync | afterId | afterStamp | afterManifest | body
  deriving DecidableEq, Repr

structure Load where
  path : Path
  phase : LoadPhase := .afterSync
  /-- word offset from the sync word of the next word -/
  off : Nat := 1
  /-- words of the packet being received, header first -/
  part : List Word := []
  /-- frame records left of the FDATA packet being received -/
  records : Nat := 0
  crc : Word := crcInit
  far : Nat := 0
  farSeen : Bool := false
  /-- FAR has advanced past the last frame (R125) -/
  farEnd : Bool := false
  stamp : List Word := []
  forced : Bool := false
  all : Bool := false
  count : Nat := 0
  digest : List Byte := []
  bitmap : BitVec 8192 := 0
  full : Bool := false
  lockSeen : Bool := false
  locks : BitVec 7 := 0
  last : Option Nat := none
  written : Nat := 0
  sha : Sha := {}
  deriving DecidableEq, Repr

/-- Where the selection of a copy and the order of R144 stand in LOAD. -/
inductive SelPhase where
  /-- SFDP has not been read yet -/
  | sfdp
  /-- the first of the copies left is verified next -/
  | verify
  | firmware | microcode | ownSection
  /-- everything of its own is loaded: waits for DONE -/
  | done
  /-- a device behind another waits for its stream -/
  | chained
  /-- the attempts are over -/
  | ended
  deriving DecidableEq, Repr

/-- An entry of the golden table (R145): byte offset of the record in the copy, its frame
address, and the words of its FDATA packet left, the record included. -/
structure Golden where
  off : Nat
  faddr : Nat
  words : Nat
  deriving DecidableEq, Repr

structure Loader where
  phase : SelPhase := .sfdp
  /-- copy being tried, or in use: 0 none, 1 A, 2 B -/
  trying : Nat := 0
  attempt : Nat := 1
  verifiedA : Bool := false
  verifiedB : Bool := false
  compatSeen : Nat := 0
  /-- the copy being tried, or the set of BEGIN, runs by the bench override (R143) -/
  override : Bool := false
  /-- KIL, PML and the reason of the last copy refused by R141 -/
  incompat : Nat × Nat × Nat := (0, 0, 0)
  /-- copies left, in the order of R140 -/
  left : List Nat := []
  load : Option Load := none
  /-- streams whose words are discarded until CLOSE (R166) or ISC_DISABLE (R169) -/
  hostDiscard : Bool := false
  jtagDiscard : Bool := false
  /-- own section completed in this LOAD (R155) -/
  ownDone : Bool := false
  /-- frames written by completed loads or repairs since RESET, by dense index (R31, R39) -/
  marks : BitVec 8192 := 0
  -- LDR registers (R160)
  copy : Nat := 0
  fallback : Bool := false
  forced : Bool := false
  chainIndex : Nat := 0
  devices : Nat := 0
  lastError : Nat := 0
  lastPath : Nat := 0
  loads : Nat := 0
  locks : BitVec 7 := 0
  timeout : Nat := 500
  /-- the timeout of the LOAD in progress (R156) -/
  timeoutNow : Nat := 500
  forceHost : Bool := false
  forceBoot : Bool := false
  hostWords : Nat := 0
  /-- STREAM_END or the section's end has been seen without an own section (R151, R156) -/
  noSection : Bool := false
  -- keeper and port levels (R137, R510)
  kil : Nat := 0
  pml : Nat := 0
  /-- the running PML lies outside the range of its container's STAMP (R141) -/
  pmlRefused : Bool := false
  keeperUp : Bool := false
  microUp : Bool := false
  golden : Tab (Option Golden) := []
  -- versions (R510)
  stampRegs : List Word := [0, 0, 0, 0]
  persPath : Nat := 3
  persPartial : Bool := false
  persForced : Bool := false
  containerSeq : Nat := 0
  deriving DecidableEq, Repr

/-! ## Flash (R138, R160, R164) -/

/-- Flash command in progress. -/
inductive FlashOp where
  | read | program | erase | verifyA | verifyB
  deriving DecidableEq, Repr

/-- A command in progress, with the range and, for PROGRAM, the bytes that it was accepted with. -/
structure FlashJob where
  op : FlashOp
  addr : Nat
  len : Nat
  data : List Byte := []
  deriving DecidableEq, Repr

structure Flash where
  cells : List (Nat × Byte) := []
  buffer : List (Nat × Byte) := []
  addr : Nat := 0
  len : Nat := 0
  busy : Option FlashJob := none
  result : Nat := 0
  readMode : Nat := 0
  /-- the flash answered SFDP discovery since T3 -/
  found : Bool := false
  /-- SFDP describes erase and program suspend (R165) -/
  suspends : Bool := false
  deriving DecidableEq, Repr

/-! ## Gojan chain (R146 to R154) -/

structure Chain where
  downPresent : Bool := false
  credits : Nat := 0
  /-- downstream frames that wait for a credit: type, index, payload -/
  txq : List (Nat × Nat × List Word) := []
  seqDown : Nat := 0
  seqUp : Nat := 0
  rxDown : Nat := 0
  rxUp : Nat := 0
  begun : Bool := false
  /-- container stamp of BEGIN, words 0 to 3 -/
  stamp : List Word := []
  copy : Nat := 0
  attempt : Nat := 0
  forced : Bool := false
  /-- the section being received: type, index, level, length in words left, SCRC, running CRC -/
  section_ : Option (Nat × Nat × Nat × Nat × Word × Word) := none
  steppings : Nat := 0
  fwLevel : Nat := 0
  ownSeen : Bool := false
  streamEnd : Bool := false
  /-- received frames stop being forwarded (R148, R152) -/
  stopped : Bool := false
  verifiedSet : BitVec 8 := 0
  statusSent : Bool := false
  deriving DecidableEq, Repr

/-! ## JTAG (R168, R169, R44) -/

inductive TapIr where
  | idcode | sample | extest | clamp | highz | iscEnable | iscDisable | iscNoop | iscProgram
  | loadStatus | bypass
  deriving DecidableEq, Repr

structure Jtag where
  ir : TapIr := .idcode
  dr : Word := 0
  isc : Bool := false
  /-- TRST_N is held low: the TAP stays in Test-Logic-Reset (R209) -/
  trstLow : Bool := false
  /-- boundary-scan register, pin levels and enables of the 1,536 user pins: what Update-DR put into its
  latches, and what Capture-DR last sampled -/
  bsr : BitVec 3072 := 0
  captured : BitVec 3072 := 0
  /-- X17: words of ISC_PROGRAM that the loader has not taken yet, the oldest first (R24) -/
  x17 : List Word := []
  deriving DecidableEq, Repr

/-! ## Tide and repair (R183 to R202) -/

/-- What asks for a repair: an island of this device, or a frame of another device of the
chain (R193, R154). -/
inductive RepairJob where
  | island (i : Nat)
  | chain (faddr index : Nat)
  deriving DecidableEq, Repr

inductive RepairPhase where
  /-- the golden frame is being read -/
  | golden
  /-- REPAIR_DATA is awaited (R194) -/
  | answer
  /-- the island re-check runs (R192) -/
  | recheck
  deriving DecidableEq, Repr

structure Repair where
  job : RepairJob
  /-- frame under repair, by dense index -/
  frame : Nat
  first : Nat
  rewritten : Nat := 0
  phase : RepairPhase := .golden
  /-- place of the re-check in the island, 0 to 167 -/
  place : Nat := 0
  /-- the re-check of a completed load (R198) -/
  afterLoad : Bool := false
  deriving DecidableEq, Repr

structure Tide where
  enabled : Bool := false
  burst : Bool := false
  /-- a burst has been asked for and its leave is awaited (R185) -/
  burstWait : Bool := false
  burstLeft : Nat := 0
  burstFirst : Nat := 0
  /-- configuration cycles of the burst so far (R184) -/
  burstCycles : Nat := 0
  burstDenied : Bool := false
  sweeps : Nat := 0
  position : Nat := 0
  period : Nat := 10000
  corrected : Nat := 0
  uncorrectable : Nat := 0
  mismatch : Nat := 0
  lastFind : Nat := 0
  checkAddr : Nat := 0
  checkValid : Bool := false
  /-- a readback of a check word is under way -/
  checkAsked : Bool := false
  checkWord : Word := 0
  /-- repairs that wait, in the order in which they arose, each with its first frame; one that waits for T13 has
  REPAIR at DEFERRED (R199) -/
  queue : List (RepairJob × Nat) := []
  now : Option Repair := none
  /-- completed loads on quarantined islands whose re-check waits (R198) -/
  rechecks : List Nat := []
  deriving DecidableEq, Repr

/-! ## Banks (R219, R220) -/

structure Bank where
  present : Bool := false
  enabled : Bool := false
  inRow : Nat := 0
  outRow : Nat := 0
  cls : Nat := 0
  /-- the supply is valid for the pre-load pull (R218, R528) -/
  valid : Bool := false
  /-- a bank-enable request is with the leave unit -/
  asking : Bool := false
  /-- it was refused and is made again 10 ms later -/
  retry : Bool := false
  deriving DecidableEq, Repr

/-! ## Power leave (R477 to R491) -/

structure LeaveReq where
  who : Asker
  cost : Nat
  prio : Nat
  duration : Nat
  /-- in ns -/
  timeout : Nat
  /-- core time of arrival -/
  at_ : Nat := 0
  /-- a test delay holds the request (R523) -/
  held : Bool := false
  deriving DecidableEq, Repr

structure Lease where
  handle : Nat
  who : Asker
  cost : Nat
  /-- in transient since its grant -/
  transient : Bool := true
  /-- DURATION 0 keeps the lease in transient for its whole life -/
  forever : Bool := false
  /-- its event has come and it ends when DURATION has passed (R479) -/
  ending : Bool := false
  deriving DecidableEq, Repr

structure Thermal where
  max : Nat := 0
  sensor : Nat := 0
  warn : Bool := false
  excluded : BitVec 8 := 0
  warnRun : Nat := 0
  coolRun : Nat := 0
  critRun : Nat := 0
  /-- last junction temperature in quarter degrees, signed (R488) -/
  junction : Int := 0
  deriving DecidableEq, Repr

structure Leave where
  budget : Nat := 3000
  floor : Nat := 0
  overBudget : Bool := false
  measured : Nat := 0
  peak : Nat := 0
  samples : List Nat := []
  overRun : Nat := 0
  okRun : Nat := 0
  absRun : Nat := 0
  overSince : Nat := 0
  defTimeout : Nat := 10000
  denials : Nat := 0
  timeouts : Nat := 0
  warnTh : Nat := 110
  warnStop : Bool := false
  kinds : Tab Nat := []
  irel : Tab Nat := []
  icls : Tab Nat := []
  /-- requests made and not arrived at the unit yet -/
  arriving : List LeaveReq := []
  queue : List LeaveReq := []
  leases : List Lease := []
  /-- something has come at which the queue is evaluated (R480); false between steps -/
  stale : Bool := false
  temp : Thermal := {}
  deriving DecidableEq, Repr

/-! ## Logbook and fault routing (R492 to R509) -/

structure LogEntry where
  time : Nat
  seq : Nat
  code : Nat
  sev : Nat
  tenant : Nat
  payload : List Byte
  repeats : Nat := 0
  epoch : Nat
  /-- core time of the first occurrence (R498) -/
  born : Nat
  damaged : Bool := false
  deriving DecidableEq, Repr

/-- An event to be logged in the step in progress (R493). `time` overrides TIME (R494). -/
structure Event where
  code : Nat
  sev : Nat
  tenant : Nat
  payload : List Byte
  time : Option (Nat × Nat) := none
  deriving DecidableEq, Repr

/-- A tenant's view of the logbook (R501). -/
structure LogView where
  find : Nat := 0
  done : Bool := false
  found : Bool := false
  skipped : Bool := false
  notify : Nat := 0xC
  entry : List Word := [0, 0, 0, 0, 0, 0, 0, 0]
  searching : Bool := false
  /-- where the search in progress began, and how many entries it examines -/
  from_ : Nat := 0
  span : Nat := 0
  deriving DecidableEq, Repr

structure Log where
  /-- entries by slot -/
  slots : Tab (Option LogEntry) := []
  /-- slots of the most recently written entries, latest first, at most 8 (R498) -/
  recent : List Nat := []
  policy : Bool := false
  next : Nat := 0
  ack : Nat := 0
  overflow : Nat := 0
  /-- entries written since power-on reset, up to 4,096 (R501) -/
  kept : Nat := 0
  /-- events not recorded since the last entry, under STOP (R496) -/
  lost : Nat := 0
  views : Tab LogView := []
  /-- events of the step in progress, not written yet; empty between steps (R493) -/
  staged : List Event := []
  faultStatus : BitVec 12 := 0
  faultEn : BitVec 12 := 0
  deriving DecidableEq, Repr

end Sys2Proof.Machine
end

