-- ==== Sys2Proof/Machine/StateHost.lean ====
section
/-! DEFINITION. The state of the host link, the functions, DMA, translation, rings and threads
(09 to 13). Plain data; every default is the value after power-on reset. -/

namespace Sys2Proof.Machine

/-! ## What leaves the device -/

/-- What the block has put out, in order: entries of X2 and X4 (R24), chain frames (R148). -/
inductive OutMsg where
  /-- a posted write: function, host address, data, Relaxed Ordering, AT = Translated -/
  | write (fn addr : Nat) (data : List Byte) (ro trans : Bool)
  /-- a read request: function, tag, host address, length -/
  | read (fn tag addr len : Nat) (trans : Bool)
  | transReq (fn id addr : Nat)
  | invalDone (fn itag : Nat)
  | msix (fn vector addr data : Nat)
  | ltr (snoop noSnoop : Nat)
  | pmeAck
  /-- a completion of a host read with its data, and an Unsupported Request completion -/
  | cpl (fn : Nat) (data : List Word)
  | unsupported (fn : Nat)
  | retryStatus (fn : Nat)
  /-- an error message: severity 0 correctable, 1 non-fatal, 2 fatal (R233, R265) -/
  | errMsg (fn severity : Nat)
  /-- a chain frame: toward the next device or the previous one; header word, payload, CRC -/
  | chain (down : Bool) (frame : List Word)
  /-- a frame a port drives on its pins -/
  | portTx (port : Nat) (bytes : List Byte)
  /-- a pulse a port drives at a signal: its length in ns (R451, R457) -/
  | pulse (port sig ns : Nat)
  deriving DecidableEq, Repr

/-! ## Link and functions (R227 to R259) -/

structure Link where
  up : Bool := false
  speed : Nat := 0
  width : Nat := 0
  l1 : Bool := false
  l2 : Bool := false
  perst : Bool := true
  /-- core time from which configuration requests are answered: until then they get Retry Status (R246) -/
  readyAt : Nat := 0
  downs : Nat := 0
  perstCount : Nat := 0
  ltrLast : Nat := 0
  /-- tolerance last reported, none for no requirement, and when (R258) -/
  ltrTol : Option Nat := none
  ltrTime : Option Nat := none
  /-- what ports have written into receive areas: core time, segment, bytes, back to 100 µs (R257) -/
  inflow : List (Nat × Nat × Nat) := []
  /-- equalization at 8.0 and at 16.0 GT/s has been done since the link came up -/
  eq8 : Bool := false
  eq16 : Bool := false
  /-- completions of the host's reads that wait for X4, in their order (R24, R27) -/
  cpls : List OutMsg := []
  deriving DecidableEq, Repr

/-- Configuration space of a function: the fields this manual uses (R231). -/
structure Fn where
  mse : Bool := false
  bme : Bool := false
  intDisable : Bool := false
  d3hot : Bool := false
  msixEn : Bool := false
  fmask : Bool := false
  /-- Max_Payload_Size and Max_Read_Request_Size codes: 128 bytes shifted left by the code -/
  mps : Nat := 0
  mrrs : Nat := 2
  extTag : Bool := true
  tag10 : Bool := false
  relaxed : Bool := true
  ctoValue : Nat := 0
  ctoDisable : Bool := false
  ltrEn : Bool := false
  atsEn : Bool := false
  stu : Nat := 0
  aspm : Nat := 0
  bar0 : Nat := 0
  bar2 : Nat := 0
  ltrSnoop : Nat := 0
  ltrNoSnoop : Nat := 0
  /-- AER Uncorrectable Error Status, sticky (R233) -/
  aer : Nat := 0
  /-- AER Correctable Error Status, First Error Pointer and header log, sticky (R227, R233) -/
  aerCorr : Nat := 0
  aerFirst : Nat := 0
  aerHeader : List Word := []
  /-- the writable fields of which the device itself makes no use, by byte offset (R231) -/
  plain : Tab Nat := []
  /-- Device Status: errors detected -/
  detected : Nat := 0
  /-- core time at which the FLR in progress began (R251) -/
  flr : Option Nat := none
  deriving DecidableEq, Repr

inductive WinState where
  | invalid | checking | valid | refused
  deriving DecidableEq, Repr

def WinState.code : WinState → Nat
  | .invalid => 0 | .checking => 1 | .valid => 2 | .refused => 3

structure Win where
  base : Nat := 0
  pages : Nat := 0
  req : Bool := false
  rd : Bool := false
  wr : Bool := false
  state : WinState := .invalid
  reason : Nat := 0
  miss : Bool := false
  /-- a REQ = 0 waits for accesses accepted before it (R243) -/
  closing : Bool := false
  deriving DecidableEq, Repr

structure Msix where
  addr : Nat := 0
  data : Nat := 0
  mask : Bool := true
  pend : Bool := false
  deriving DecidableEq, Repr

/-- Status, fault, DMA and ATS registers of a tenant (R284, R400, R401). -/
structure Ten where
  charterGen : Nat := 0
  fault : Nat := 0
  faultKind : Nat := 0
  faultRing : Nat := 0
  faultStatus : Nat := 0
  retried : Nat := 0
  partialCount : Nat := 0
  ahead : Nat := 2
  atsFault : Bool := false
  invqOverflow : Bool := false
  invalidations : Nat := 0
  atsAddr : Nat := 0
  atsWrite : Bool := false
  dmaError : Bool := false
  dmaKind : Nat := 0
  dmaRing : Nat := 0
  rdBytes : Nat := 0
  wrBytes : Nat := 0
  rdHi : Nat := 0
  wrHi : Nat := 0
  deriving DecidableEq, Repr

/-! ## DMA and ATC (R261 to R275) -/

inductive ReadKind where
  /-- a fetch of ring slots, transfer data, the zero-length read of a fence (R278), or a read that nothing waits for
  any more -/
  | fetch | data | fence | gone
  deriving DecidableEq, Repr

/-- A read outstanding: function, ring, tag (1,024 × function + the tag on the link), address, length,
bytes received. A read discarded by FLR, PERST#, a timeout or an invalidation is in no list: its
completion is unexpected (R265). -/
structure DmaRead where
  fn : Nat
  ring : Nat
  tag : Nat
  kind : ReadKind
  addr : Nat
  len : Nat
  got : Option (List Byte) := none
  /-- invalidations that had left X1 when its chunk began (R273) -/
  born : Nat := 0
  /-- untranslated page, when the read uses an ATC entry -/
  page : Option Nat := none
  deriving DecidableEq, Repr

structure AtcEntry where
  fn : Nat
  page : Nat
  /-- log2 of the page size, 12 to 30 -/
  size : Nat
  tpage : Nat
  r : Bool
  w : Bool
  age : Nat := 0
  deriving DecidableEq, Repr

/-- A Translation Request outstanding (R270): the page, and the ring whose chunk needs it now. -/
structure TransReq where
  id : Nat
  fn : Nat
  ring : Nat
  page : Nat
  needed : Bool
  write : Bool
  /-- an invalidation matched it: its answer is not cached (R273) -/
  stale : Bool := false
  deriving DecidableEq, Repr

/-- A translation that a ring wants and whose request cannot go out yet: it waits (R263, R267, R270). -/
structure TransWant where
  ring : Nat
  page : Nat
  needed : Bool
  write : Bool
  deriving DecidableEq, Repr

/-- An Invalidate Request not answered yet (R273, R274), and the range it names. -/
structure InvReq where
  fn : Nat
  itag : Nat
  page : Nat
  bytes : Nat
  /-- still in X1: past the 32 held, or come in RESET -/
  inX1 : Bool := false
  /-- its number among the requests that have left X1: uses begun before are open (R273) -/
  seq : Nat := 0
  /-- not a request of the host: ATS Enable was cleared, which is handled as one (R268) -/
  own : Bool := false
  deriving DecidableEq, Repr

inductive RateLease where
  | none | asked | held
  deriving DecidableEq, Repr

structure Dma where
  reads : List DmaRead := []
  atc : Tab (Option AtcEntry) := []
  atcClock : Nat := 0
  atcRetired : BitVec 4 := 0
  atcParity : Nat := 0
  trans : List TransReq := []
  /-- translations whose requests wait to be made -/
  wanted : List TransWant := []
  invs : List InvReq := []
  /-- requests that have left X1 -/
  invSeq : Nat := 0
  /-- messages that wait for X2, in their order: function, vector (R27) -/
  msgs : List (Nat × Nat) := []
  winBytes : Nat := 0
  capRun : Nat := 0
  quietRun : Nat := 0
  rate : RateLease := .none
  /-- windows still to pass before the lease is asked for again (R267) -/
  retryWindows : Nat := 0
  /-- the cap has delayed a request in this window -/
  delayed : Bool := false
  deriving DecidableEq, Repr

/-! ## Rings (R286 to R316) -/

inductive RingState where
  | disabled | running | flushing | stopped | halted
  deriving DecidableEq, Repr

def RingState.code : RingState → Nat
  | .disabled => 0 | .running => 1 | .flushing => 2 | .stopped => 3 | .halted => 4

/-- A record of a RETURN ring: type, status, tag, RETRIED, producing ring, body words. -/
structure Rec where
  type : Nat
  status : Nat
  tag : Nat
  retried : Bool := false
  from_ : Nat
  body : List Word
  deriving DecidableEq, Repr

/-- What a flush in progress has found (R308 to R311). -/
structure Flush where
  discarded : Nat := 0
  partialItem : Bool := false
  partialDone : Bool := false
  abandoned : Bool := false
  /-- its FLUSH_DONE record has been produced and waits to be written -/
  waits : Bool := false
  deriving DecidableEq, Repr

structure Ring where
  base : Nat := 0
  size : Nat := 6
  enable : Bool := false
  kind : Nat := 0
  translated : Bool := false
  hinted : Bool := false
  timeoutSel : Nat := 0
  cpl : Nat := 0
  cplEn : Bool := false
  state : RingState := .disabled
  tail : Nat := 0
  head : Nat := 0
  wmHi : Nat := 0
  wmLo : Nat := 0
  level : Bool := false
  hiSeen : Bool := false
  loSeen : Bool := false
  wmCount : Nat := 0
  arm : Bool := false
  fault : Bool := false
  faultCode : Nat := 0
  faultStatus : Nat := 0
  done : Nat := 0
  lost : Nat := 0
  entry : Nat := 0
  /-- the ISSUE_TIMEOUT timer runs (R297) -/
  timer : Bool := false
  disableWanted : Bool := false
  flush : Option Flush := none
  /-- words of the slots fetched, from RING_HEAD on (R296) -/
  fetched : List Word := []
  /-- a record of which that many body words have been written and the header has not (R309) -/
  part : Option (Rec × Nat) := none
  /-- the pages that record's slots go to -/
  partPages : List (Option Nat) := []
  /-- invalidations that had left X1 when that record was begun (R273) -/
  partAt : Nat := 0
  /-- pages whose translations have come for what waits here and have not been used (R518) -/
  fresh : List Nat := []
  /-- last address that the ring's thread has written with Relaxed Ordering and no flush has covered, with
  the ring whose translation it used (R278) -/
  roLast : Option (Nat × Nat) := none
  deriving DecidableEq, Repr

/-! ## Threads (R325, R333) -/

inductive Wait where
  | none
  /-- WAIT_TIME: a delay, or a deadline on the shadow (R343) -/
  | delay (ns : Nat)
  | deadline (ns : Nat)
  /-- WAIT_EVENT: source, partner, timeout (R344) -/
  | event (source partner timeout : Nat)
  | leave
  | release (island : Nat)
  | capture (line : Nat)
  /-- reads of the current chunk are asked for or outstanding -/
  | dma
  /-- the zero-length read of R278 -/
  | fence
  /-- X19 is full, or the port's start sequence runs (R24, R467) -/
  | txSpace (port : Nat)
  /-- the outcome of a frame handed to a port (R368) -/
  | tx (port : Nat)
  | fabric (island : Nat)
  /-- space for a record in a ring (R303) -/
  | record (ring : Nat)
  deriving DecidableEq, Repr

/-- The instruction in flight. -/
structure Cur where
  words : List Word
  /-- counter of the item's first slot, or word index (R339) -/
  pos : Nat
  /-- PROGRAM: the PC after it -/
  next : Nat := 0
  /-- addresses and length formed at its start (R381); `started` once they are formed -/
  started : Bool := false
  a0 : Nat := 0
  a1 : Nat := 0
  len : Nat := 0
  /-- units committed, in the instruction's own unit (R380) -/
  progress : Nat := 0
  /-- the chunk in progress has begun, with its translated page if it uses one -/
  xl : Option (Option Nat) := none
  /-- invalidations that had left X1 when the chunk began (R273) -/
  xlAt : Nat := 0
  /-- an access of R353 has been made -/
  once : Bool := false
  retried : Bool := false
  /-- F has been honoured (R336) -/
  fenced : Bool := false
  /-- a chunk staged in the commit buffer for COPY_OUT, or read data of the chunk for COPY_IN -/
  staged : Option (List Byte) := none
  /-- PARTNER_POLL: the frame taken (payload, length, stamp, epoch) and its next fragment -/
  taken : Option (List Byte × Nat × Nat × Nat) := none
  /-- the ring that its record waits, or has waited, to be written to, and the record's slots (R303, R309) -/
  dest : Option (Nat × Nat) := none
  frag : Nat := 0
  /-- what has answered a wait: a status, and a value (handle, stamp, read data, reason) -/
  reply : Option (Nat × Nat) := none
  /-- it could not be fetched whole, and ends with this status where its thread next holds a pair (R329, R330) -/
  unread : Option Nat := none
  /-- the instruction has ended with a status and a result, and waits to write its record -/
  fin : Option (Nat × Nat) := none
  deriving DecidableEq, Repr

structure Thread where
  regs : Tab Nat := []
  z : Bool := false
  c : Bool := false
  n : Bool := false
  s : Nat := 0
  pc : Nat := 0
  stack : List Nat := []
  dbPend : Bool := false
  ppsPend : Bool := false
  cur : Option Cur := none
  wait : Wait := .none
  pair : Option Nat := none
  /-- stopped at a boundary since the entry to HOLD began (R38) -/
  paused : Bool := false
  deriving DecidableEq, Repr

end Sys2Proof.Machine
end

