-- ==== Sys2Proof/Machine/StatePort.lean ====
section
/-! DEFINITION. The state of ferry pairs, charters, harbour ports, partners, the timebase and
the test unit (14, 15, 16, 19). Plain data; every default is the value after power-on reset. -/

namespace Sys2Proof.Machine

/-! ## Ferry pairs (R384 to R403) -/

structure Pair where
  /-- ring of the thread held -/
  held : Option Nat := none
  retired : Bool := false
  selftest : Bool := false
  ring : Nat := 0
  cause : Nat := 0
  deriving DecidableEq, Repr

structure Ferry where
  pairs : Tab Pair := []
  lastFail : Nat := 0
  credit : Tab Nat := []
  lastTenant : Nat := 7
  lastRing : Tab Nat := []
  deriving DecidableEq, Repr

/-! ## Charters (R394 to R397) -/

/-- A charter write not in effect yet: register offset, old value, new value. -/
structure CharterWrite where
  off : Nat
  old : Nat
  new : Nat
  deriving DecidableEq, Repr

structure Charter where
  /-- register values as read, by offset / 4 -/
  shown : Tab Nat := []
  /-- register values in effect -/
  eff : Tab Nat := []
  gen : Nat := 0
  waiting : List CharterWrite := []
  deriving DecidableEq, Repr

/-! ## Harbour ports (R405 to R476) -/

/-- A frame received: payload, stamp, epoch, and what its protocol says of it beside the
payload (SENT and PSI5: slot; SENT: stream; SPI and I3C: the partner of the transfer). -/
structure RxFrame where
  payload : List Byte
  stamp : Nat
  epoch : Nat
  slot : Nat := 0
  stream : Nat := 0
  partner : Option Nat := none
  ibi : Option Nat := none
  deriving DecidableEq, Repr

/-- A frame handed by PORT_XMIT. -/
structure TxFrame where
  ring : Nat
  partner : Nat
  bytes : List Byte
  deriving DecidableEq, Repr

/-- What a SENT frame gives to the serial channel (R454): bits 3 and 2 of its status nibble, its stamp, its
epoch. -/
structure SentBits where
  b3 : Bool
  b2 : Bool
  stamp : Nat
  epoch : Nat
  deriving DecidableEq, Repr

/-- A sync instant of a PSI5 port (R459, R460). -/
structure SyncInstant where
  /-- device time of it: as device time runs now, then as it ran before the latest step or set since, before the one
  before, and so on -/
  times : List Nat
  /-- time of the core clock -/
  at_ : Nat := 0
  /-- windows in which a frame has begun -/
  had : Nat := 0
  deriving DecidableEq, Repr

structure Port where
  run : Bool := false
  retired : Bool := false
  cause : Nat := 0
  /-- the state last seen, for the start and stop events (R410) -/
  seen : Nat := 0
  rxGood : Nat := 0
  rxUnmatched : Nat := 0
  rxErrors : Nat := 0
  rxOverflow : Nat := 0
  txGood : Nat := 0
  txFailed : Nat := 0
  /-- X18 and X19 of the port -/
  rxq : List RxFrame := []
  txq : List TxFrame := []
  /-- SPI and I3C: the partner of the transfer that an arming has started, and those whose transfers are due
  behind it (R442) -/
  busy : Option Nat := none
  due : List Nat := []
  /-- core time at which the latest pulse on SPC_OUT or SYNC_OUT ends (R452, R457) -/
  pulseEnd : Nat := 0
  /-- the bytes that the frame being sent clocks in, or reads, have ended -/
  clocked : Bool := false
  -- CAN (R450)
  tec : Nat := 0
  rec_ : Nat := 0
  busOff : Bool := false
  lastError : Nat := 0
  tdc : Nat := 0
  recovering : Bool := false
  offSince : Nat := 0
  -- SENT (R456)
  lastTick : Nat := 0
  noResponse : Nat := 0
  /-- slot of a request pulse whose frame has not come, for NO_RESPONSE -/
  requested : Option Nat := none
  /-- slot of the latest request pulse that no frame has followed (R453) -/
  follow : Option Nat := none
  /-- calibration pulse of the frame before, in ns (R454) -/
  lastCal : Option Nat := none
  /-- status bits of the latest good frames of each slot, for the serial messages (R454) -/
  serial : Tab (List SentBits) := []
  -- PSI5 (R460)
  syncCount : Nat := 0
  /-- the sync instants in whose windows a frame may have begun, the latest first -/
  syncs : List SyncInstant := []
  slotSeen : Nat := 0
  -- SPI (R463)
  skipped : Nat := 0
  -- I3C (R467)
  addrs : List Nat := []
  /-- partners made VALID since the port's start, which steps 3 to 5 have not addressed yet -/
  unaddressed : List Nat := []
  daaDone : Bool := false
  unknown : Nat := 0
  starting : Bool := false
  -- 10BASE-T1S (R474)
  collisions : Nat := 0
  deriving DecidableEq, Repr

/-! ## Partners (R415 to R424) -/

/-- A frame stored in a receive area: first unit, units, length, stamp, epoch. -/
structure Stored where
  unit : Nat
  units : Nat
  len : Nat
  stamp : Nat
  epoch : Nat
  deriving DecidableEq, Repr

structure Partner where
  port : Nat := 0
  valid : Bool := false
  ring : Nat := 0
  arm : Nat := 0
  chk : Nat := 0
  schedEn : Bool := false
  schedRing : Nat := 0
  addr0 : Nat := 0
  addr1 : Nat := 0
  addr2 : Nat := 0
  segment : Nat := 0
  areaBase : Nat := 0
  areaSize : Nat := 0
  accepted : Nat := 0
  rejected : Nat := 0
  lastStamp : Nat := 0
  lastEpoch : Nat := 0
  /-- next unit of the area to be written, and the frames stored, oldest first -/
  pos : Nat := 0
  frames : List Stored := []
  /-- trigger time of a TIMED arming that has not started yet (R369, R442) -/
  trigger : Option Nat := none
  /-- the record of R424 has been delivered -/
  final : Bool := false
  deriving DecidableEq, Repr

/-! ## Timebase (R426 to R431) -/

/-- High halves latched for one requester (R418, R431). -/
structure TbLatch where
  nowHi : Nat := 0
  epoch : Nat := 0
  secHi : Nat := 0
  nsec : Nat := 0
  ppsHi : Nat := 0
  deriving DecidableEq, Repr

structure Timebase where
  sec : Nat := 0
  nsec : Nat := 0
  /-- fraction of a nanosecond in units of 2^-28 (R428) -/
  frac : Nat := 0
  epoch : Nat := 0
  -- shadow of X22 (R24)
  shSec : Nat := 0
  shNsec : Nat := 0
  shEpoch : Nat := 0
  /-- timebase cycles since the shadow's value was device time -/
  shAge : Nat := 0
  /-- seconds, nanoseconds and step epoch of the latest 19 timebase cycles, the newest first -/
  past : List (Nat × Nat × Nat) := []
  addend : Nat := 0x40000000
  ref : Nat := 0
  holdover : Bool := false
  refLost : Bool := false
  stepped : Bool := false
  stepRefused : Bool := false
  offset : Nat := 0
  setSec : Nat := 0
  setNsec : Nat := 0
  ppsEn : Bool := false
  ppsPol : Bool := false
  ppsWidth : Nat := 0
  ppsOffset : Nat := 0
  pulse : Bool := false
  ppsStamp : Nat := 0
  ppsCount : Nat := 0
  latches : Tab TbLatch := []
  deriving DecidableEq, Repr

/-! ## Test unit (R513 to R524) -/

structure Ptu where
  lastClear : Nat := 0
  dbDelay : Tab Nat := []
  stretch : Tab Nat := []
  atcMiss : Nat := 0
  qQueue : Nat := 0
  qPort : Nat := 0
  qRefused : Bool := false
  qCycles : Nat := 0
  /-- core time of the write that began the forcing -/
  qSince : Nat := 0
  qSeen : Nat := 0
  /-- COUNT + 65,536 × ALL by port -/
  rxCorrupt : Tab Nat := []
  lvKinds : Nat := 0
  lvDeny : Bool := false
  lvDelay : Nat := 0
  tbSlow : Nat := 0
  injIndex : Nat := 0
  injFatal : Bool := false
  injResult : Nat := 0
  pfPair : Nat := 0
  pfGo : Bool := false
  pfResult : Nat := 0
  deriving DecidableEq, Repr

/-- Something the test unit holds back: a RING_TAIL write to a ring, or a completion with its tag, status and
data (R516, R517). -/
inductive HeldItem where
  | tail (r v : Nat)
  | cpl (tag code : Nat) (data : List Byte)
  deriving DecidableEq, Repr

/-- What the test unit holds back, in its original order (R514). A held leave request stands in the leave unit's
queue. -/
structure PtuHeld where
  items : List HeldItem := []
  deriving DecidableEq, Repr

/-- The RING_TAIL writes held. -/
def PtuHeld.tails (h : PtuHeld) : List (Nat × Nat) :=
  h.items.filterMap (fun i => match i with | .tail r v => some (r, v) | .cpl .. => none)

/-- The completions held: tag, status, data. -/
def PtuHeld.cpls (h : PtuHeld) : List (Nat × Nat × List Byte) :=
  h.items.filterMap (fun i => match i with | .cpl tag code data => some (tag, code, data) | .tail .. => none)

end Sys2Proof.Machine
end

