-- ==== Sys2Proof/Syntax.lean ====
section
/-! DEFINITION. The commands of the block: one constructor for each row of the table of
operations and events (spec/opcode_table.json). An operand is what the outside world decides;
what the device holds is read from its state. -/

namespace Sys2Proof

/-- A CAN frame (R449, R450): its fields, its data, the LAST_ERROR number of an error, 0 for none, and how often
ISO 11898-1 adds 8 to the receive error counter for dominant bits after the error flag. -/
structure CanFrame where
  id : Nat
  ide : Bool := false
  rtr : Bool := false
  fdf : Bool := false
  brs : Bool := false
  esi : Bool := false
  dlc : Nat
  data : List Byte
  error : Nat := 0
  eights : Nat := 0
  deriving DecidableEq, Repr

/-- What ends at a port's pins, as its protocol's signals carry it.

SENT (R454): the length of the calibration pulse in ns, and of the pulses that follow it.

PSI5 (R459, R460): the data, bit 0 the first transmitted, their number, the parity bit or the CRC, and whether
the Manchester code was violated.

SPI (R463): the bytes clocked in. I3C (R469, R470): the bytes of a read, and whether an error met it.

10BASE-T1S (R471, R474): the frame from its destination address through its FCS, and RX_ER or an odd nibble. -/
inductive WireContent where
  | can (frame : CanFrame)
  | sent (calibration : Nat) (pulses : List Nat)
  | psi (data bits check : Nat) (violation : Bool)
  | spi (data : List Byte)
  | i3c (data : List Byte) (error : Bool)
  | t1s (bytes : List Byte) (error : Bool)
  deriving DecidableEq, Repr

/-- A frame as it ends at a port's pins (R24, R433): what it carries, its stamp, and the number of steps and
sets since its stamp was taken (R434). -/
structure WireFrame where
  content : WireContent
  stamp : Nat
  stepsSince : Nat := 0
  deriving DecidableEq, Repr

/-- An attempt at a CAN frame that met an error (R450): its LAST_ERROR number; whether it is the stuff error
during arbitration that ISO 11898-1 does not count; and how often the standard adds 8 for dominant bits after
the error flag. -/
structure CanError where
  kind : Nat
  exempt : Bool := false
  eights : Nat := 0
  deriving DecidableEq, Repr

/-- The outcome a port reports of a transmitted frame (R368, R441): `reason` 0 for success, else a
reason of R441; the transmit stamp; the attempts that met an error (CAN); collisions seen (10BASE-T1S); addresses
that the target did not acknowledge (I3C); the transmitter delay measured (CAN). -/
structure WireOutcome where
  reason : Nat
  stamp : Nat
  errors : List CanError := []
  collisions : Nat := 0
  nacks : Nat := 0
  tdc : Option Nat := none
  deriving DecidableEq, Repr

/-- What an I3C start sequence meets on the bus (R467): the static addresses that acknowledge SETDASA, and the
PIDs that answer ENTDAA, in their order. -/
structure I3cScan where
  acks : List Nat
  pids : List Nat
  deriving DecidableEq, Repr

/-- A DMA read's completion status (R265, R383). -/
inductive CplStatus where
  | ok | unsupported | abort | poisoned
  deriving DecidableEq, Repr

/-- Who reads a register of which a read latches or clears something (R8, R418). -/
abbrev Reader := Requester

/-- The commands, in the table's order. -/
inductive Instr where
  -- resets and entry to LOAD (R31, R210, R224)
  | powerOnReset
  | sysRstNLow
  | progNLow
  | resetRelease (chainFirst bench : Bool) (pull : Fin 3) (selftestPass : BitVec 8) (tbRef : Fin 4)
  -- loading and waking (R135 to R157)
  | flashSfdpDiscovery (sigOk : Bool) (density : Nat) (erase64 : Bool) (modes : BitVec 4) (suspends : Bool)
  | containerVerify
  | firmwareSectionLoaded
  | microcodeSectionLoaded
  | doneRelease
  | doneRise
  | wakeGsrRelease
  | wakeBankOutputEnable
  | wakeClockStart
  | wakeComplete
  | chainTimeout
  -- modes (R31, R46, R47)
  | transitionComplete
  | enterService (freeze : Bool)
  | resume
  | leaveTest
  | freezeOn
  | freezeOff
  | reservedModeCmd (cmd : BitVec 4)
  | testUnlockWrite (key : Word)
  | testUnlockExpiry
  -- accesses, user logic and clocks (R16, R75 to R78, R95, R96, R103, R105)
  | diaAccess (who : Requester) (write : Bool) (addr len : Nat) (data : List Byte)
  | uack (i : IslandId)
  | fabricAccessTimeout (i : IslandId)
  | lreqRise (i : IslandId)
  | lreqFall (i : IslandId)
  | synthLock (c : SynthId)
  | synthLockWaitEnd (c : SynthId)
  | synthLossOfLock (c : SynthId)
  | captureEdge (l : LineId)
  | captureTimeout (l : LineId)
  -- bitstream (R115 to R126)
  | syncWord (p : Path) (w : Word)
  | badPacketHeader (p : Path) (w : Word)
  | nopPacket (p : Path) (payload : List Word)
  | idchk (p : Path) (w0 w1 : Word)
  | stampPacket (p : Path) (w0 w1 w2 w3 : Word)
  | manifest (p : Path) (payload : List Word)
  | startFull (p : Path) (rest : BitVec 28)
  | startPartial (p : Path) (rest : BitVec 28)
  | abort (p : Path) (rest : BitVec 28)
  | reservedLoadCmd (p : Path) (w : Word)
  | lockPacket (p : Path) (w : Word)
  | farPacket (p : Path) (w : Word)
  | fdataRecord (p : Path) (count : Option Nat) (words : List Word)
  | endPacket (p : Path) (crc : Word)
  -- Gojan chain frames received (R147 to R154), whole, header word first
  | chainBegin (frame : List Word) (overflow : Bool)
  | chainSection (frame : List Word) (overflow : Bool)
  | chainData (frame : List Word) (overflow : Bool)
  | chainStreamEnd (frame : List Word) (overflow : Bool)
  | chainRestart (frame : List Word) (overflow : Bool)
  | chainCredit (frame : List Word) (overflow : Bool)
  | chainStatus (frame : List Word) (overflow : Bool)
  | chainRepairReq (frame : List Word) (overflow : Bool)
  | chainRepairAnswer (failed : Bool)
  | chainRepairData (frame : List Word) (overflow failed : Bool)
  -- loader registers, host-link stream and flash (R160 to R166)
  | ldrLockWrite (v : Word)
  | ldrBenchWrite (v : Word)
  | ldrHostDataWrite (lo : Word) (hi : Option Word)
  | closeStream
  | hostLoadTimeout
  | flashRead
  | flashProgram
  | flashErase64k
  | flashVerifyA
  | flashVerifyB
  | flashCmdDone (failed : Bool)
  | flashBusyTimeout
  -- JTAG (R168, R169, R44)
  | jtagIdcode
  | jtagSamplePreload (shifted : Option (BitVec 3072))
  | jtagExtest (shifted : Option (BitVec 3072))
  | jtagClamp
  | jtagHighz
  | iscEnable
  | iscDisable
  | iscNoop
  | iscProgram (w : Word)
  | jtagLoadStatus
  | jtagBypass (opcode : BitVec 8)
  | tapReset (trstLow : Bool)
  -- tide, repair and release (R181 to R200, R8)
  | tideSlot
  | tideBurst
  | repairStart
  | goldenFrameRead (failed : Bool)
  | repairAnswerTimeout
  | recheckComplete
  | islandReleaseDone (i : IslandId)
  | checkWordReadback (index : Nat)
  | checkWordReady
  | rcFieldRead (who : Requester) (addr : Nat)
  -- banks (R219, R220)
  | vccoSample (b : IslandId) (cls : Fin 7)
  | bankEnableRetry (b : IslandId)
  -- host link and functions (R246 to R260)
  | perstAsserted
  | perstRelease
  | linkUp (width : Fin 4)
  | hotReset (disabled : Bool)
  | linkDown
  | flr (t : TenantId)
  | flrDone (t : TenantId)
  | d3hotEntry (t : TenantId)
  | d0Entry (t : TenantId)
  | pmeTurnOff
  | l1Entry
  | ltrMessage
  -- windows and registers (R235 to R244)
  | windowRequest (t : TenantId) (n : WindowId) (v : Word)
  | windowCheckDone (t : TenantId) (n : WindowId)
  | windowInvalidate (t : TenantId) (n : WindowId)
  | windowInvalidDone (t : TenantId) (n : WindowId)
  | windowAccess (t : TenantId) (write : Bool) (off len : Nat) (data : List Byte)
  | registerWrite (t : TenantId) (config : Bool) (off len : Nat) (data : List Byte)
  | busMasterEnableWrite (t : TenantId) (v : Bool)
  -- DMA, translation and interrupts (R261 to R284)
  | dmaChunkIssue (r : RingId) (parity testFail : Bool)
  -- a read's tag: 1,024 × function + the tag on the link
  | dmaCompletion (tag : Nat) (status : CplStatus) (data : List Byte)
  | dmaCompletionTimeout (tag : Nat)
  | dmaRateWindow
  | translationCompletion (id : Nat) (ok : Bool) (page size : Nat) (r w : Bool)
  | invalidateRequest (t : TenantId) (addr itag : Nat)
  | invalidateReadWaitEnd (t : TenantId) (itag : Nat)
  | invalidationCompletion (t : TenantId) (itag : Nat)
  | atsEnableClear (t : TenantId)
  | vectorUnblock (t : TenantId) (v : VectorId)
  | dmaBytesLoRead (t : TenantId) (writes : Bool) (len : Nat)
  -- rings (R286 to R316)
  | ringEnable (r : RingId) (v : Word)
  | ringDisable (r : RingId) (v : Word)
  | ringFlush (r : RingId) (v : Word)
  | flushDone (r : RingId)
  | doorbell (r : RingId) (v : Word)
  | programDoorbell (r : RingId) (v : Word)
  | ringHeadWrite (r : RingId) (v : Word)
  | issueTimeout (r : RingId)
  | ringWmWrite (r : RingId) (v : Word)
  | wmArm (r : RingId) (v : Word)
  | clrCount (r : RingId) (v : Word)
  -- Ovdor (R317 to R383): the ring whose thread runs the instruction
  | pairGrant (p : PairId)
  | reservedOpcode (r : RingId)
  | ovNop (r : RingId)
  | ovFence (r : RingId)
  | ovJump (r : RingId)
  | ovBranch (r : RingId)
  | ovLoop (r : RingId)
  | ovCall (r : RingId)
  | ovRet (r : RingId)
  | waitTime (r : RingId)
  | waitTimeEnd (r : RingId)
  | waitEvent (r : RingId)
  | waitEventEnd (r : RingId)
  | waitEventTimeout (r : RingId)
  | ovHalt (r : RingId)
  | loadImm (r : RingId)
  | ovAdd (r : RingId)
  | ovSub (r : RingId)
  | ovAnd (r : RingId)
  | ovOr (r : RingId)
  | ovXor (r : RingId)
  | ovShift (r : RingId)
  | ovCmp (r : RingId)
  | rdDia (r : RingId)
  | wrDia (r : RingId)
  | rdFab (r : RingId)
  | wrFab (r : RingId)
  | copyIn (r : RingId)
  | copyOut (r : RingId)
  | ovMove (r : RingId)
  | islandSeal (r : RingId)
  | frameBegin (r : RingId)
  | frameLoad (r : RingId)
  | frameRead (r : RingId)
  | islandRelease (r : RingId)
  | ovCapture (r : RingId)
  | portXmit (r : RingId)
  | portArm (r : RingId)
  | partnerPoll (r : RingId)
  | ovStamp (r : RingId)
  | leaveReq (r : RingId)
  | leaveRel (r : RingId)
  | ovEmit (r : RingId)
  | ovSignal (r : RingId)
  | logMark (r : RingId)
  -- pairs and charters (R388 to R397)
  | pairFailure (p : PairId) (cause : Fin 16)
  | pairNoResult (p : PairId)
  | charterWrite (off : Nat) (v : Word)
  | charterEffect
  -- harbour ports and partners (R410 to R476)
  | portFrameEnd (p : PortId) (f : WireFrame)
  | portFrameReceived (p : PortId)
  | i3cIbi (p : PortId) (da : Nat) (mdb : Byte) (data : List Byte) (stamp : Nat)
  | portTxOutcome (p : PortId) (o : WireOutcome)
  | canRecovered (p : PortId)
  | canRecover (p : PortId)
  | canTxTimeout (p : PortId)
  | portArmTrigger (i : PartnerId)
  | sentSpcPulse (i : PartnerId)
  | sentNoResponse (p : PortId)
  | psi5Sync (p : PortId)
  | spiPeriodicTransfer (i : PartnerId) (late : Bool)
  | i3cStartSequence (p : PortId) (scan : I3cScan)
  | redoDaa (p : PortId)
  | portRetire (p : PortId) (cause : Fin 4)
  | portRunWrite (p : PortId) (run : Bool)
  | partnerValidate (who : Requester) (i : PartnerId) (v : Word)
  | partnerInvalidate (who : Requester) (i : PartnerId) (v : Word)
  | clrTally (who : Requester) (i : PartnerId) (v : Word)
  | tallyLoRead (who : Requester) (i : PartnerId) (rejected : Bool)
  -- timebase (R426 to R431)
  | tbRefLost (frequency : Bool)
  | tbRefLocked
  | tbAddendWrite (v : Word)
  | tbStepCmd
  | tbSetCmd
  | ppsSecond
  | ppsOutPulseEnd
  | ppsInEdge (stamp : Nat)
  | tbNowLoRead (who : Requester)
  | tbTodSecLoRead (who : Requester)
  | tbPpsInLoRead (who : Requester)
  -- power leave (R477 to R491)
  | leaveRequest
  | leaveRequestTimeout (who : Asker)
  | leaseTransientEnd (handle : Nat)
  | leaseEnd (handle : Nat)
  | wakeLeaseRelease
  | leaveBudgetWrite (v : Word)
  | leaveFloorWrite (v : Word)
  | currentSample (units : Nat)
  | thermalSample (sensors : List Int)
  -- logbook and fault status (R501 to R509)
  | logSearch (t : TenantId) (v : Word)
  | logSearchDone (t : TenantId)
  | logAckWrite (v : Word)
  | faultStatusWrite (v : Word)
  -- test unit (R516 to R524)
  | queuePressure (v : Word)
  | queuePressureEnd
  | doorbellDelayEnd (r : RingId)
  | dmaStretchEnd (tag : Nat)
  | checkWordInject (v : Word)
  | pairFaultArm (v : Word)
  | leaveDelayEnd (who : Asker)
  | tbSlowWrite (v : Word)
  -- rows of the table's end (R255, R228, R182, R97, R430)
  | l1Exit
  | linkRetrain (speed width : Fin 4)
  | globalLineRestart (l : LineId)
  | lineInactive (l : LineId)
  | ppsOutRise
  deriving DecidableEq, Repr

end Sys2Proof
end

