-- ==== Sys2Proof/Machine/State.lean ====
section
/-! DEFINITION. The state of the block, its stop reasons, and the state after power-on reset.
Sparse tables list only what differs from the value after reset. -/

namespace Sys2Proof.Machine

structure State where
  /-- commands that wait, first in, first out -/
  pending : List Instr := []
  /-- what the block has put out, latest last (the model's own record of X2, X4, the chain and
  the port pins) -/
  out : List OutMsg := []
  /-- the model's own counter of free values drawn -/
  freeCounter : Nat := 0
  /-- nanoseconds of core time since the first power-on reset -/
  coreNs : Nat := 0
  mode : ModeUnit := {}
  islands : Tab Isl := []
  /-- stored frames by dense index (R107) -/
  frames : Tab Frame := []
  clocks : Clocks := {}
  ldr : Loader := {}
  flash : Flash := {}
  chain : Chain := {}
  jtag : Jtag := {}
  tide : Tide := {}
  banks : Tab Bank := []
  /-- accesses to the DIA that wait behind an earlier one of their requester, oldest first (R16) -/
  behind : List DiaRequest := []
  link : Link := {}
  /-- functions by tenant -/
  fns : Tab Fn := []
  /-- windows by 64 × tenant + number -/
  wins : Tab Win := []
  /-- MSI-X entries by 64 × function + vector -/
  msix : Tab Msix := []
  tens : Tab Ten := []
  dma : Dma := {}
  rings : Tab Ring := []
  threads : Tab Thread := []
  ferry : Ferry := {}
  charter : Charter := {}
  ports : Tab Port := []
  partners : Tab Partner := []
  /-- harbour buffer, 8,388,608 bytes (R13) -/
  harbour : List (Nat × Byte) := []
  /-- 64-bit words of the harbour buffer that hold an uncorrectable error (R425) -/
  harbourBad : List Nat := []
  /-- errors counted (R414) -/
  bufCorrected : Nat := 0
  bufUncorrectable : Nat := 0
  /-- words of the harbour buffer with a single-bit error, by address / 8 (R425) -/
  harbourSoft : List Nat := []
  /-- words of the partner table, 16 × entry + word, with an uncorrectable error (R354) -/
  partnerBad : List Nat := []
  /-- Ovdor program memory, 524,288 bytes (R327) -/
  progMem : List (Nat × Byte) := []
  /-- its words with an uncorrectable error (R330) -/
  progBad : List Nat := []
  /-- high halves latched by requester and tally (R418) -/
  tallyLatch : Tab Nat := []
  tb : Timebase := {}
  leave : Leave := {}
  log : Log := {}
  ptu : Ptu := {}
  ptuHeld : PtuHeld := {}
  deriving DecidableEq, Repr

/-- The reasons a step can stop with a fault: none of the block's steps does. The one
constructor names a state outside the rules; no meaning raises it (safe). -/
inductive Fault where
  /-- Raised by no step: kept because the outcome type names a fault type. Safe. -/
  | unreachable
  deriving DecidableEq, Repr

/-- The reasons a step can be refused. -/
inductive Refusal where
  /-- Raised by an arm of `exec` whose command has no meaning yet, by the command's name. Safe:
  nothing is claimed of it. -/
  | notModelled (mnemonic : String)
  deriving DecidableEq, Repr

/-- The block right after a power-on reset has begun (R50, R224): every field at its reset
value, transition T1 in progress. -/
def State.reset : State := {}

end Sys2Proof.Machine
end

