-- ==== Sys2Proof/Machine/Access.lean ====
section
/-! DEFINITION. Reading and changing the parts of the state: one home for each table, the frame
address computation, ownership, and the predicates on modes and seals that every family uses. -/

namespace Sys2Proof

/-- The modes in which ferries execute (R37). -/
def Mode.executes : Mode → Bool
  | .run | .degraded | .service | .test => true
  | _ => false

/-- SERVICE, and TEST, which behaves as SERVICE (R37). -/
def Mode.serviceLike : Mode → Bool
  | .service | .test => true
  | _ => false

end Sys2Proof

namespace Sys2Proof.Machine

/-! ## Frame addresses (R20, R106) -/

/-- Dense index of a frame address, none where no frame sits. -/
def denseOf (faddr : Nat) : Option Nat :=
  let region := field faddr 10 6
  let column := field faddr 5 5
  let minor := field faddr 0 5
  if region ≤ 47 then
    if column ≤ 15 then if minor ≤ 7 then some (region * 168 + column * 8 + minor) else none
    else if column = 16 then some (region * 168 + 128 + minor)
    else if column = 17 ∧ minor ≤ 7 then some (region * 168 + 160 + minor)
    else none
  else if region = 62 then
    if column ≤ 7 ∧ minor ≤ 11 then some (8064 + column * 12 + minor) else none
  else if region = 63 ∧ column = 0 then some (8160 + minor)
  else none

/-- Frame address of a dense index. -/
def faddrOf (n : Nat) : Nat :=
  if n < 8064 then
    let i := n / 168
    let k := n % 168
    if k < 128 then i * 1024 + k / 8 * 32 + k % 8
    else if k < 160 then i * 1024 + 16 * 32 + (k - 128)
    else i * 1024 + 17 * 32 + (k - 160)
  else if n < 8160 then 62 * 1024 + (n - 8064) / 12 * 32 + (n - 8064) % 12
  else 63 * 1024 + (n - 8160)

/-- The island of a frame by dense index, none outside islands. -/
def frameIsland (n : Nat) : Option Nat := if n < 8064 then some (n / 168) else none

/-- A frame after clearing (R109): zero data, its own address in the check word. -/
def clearedFrame (n : Nat) : Frame := { check := checkWord (faddrOf n) 0 }

/-- Reset values of the charter registers by offset / 4: the weights hold 16 (R395). -/
def charterReset (k : Nat) : Nat := if 64 ≤ k ∧ k < 96 ∧ k % 4 = 0 then 16 else 0

/-! ## Tables -/

def State.isl (s : State) (i : Nat) : Isl := tabGet (fun _ => {}) s.islands i
def State.modIsl (s : State) (i : Nat) (f : Isl → Isl) : State :=
  { s with islands := tabMod (fun _ => {}) s.islands i f }

def State.frame (s : State) (n : Nat) : Frame := tabGet clearedFrame s.frames n
def State.setFrame (s : State) (n : Nat) (f : Frame) : State :=
  { s with frames := tabSet clearedFrame s.frames n f }

def State.bank (s : State) (b : Nat) : Bank := tabGet (fun _ => {}) s.banks b
def State.modBank (s : State) (b : Nat) (f : Bank → Bank) : State :=
  { s with banks := tabMod (fun _ => {}) s.banks b f }

def State.fn (s : State) (t : Nat) : Fn := tabGet (fun _ => {}) s.fns t
def State.modFn (s : State) (t : Nat) (f : Fn → Fn) : State :=
  { s with fns := tabMod (fun _ => {}) s.fns t f }

def State.win (s : State) (t n : Nat) : Win := tabGet (fun _ => {}) s.wins (64 * t + n)
def State.modWin (s : State) (t n : Nat) (f : Win → Win) : State :=
  { s with wins := tabMod (fun _ => {}) s.wins (64 * t + n) f }

def State.msx (s : State) (t v : Nat) : Msix := tabGet (fun _ => {}) s.msix (64 * t + v)
def State.modMsx (s : State) (t v : Nat) (f : Msix → Msix) : State :=
  { s with msix := tabMod (fun _ => {}) s.msix (64 * t + v) f }

def State.ten (s : State) (t : Nat) : Ten := tabGet (fun _ => {}) s.tens t
def State.modTen (s : State) (t : Nat) (f : Ten → Ten) : State :=
  { s with tens := tabMod (fun _ => {}) s.tens t f }

def State.ring (s : State) (r : Nat) : Ring := tabGet (fun _ => {}) s.rings r
def State.modRing (s : State) (r : Nat) (f : Ring → Ring) : State :=
  { s with rings := tabMod (fun _ => {}) s.rings r f }

def State.thr (s : State) (r : Nat) : Thread := tabGet (fun _ => {}) s.threads r
def State.modThr (s : State) (r : Nat) (f : Thread → Thread) : State :=
  { s with threads := tabMod (fun _ => {}) s.threads r f }

def State.pair (s : State) (p : Nat) : Pair := tabGet (fun _ => {}) s.ferry.pairs p
def State.modPair (s : State) (p : Nat) (f : Pair → Pair) : State :=
  { s with ferry := { s.ferry with pairs := tabMod (fun _ => {}) s.ferry.pairs p f } }

def State.port (s : State) (p : Nat) : Port := tabGet (fun _ => {}) s.ports p
def State.modPort (s : State) (p : Nat) (f : Port → Port) : State :=
  { s with ports := tabMod (fun _ => {}) s.ports p f }

def State.partner (s : State) (i : Nat) : Partner := tabGet (fun _ => {}) s.partners i
def State.modPartner (s : State) (i : Nat) (f : Partner → Partner) : State :=
  { s with partners := tabMod (fun _ => {}) s.partners i f }

def State.view (s : State) (t : Nat) : LogView := tabGet (fun _ => {}) s.log.views t
def State.modView (s : State) (t : Nat) (f : LogView → LogView) : State :=
  { s with log := { s.log with views := tabMod (fun _ => {}) s.log.views t f } }

def State.modMode (s : State) (f : ModeUnit → ModeUnit) : State := { s with mode := f s.mode }
def State.modLdr (s : State) (f : Loader → Loader) : State := { s with ldr := f s.ldr }
def State.modFlash (s : State) (f : Flash → Flash) : State := { s with flash := f s.flash }
def State.modChain (s : State) (f : Chain → Chain) : State := { s with chain := f s.chain }
def State.modJtag (s : State) (f : Jtag → Jtag) : State := { s with jtag := f s.jtag }
def State.modTide (s : State) (f : Tide → Tide) : State := { s with tide := f s.tide }
def State.modClocks (s : State) (f : Clocks → Clocks) : State := { s with clocks := f s.clocks }
def State.modLink (s : State) (f : Link → Link) : State := { s with link := f s.link }
def State.modDma (s : State) (f : Dma → Dma) : State := { s with dma := f s.dma }
def State.modFerry (s : State) (f : Ferry → Ferry) : State := { s with ferry := f s.ferry }
def State.modCharter (s : State) (f : Charter → Charter) : State := { s with charter := f s.charter }
def State.modTb (s : State) (f : Timebase → Timebase) : State := { s with tb := f s.tb }
def State.modLeave (s : State) (f : Leave → Leave) : State := { s with leave := f s.leave }
def State.modLog (s : State) (f : Log → Log) : State := { s with log := f s.log }
def State.modPtu (s : State) (f : Ptu → Ptu) : State := { s with ptu := f s.ptu }
def State.modHeld (s : State) (f : PtuHeld → PtuHeld) : State := { s with ptuHeld := f s.ptuHeld }

/-- The same change of every number below n, one after the other. -/
def overAll (n : Nat) (f : Nat → State → State) (s : State) : State :=
  (List.range n).foldl (fun s k => f k s) s

/-- The same change for every thing of a list, one after the other. -/
def overList {α : Type} (l : List α) (f : α → State → State) (s : State) : State :=
  l.foldl (fun s x => f x s) s

/-! ## Charters (R394, R395) -/

/-- A charter register in effect, and as read, by offset / 4. -/
def State.charterEff (s : State) (k : Nat) : Nat := tabGet charterReset s.charter.eff k
def State.charterShown (s : State) (k : Nat) : Nat := tabGet charterReset s.charter.shown k

/-- The owner that an owner table names: the table's first register / 4, the unit's number. -/
def State.ownerAt (s : State) (table u : Nat) : Option Nat :=
  let v := field (s.charterEff (table + u / 8)) (4 * (u % 8)) 4
  if 8 ≤ v then some (v - 8) else none

def State.islandOwner (s : State) (i : Nat) : Option Nat := s.ownerAt 0 i
def State.portOwner (s : State) (p : Nat) : Option Nat := s.ownerAt 8 p
def State.segOwner (s : State) (k : Nat) : Option Nat := s.ownerAt 32 k
def State.pageOwner (s : State) (k : Nat) : Option Nat := s.ownerAt 48 k
def State.partnerOwner (s : State) (i : Nat) : Option Nat := s.ownerAt 1024 i

/-- Whether a tenant passes an ownership check: tenant 0 passes every one (R393). -/
def ownedBy (o : Option Nat) (t : Nat) : Bool := t == 0 || o == some t

/-- WEIGHT and FLR_SEAL of a tenant (R395). -/
def State.weight (s : State) (t : Nat) : Nat := field (s.charterEff (64 + 4 * t)) 0 8
def State.flrSeal (s : State) (t : Nat) : Bool := bitAt (s.charterEff (64 + 4 * t)) 8

/-! ## Rings and tenants (R10) -/

def ringTenant (r : Nat) : Nat := r / 4
def ringLocal (r : Nat) : Nat := r % 4

/-- The tenant of a requester, tenant 0 for the keeper. -/
def reqTenant : Requester → Nat
  | .keeper => 0
  | .ring r => ringTenant r
  | .window t => t
  | .dma r => ringTenant r

/-- The number of a requester: each ring's thread, each function's windows and the keeper are one, with one
latch for each of the registers that have one (R16, R418). -/
def reqLatch : Requester → Nat
  | .ring r | .dma r => r
  | .window t => 32 + t
  | .keeper => 40

/-! ## Modes (R29, R37) -/

def State.inRun (s : State) : Bool := s.mode.mode == .run || s.mode.mode == .degraded

/-- A transition into HOLD is in progress. -/
def State.entersHold (s : State) : Bool := s.mode.trans.any (fun t => t.target == .hold)

/-- Ferries execute. -/
def State.executing (s : State) : Bool := s.mode.mode.executes && !s.entersHold

/-! ## Seals (R170) -/

def Isl.reason (x : Isl) : Reason → Bool
  | .command => x.command
  | .load => x.load
  | .quarantine => x.quarantine
  | .flr => x.flr
  | .hold => x.hold

/-- An island is sealed while any reason holds (R170). -/
def Isl.sealed (x : Isl) : Bool := x.command || x.load || x.quarantine || x.flr || x.hold

/-- A sealed island presents the sealed state, but for one whose release has left it at an unfreeze: the island
then counts as sealed and keeps its registers in reset alone (R41, R171, R182). -/
def Isl.shut (x : Isl) : Bool := x.sealed && !x.release.any Release.left

def Isl.addReason (x : Isl) : Reason → Isl
  | .command => { x with command := true }
  | .load => { x with load := true }
  | .quarantine => { x with quarantine := true }
  | .flr => { x with flr := true }
  | .hold => { x with hold := true }

/-- At least one island quarantined (R45). -/
def State.anyQuarantine (s : State) : Bool := s.islands.any (fun e => e.2.quarantined)

/-- At least one pair, port or ATC way retired (R29, R45). -/
def State.unitRetired (s : State) : Bool :=
  s.ferry.pairs.any (fun e => e.2.retired) || s.ports.any (fun e => e.2.retired) ||
    s.dma.atcRetired != 0

/-- Pairs in service (R403). -/
def State.pairsInService (s : State) : Nat := 8 - (s.ferry.pairs.filter (fun e => e.2.retired)).length

/-! ## Queue pressure (R27) -/

/-- The test unit forces a crossing's queue to report full (R520). -/
def State.forcedFull (s : State) (n : Nat) : Bool :=
  s.mode.mode == .test && s.ptu.qQueue == n && s.ptu.qCycles != 0 && !s.ptu.qRefused

/-- A queue of a crossing that a port has holds its depth. -/
def State.portQueueFull (s : State) (full : Port → Bool) : Bool := (List.range 96).any (fun p => full (s.port p))

/-- A crossing's queue has reported full: PTU_QFULL_SEEN, which reads in TEST only (R515). -/
def State.noteFull (s : State) (n : Nat) : State :=
  if s.mode.mode = .test then { s with ptu := { s.ptu with qSeen := s.ptu.qSeen ||| 2 ^ n } } else s

/-- X17 holds its 8 words (R24). -/
def State.x17Full (s : State) : Bool := decide (8 ≤ s.jtag.x17.length)

/-- Granules of X18 that a frame takes. -/
def granules (len : Nat) : Nat := max 1 ((len + 31) / 32)

/-- The granules of X18 in use. -/
def Port.x18 (x : Port) : Nat := (x.rxq.map (fun f => granules f.payload.length)).sum

/-- X18 holds its 64 frames, or its 2 KiB (R24). -/
def Port.x18Full (x : Port) : Bool := decide (64 ≤ x.rxq.length) || decide (64 ≤ x.x18)

/-- Bytes after the frame being sent: X19. -/
def Port.x19 (x : Port) : Nat := ((x.txq.drop 1).map (fun f => f.bytes.length)).sum

/-- X19 holds its 1 KiB (R24). -/
def Port.x19Full (x : Port) : Bool := decide (1024 ≤ x.x19)

/-- A queue reports full now, forced or not (R515): of those whose filling the model holds, X17 to X19. -/
def State.queueFull (s : State) (n : Nat) : Bool :=
  s.forcedFull n || (n == 17 && s.x17Full) || (n == 18 && s.portQueueFull Port.x18Full) ||
    (n == 19 && s.portQueueFull Port.x19Full)

/-- PTU_QFULL_SEEN as its bits are cleared: a queue that still reports full has reported full since (R515). -/
def State.qSeenAfter (s : State) (kept : Nat) : Nat := maskOf 25 (fun n => bitAt kept n || s.queueFull n)

/-- X17's queue as a word enters or leaves it: one that it fills has reported full (R515). -/
def State.setX17 (s : State) (ws : List Word) : State :=
  let s := s.modJtag (fun j => { j with x17 := ws })
  if s.x17Full then s.noteFull 17 else s

/-! ## Time (R22, R24, R426) -/

/-- Device time as 64-bit nanoseconds (R426). -/
def time64 (sec nsec : Nat) : Nat := (sec * 1000000000 + nsec) % 2 ^ 64

/-- The shadow of X22: 64-bit nanoseconds and step epoch (R24). -/
def State.shadow (s : State) : Nat := time64 s.tb.shSec s.tb.shNsec
def State.shadowEpoch (s : State) : Nat := s.tb.shEpoch

/-- A free value's number, and the state after it is drawn. -/
def State.draw (s : State) : Nat × State := (s.freeCounter, { s with freeCounter := s.freeCounter + 1 })

/-! ## Lock bits (R162) -/

/-- The lock bits (R162). -/
inductive Lock where
  | jtagIspOff | hostLoadOff | flashWriteLock | charterLock | testLock | benchLock | windowFrameOff
  deriving DecidableEq, Repr

/-- Their bit numbers. -/
def lockBit : Lock → Nat
  | .jtagIspOff => 0 | .hostLoadOff => 1 | .flashWriteLock => 2 | .charterLock => 3
  | .testLock => 4 | .benchLock => 5 | .windowFrameOff => 6

def State.locked (s : State) (l : Lock) : Bool := s.ldr.locks.getLsbD (lockBit l)

end Sys2Proof.Machine
end

