-- ==== Sys2Proof/Machine/Ops.lean ====
section
/-! DEFINITION. The operations every family shares: what leaves the block, MSI-X events, the
logbook, tenant faults, SUP_FAULT_STATUS and FAULT_N, and the end of a step. -/

namespace Sys2Proof.Machine

/-- What goes out over the host link. -/
def OutMsg.onLink : OutMsg → Bool
  | .chain _ _ | .portTx _ _ | .pulse _ _ _ => false
  | _ => true

/-- Something the block puts out; a link in L1 leaves it for that (R255). -/
def State.emit (s : State) (m : OutMsg) : State :=
  { s with out := s.out ++ [m], link := { s.link with l1 := s.link.l1 && !m.onLink } }

/-- Packets cross the link: it is up and not in L2/L3 Ready, which only PERST# ends (R256). -/
def State.linkOpen (s : State) : Bool := s.link.up && !s.link.l2

/-- A completion of a read by the host, over a link that carries packets (R256); it waits while X4 takes none
(R24, R27). -/
def State.complete (s : State) (m : OutMsg) : State :=
  if !s.linkOpen then s
  else if s.forcedFull 4 then s.modLink (fun l => { l with cpls := l.cpls ++ [m] })
  else s.emit m

/-- The completions that wait for X4 go out once it takes them. -/
def State.cplsResume (s : State) : State :=
  if s.forcedFull 4 then s
  else overList s.link.cpls (fun m s => s.complete m) (s.modLink (fun l => { l with cpls := [] }))

/-- The completion of a read by the host waits: X4 reports full, or the link is in L2/L3 Ready (R24, R27,
R256). -/
def State.cplWaits (s : State) : Bool := s.forcedFull 4 || s.link.l2

/-! ## Requests of the DMA engine (R267) -/

/-- The rate cap lets a request out (R267). -/
def State.rateAllows (s : State) : Bool := s.dma.rate == .held || decide (s.dma.winBytes < 8000)

/-- Payload bytes that pass the DMA engine are metered (R267). -/
def State.meter (s : State) (n : Nat) : State := s.modDma (fun d => { d with winBytes := d.winBytes + n })

/-- The cap has held a request back (R284). -/
def State.noteCap (s : State) : State :=
  if s.rateAllows then s else s.modDma (fun d => { d with delayed := true })

/-- X1 holds the host's requests back: it reports full, or an Invalidate Request stands in it, which withholds
the credits of what comes after (R24, R27, R274). -/
def State.x1Holds (s : State) : Bool :=
  s.forcedFull 1 || (s.mode.mode != .reset && s.dma.invs.any (fun q => q.inX1))

/-- The host's requests reach the device: the link is up and not in L2/L3 Ready, and X1 takes them (R24, R27,
R256, R274). One that does not stays with the host. -/
def State.hostSends (s : State) : Bool := s.linkOpen && !s.x1Holds

/-! ## MSI-X (R281) -/

/-- A vector is blocked while its Mask or the Function Mask is set, while Bus Master Enable is
clear, in D3hot (R281), or while an FLR of its function runs (R251). -/
def State.vecBlocked (s : State) (t v : Nat) : Bool :=
  (s.msx t v).mask || (s.fn t).fmask || !(s.fn t).bme || (s.fn t).d3hot ||
    (s.fn t).flr.isSome

/-- Every message waits for X2, in the order of the events: it reports full, the rate cap holds, or the link is
in L2/L3 Ready (R27, R256, R267). -/
def State.msixWaits (s : State) : Bool := s.forcedFull 2 || !s.rateAllows || s.link.l2

/-- The message of a vector, with the address and data its entry holds now (R281). -/
def State.sendVector (s : State) (t v : Nat) : State :=
  (s.meter 4).emit (.msix t v (s.msx t v).addr (s.msx t v).data)

/-- An event for vector v of function t (R281). In RESET the DMA engine sends nothing and no
pending bit is set (R37, R280). -/
def State.raise (s : State) (t v : Nat) : State :=
  if s.mode.mode = .reset then s
  else if (s.fn t).msixEn then
    if s.vecBlocked t v || (s.msx t v).pend then s.modMsx t v (fun m => { m with pend := true })
    else if s.msixWaits then (s.modDma (fun d => { d with msgs := d.msgs ++ [(t, v)] })).noteCap
    else s.sendVector t v
  else s

/-- An event for vector v of every function whose MSI-X is enabled. -/
def State.raiseAll (s : State) (v : Nat) : State := overAll 8 (fun t s => s.raise t v) s

/-- The messages of the pending vectors of a function that are no longer blocked, in ascending
vector order (R281). -/
def State.sendPending (s : State) (t : Nat) : State :=
  overAll 64 (fun v s =>
    if (s.fn t).msixEn && (s.msx t v).pend && !s.vecBlocked t v && !s.msixWaits then
      (s.modMsx t v (fun m => { m with pend := false })).sendVector t v
    else s) s

/-- A message that has waited for X2: no message is withdrawn, so one whose vector has been blocked, or whose
MSI-X Enable has been cleared, meanwhile stays in its pending bit (R281, R282). -/
def State.sendWaited (s : State) (t v : Nat) : State :=
  if s.msixWaits then s.modDma (fun d => { d with msgs := d.msgs ++ [(t, v)] })
  else if !(s.fn t).msixEn || s.vecBlocked t v || (s.msx t v).pend then
    s.modMsx t v (fun m => { m with pend := true })
  else s.sendVector t v

/-- The messages that wait go out in their order, as far as messages may. -/
def State.sendQueued (s : State) : State :=
  overList s.dma.msgs (fun q s => s.sendWaited q.1 q.2) (s.modDma (fun d => { d with msgs := [] }))

/-- What held every message has ended: those that wait go out, then those of the pending bits. -/
def State.sendAllPending (s : State) : State := overAll 8 (fun t s => s.sendPending t) s.sendQueued

/-! ## Events (R492 to R506) -/

/-- Payload bytes from fields of (length, value), filled up with zeros to 12. -/
def payload (fields : List (Nat × Nat)) : List Byte :=
  ((fields.flatMap (fun (p : Nat × Nat) => leBytes p.1 p.2)) ++ List.replicate 12 0).take 12

/-- TENANT codes of the scopes G and S (R505). -/
def scopeG : Nat := 0xFF
def scopeS : Nat := 0xFE

/-- Scope O: the owner of a unit, 0xFE when it is unassigned (R505). -/
def scopeO (o : Option Nat) : Nat := o.getD 0xFE

/-- An event arises in this step; it is written at the step's end (R493). -/
def State.event (s : State) (code sev tenant : Nat) (fields : List (Nat × Nat)) : State :=
  let e : Event := { code := code, sev := sev, tenant := tenant, payload := payload fields }
  s.modLog (fun l => { l with staged := l.staged ++ [e] })

/-- Unacknowledged entries (R496, R504). -/
def Log.unack (l : Log) : Nat := min 4096 (dist32 l.next l.ack)

/-- An entry's SOURCE byte (R492). -/
def sourceByte (code sev : Nat) : Nat := field code 8 6 + 64 * sev

/-- Whether an entry can take an event as a repeat (R498). -/
def Log.coalesces (core : Nat) (e : Event) (x : LogEntry) : Bool :=
  x.code == e.code && x.sev == e.sev && x.tenant == e.tenant && x.payload == e.payload &&
    decide (core < x.born + 1000000)

/-- Slots of the most recent entries that an event coalesces into: the first such one. -/
def Log.repeatSlot (l : Log) (core : Nat) (e : Event) : Option Nat :=
  if e.sev ≤ 1 && e.code != 0x0101 && e.code != 0x0801 then
    l.recent.find? (fun k => match tabGet (fun _ => none) l.slots k with
      | some x => Log.coalesces core e x
      | none => false)
  else none

/-- An entry is visible to a tenant (R499). -/
def visibleTo (t tenant : Nat) : Bool := t == 0 || tenant == t || tenant == 0xFF

/-- Vector 5 for the functions that see a new entry and take its severity (R502). -/
def State.logNotice (s : State) (sev tenant : Nat) : State :=
  overAll 8 (fun t s =>
    if visibleTo t tenant && bitAt (s.view t).notify sev then s.raise t 5 else s) s

/-- SUP_FAULT_STATUS bit n begins (R509). -/
def State.faultBit (s : State) (n : Nat) : State :=
  s.modLog (fun l => { l with faultStatus := l.faultStatus ||| BitVec.ofNat 12 (2 ^ n) })

/-- The logbook after an entry is written (R492, R493). -/
def Log.write (l : Log) (e : Event) (time epoch born : Nat) : Log :=
  let slot := l.next % 4096
  let x : LogEntry :=
    { time := time, seq := l.next, code := e.code, sev := e.sev, tenant := e.tenant,
      payload := e.payload, epoch := epoch, born := born }
  { l with
    slots := tabSet (fun _ => none) l.slots slot (some x)
    recent := (slot :: l.recent.filter (· != slot)).take 8
    next := (l.next + 1) % 2 ^ 32
    kept := min 4096 (l.kept + 1)
    overflow := if l.unack = 4096 then satInc32 l.overflow else l.overflow }

/-- Under STOP an entry that leaves no room is a fault cause (R496, R509). -/
def State.noteLogFull (s : State) : State :=
  if s.log.policy && s.log.unack = 4096 then (s.faultBit 11).raise 0 5 else s

/-- One entry written, whatever the policy. -/
def State.logEntry (s : State) (e : Event) : State :=
  let at_ := e.time.getD (s.shadow, s.shadowEpoch)
  ((s.modLog (fun l => l.write e at_.1 at_.2 s.coreNs)).logNotice e.sev e.tenant).noteLogFull

/-- An event that the policy leaves unrecorded (R496). -/
def State.logLose (s : State) : State :=
  s.modLog (fun l => { l with overflow := satInc32 l.overflow, lost := satInc32 l.lost })

/-- The logbook has no room under STOP (R496). -/
def Log.full (l : Log) : Bool := l.policy && l.unack = 4096

/-- LOG_RESUMED before the first entry written after events went unrecorded (R496). -/
def State.reportLost (s : State) : State :=
  if s.log.lost = 0 then s
  else
    let e : Event :=
      { code := 0x0801, sev := 1, tenant := scopeS, payload := payload [(4, s.log.lost)] }
    (s.logEntry e).modLog (fun l => { l with lost := 0 })

/-- An entry, where the logbook has room for it. -/
def State.logRoom (s : State) (e : Event) : State := if s.log.full then s.logLose else s.logEntry e

/-- An entry counts one more occurrence (R498). -/
def LogEntry.repeated (x : LogEntry) : LogEntry := { x with repeats := min 65535 (x.repeats + 1) }

/-- One event under coalescing and the policy (R496, R498). -/
def State.logOne (s : State) (e : Event) : State :=
  match s.log.repeatSlot s.coreNs e with
  | some k =>
    s.modLog (fun l => { l with slots := tabMod (fun _ => none) l.slots k (Option.map LogEntry.repeated) })
  | none => if s.log.full then s.logLose else s.reportLost.logRoom e

/-- The events of the step, in ascending code order (R493); none in RESET (R495). -/
def State.flushLog (s : State) : State :=
  let es := s.log.staged
  let s := s.modLog (fun l => { l with staged := [] })
  if s.mode.mode = .reset then s else (sortBy Event.code es).foldl State.logOne s

/-! ## Tenant faults (R401, R402) -/

/-- A cause of a TEN_FAULT bit: the bit, TEN_FAULT_LAST, then vector 4. -/
def State.tenFault (s : State) (t bit lring status : Nat) : State :=
  (s.modTen t (fun x => { x with
    fault := x.fault ||| 2 ^ bit, faultKind := bit, faultRing := lring, faultStatus := status })).raise t 4

/-- A fault of a unit: its owner's block, tenant 0's when it is unassigned (R401). -/
def State.unitFault (s : State) (owner : Option Nat) (bit : Nat) : State :=
  s.tenFault (owner.getD 0) bit 0 0

/-! ## FAULT_N (R42, R508) -/

/-- Enabled bits of SUP_FAULT_STATUS. -/
def State.faultRoutes (s : State) : Nat := (s.log.faultStatus &&& s.log.faultEn).toNat

/-- The level FAULT_N has: asserted. -/
def State.faultLevel (s : State) : Bool :=
  match s.mode.mode with
  | .reset | .load => false
  | .wake => s.mode.wakeFaultKept.getD false
  | .hold => true
  | .service | .test => s.mode.holdFault || s.faultRoutes != 0
  | .run | .degraded => s.faultRoutes != 0

/-- The HOLD rule governs the level. -/
def State.faultByHold (s : State) : Bool :=
  s.mode.mode == .hold || (s.mode.mode.serviceLike && s.mode.holdFault)

/-- FAULT_N brought to its level, each change logged (R508). -/
def State.settleFault (s : State) : State :=
  if s.faultLevel = s.mode.faultShown then s
  else (s.modMode (fun m => { m with faultShown := s.faultLevel })).event 0x0802 0 scopeG
    [(1, bnat s.faultLevel), (1, bnat s.faultByHold), (2, 0), (4, s.faultRoutes)]

/-- The end of a step: FAULT_N, then the step's events; and once more, since an entry that fills the
logbook under STOP is itself a fault cause (R509, bit 11). -/
def State.settle (s : State) : State := s.settleFault.flushLog.settleFault.flushLog

end Sys2Proof.Machine
end

