-- ==== Sys2Proof/Machine/DiaBase.lean ====
section
/-! DEFINITION. The device internal address space (R13): regions, ownership under a charter (R18,
R240), what a window needs, and windows refused (R244). -/

namespace Sys2Proof.Machine

/-! ## Regions (R13, R14) -/

inductive Region where
  | harbour | fabric | frames | partners | program | logbook | timebase | ports | supervisor
  | reserved
  deriving DecidableEq, Repr

/-- The region of a DIA address; addresses past 32 bits are reserved. -/
def regionOf (a : Nat) : Region :=
  let within := fun lo size => decide (lo ≤ a ∧ a < lo + size)
  if within 0 0x800000 then .harbour
  else if within 0x1000000 0xC00000 then .fabric
  else if within 0x2000000 0x200000 then .frames
  else if within 0x3000000 0x40000 then .partners
  else if within 0x3100000 0x80000 then .program
  else if within 0x3200000 0x20000 then .logbook
  else if within 0x3300000 0x10000 then .timebase
  else if within 0x4000000 0x180000 then .ports
  else if within 0x8000000 0x40000 then .supervisor
  else .reserved

/-- The region of R13 that an address lies in: the range that R14 reserves is in the row of supervisor space
(R240). -/
def rowOf (a : Nat) : Region :=
  if 0x8040000 ≤ a ∧ a < 0x8100000 then .supervisor else regionOf a

/-- DIA address of an access at an island's user registers. -/
def FabAccess.dia (a : FabAccess) (i : Nat) : Nat := 0x1000000 + 0x40000 * i + 4 * a.addr

/-! ## Ownership -/

/-- The owner that an owner table of a charter view names. -/
def ownerIn (view : Nat → Nat) (table u : Nat) : Option Nat :=
  let v := field (view (table + u / 8)) (4 * (u % 8)) 4
  if 8 ≤ v then some (v - 8) else none

/-- The owner of the unit that a byte of a region belongs to. -/
def unitOwner (view : Nat → Nat) (a : Nat) : Option Nat :=
  match regionOf a with
  | .harbour => ownerIn view 32 (a / 0x10000)
  | .fabric => ownerIn view 0 ((a - 0x1000000) / 0x40000)
  | .frames => (frameIsland ((a - 0x2000000) / 256)).bind (ownerIn view 0)
  | .partners => ownerIn view 1024 ((a - 0x3000000) / 64)
  | .program => ownerIn view 48 ((a - 0x3100000) / 4096)
  | .ports => ownerIn view 8 ((a - 0x4000000) / 0x4000)
  | _ => none

/-- A byte passes the ownership part of R18 and R240 for a tenant. -/
def ownsByte (view : Nat → Nat) (t a : Nat) : Bool :=
  t == 0 || match rowOf a with
    | .logbook | .timebase | .reserved => true
    | .supervisor => false
    | _ => unitOwner view a == some t

/-! ## Who may (R13, R18, R21) -/

/-- A frame whose data a tenant may read: tenant 0 every one, another tenant those of its islands
while WINDOW_FRAME_OFF is clear. -/
def State.mayReadFrame (s : State) (t n : Nat) : Bool :=
  t == 0 || (!s.locked .windowFrameOff && (frameIsland n).any (fun i => s.islandOwner i == some t))

/-- The charter does not permit an access at an address that is not reserved (R18). -/
def State.denies (s : State) (t a : Nat) (write : Bool) : Bool :=
  match regionOf a with
  | .supervisor => t != 0
  | .logbook => write
  | .timebase => write && t != 0
  | .frames => write || !s.mayReadFrame t ((a - 0x2000000) / 256)
  | .reserved => false
  | .harbour | .fabric | .partners | .program | .ports => !ownsByte s.charterEff t a

/-- The keeper passes every check (R18). -/
def State.deniedTo (s : State) (who : Requester) (a : Nat) (write : Bool) : Bool :=
  match who with
  | .keeper => false
  | .ring _ | .window _ | .dma _ => s.denies (reqTenant who) a write

/-- A range lies whole in one of the two byte memories. -/
def inMemory (a len : Nat) : Bool :=
  decide (a + len ≤ 0x800000) || decide (0x3100000 ≤ a ∧ a + len ≤ 0x3180000)

/-- The first address of each unit, segment or page, that a range of a memory touches, and the unit
after. -/
def unitStarts (a len : Nat) : List Nat :=
  let step := if a < 0x800000 then 0x10000 else 0x1000
  (List.range ((a + (len - 1)) / step + 1 - a / step)).map (fun k => max a ((a / step + k) * step))

/-- Every unit that a range of a memory touches is the tenant's (R379). -/
def State.ownsRange (s : State) (t a len : Nat) : Bool :=
  len == 0 || (unitStarts a len).all (ownsByte s.charterEff t)

/-- PATH of ACCESS_RESERVED (R506). -/
def reqPath : Requester → Nat
  | .keeper => 2 | .window _ => 1 | .ring _ | .dma _ => 0

/-- ACCESS_RESERVED (R17). -/
def State.reservedAccess (s : State) (who : Requester) (a : Nat) : State :=
  match who with
  | .keeper => s.event 0x0110 1 scopeS [(4, lo32 a), (1, 0xFF), (1, 2)]
  | .ring _ | .window _ | .dma _ =>
    s.event 0x0110 1 (reqTenant who) [(4, lo32 a), (1, reqTenant who), (1, reqPath who)]

/-- ACCESS_DENIED (R18): a window has no ring and no opcode. -/
def State.deniedAccess (s : State) (who : Requester) (opcode a : Nat) : State :=
  let ring := match who with
    | .ring r | .dma r => r
    | .keeper | .window _ => 0xFF
  s.event 0x0111 1 (reqTenant who) [(4, lo32 a), (1, reqTenant who), (1, ring), (1, opcode)]

/-- What waits has been accepted under the charter and the locks as they are: its verdict is kept before they
change (R244). -/
def State.judgeBehind (s : State) : State :=
  { s with behind := s.behind.map (fun d =>
      { d with judged := some (d.judged.getD (s.deniedTo d.who d.addr d.write)) }) }

/-! ## Windows (R240, R244, R396) -/

/-- The pages of a window. -/
def Win.addrs (w : Win) : List Nat := (List.range w.pages).map (fun k => (w.base + k) * 4096)

/-- An address lies in the range of a window. -/
def Win.holds (w : Win) (a : Nat) : Bool := decide (w.base * 4096 ≤ a ∧ a < (w.base + w.pages) * 4096)

/-- An access accepted through a window of a tenant has not been served (R243): it is at an island's logic,
or waits behind one. -/
def State.windowPending (s : State) (t : Nat) (w : Win) : Bool :=
  s.behind.any (fun d => d.who == .window t && w.holds d.addr) ||
    s.islands.any (fun e => (e.2.ureg.busy.toList ++ e.2.ureg.waiting).any (fun a =>
      a.who == .window t && w.holds (a.dia e.1)))

/-- The region a window lies in. -/
def Win.region (w : Win) : Region := rowOf (w.base * 4096)

/-- Range k of a tenant's charter covers a window and its permissions (R396). -/
def rangeCovers (view : Nat → Nat) (t k : Nat) (w : Win) : Bool :=
  let b := view (128 + 16 * t + 2 * k)
  let l := view (129 + 16 * t + 2 * k)
  decide (field b 12 20 ≤ w.base ∧ w.base + w.pages ≤ field l 12 20 + 1) &&
    (!w.rd || bitAt b 0) && (!w.wr || bitAt b 1)

/-- A page's units are all the tenant's: a partner page needs all 64 entries, a page of frames all
16 frames. -/
def ownsPage (view : Nat → Nat) (t a : Nat) : Bool :=
  let step := match rowOf a with
    | .partners => 64
    | .frames => 256
    | _ => 4096
  (List.range (4096 / step)).all (fun j => ownsByte view t (a + step * j))

/-- The tests CHARTER and OWNERSHIP of R240: the reason, 0 when both pass. -/
def charterReason (view : Nat → Nat) (t : Nat) (w : Win) : Nat :=
  if t = 0 then 0
  else if !anyBelow 8 (fun k => rangeCovers view t k w) then 4
  else if !w.addrs.all (ownsPage view t) then 5
  else 0

/-- The reason for which a window is refused, 0 when it is not (R240): the tests in their order. A
charter write not in effect yet is tested as well (log 31). -/
def State.windowReason (s : State) (t : Nat) (w : Win) : Nat :=
  let c := charterReason s.charterEff t w
  let d := charterReason s.charterShown t w
  if w.pages = 0 ∨ 1024 < w.pages ∨ (!w.rd ∧ !w.wr) then 1
  else if w.addrs.any (fun a => rowOf a == .reserved) then 2
  else if w.addrs.any (fun a => rowOf a != w.region) then 3
  else if c ≠ 0 then c
  else if d ≠ 0 then d
  else if w.wr ∧ (w.region = .frames ∨ w.region = .logbook ∨ (w.region = .timebase ∧ t ≠ 0)) then 6
  else if w.region = .frames ∧ t ≠ 0 ∧ s.locked .windowFrameOff then 7
  else if w.region = .logbook ∧ t ≠ 0 then 9
  else 0

/-- A window is refused (R240). -/
def State.refuseWindow (s : State) (t n reason : Nat) : State :=
  (s.modWin t n (fun w => { w with state := .refused, reason := reason })).event 0x0406 1 t
    [(1, t), (1, n), (1, reason)]

/-- Every VALID window of the tenants other than 0 that a test refuses now (R244). -/
def State.refuseWindows (s : State) (reason : Nat → Win → Nat) : State :=
  overAll 448 (fun k s =>
    let t := 1 + k / 64
    let n := k % 64
    let w := s.win t n
    if w.state = .valid ∧ reason t w ≠ 0 then s.refuseWindow t n (reason t w) else s) s

/-! ## Lock bits (R162, R163, R244) -/

/-- Lock bits are set; source 0 a LOCK packet, 1 LDR_LOCK. Each newly set bit is logged. -/
def State.setLocks (s : State) (mask source : Nat) : State :=
  let new := maskOf 7 (fun b => bitAt mask b && !s.ldr.locks.getLsbD b)
  let s :=
    if bitAt new 6 then (s.refuseWindows (fun _ w => if w.region = .frames then 7 else 0)).judgeBehind else s
  let s := s.modLdr (fun l => { l with
    locks := l.locks ||| BitVec.ofNat 7 new
    forceHost := l.forceHost && !bitAt new 5
    forceBoot := l.forceBoot && !bitAt new 5 })
  overAll 7 (fun b s =>
    if bitAt new b then s.event 0x0208 0 scopeG [(1, b), (1, source)] else s) s

end Sys2Proof.Machine
end

