-- ==== Sys2Proof/Machine/ConfigFields.lean ====
section
/-! DEFINITION. The fields of configuration space that hold what the host writes and of which the device
makes no other use than reporting errors (R227, R231, R233). Their places, their reset values and which
are sticky are those of PCI Express Base Specification 4.0, which R231 refers to (PRESUMED, log 10). -/

namespace Sys2Proof.Machine

/-- Reset values by byte offset: Link Control 2 (target 16.0 GT/s), AER severity and correctable mask, and
the lane registers of Secondary PCI Express, 16.0 GT/s and Lane Margining. -/
def plainReset (off : Nat) : Nat :=
  if off = 0xA0 then 4
  else if off = 0x10C then 0x00462030
  else if off = 0x114 then 0x2000
  else if 0x17C ≤ off ∧ off < 0x18C then 0x7F007F00
  else if off = 0x1C0 ∨ off = 0x1C4 then 0xF0F0F0F0
  else if 0x1D8 ≤ off ∧ off < 0x1F8 then 0x9C38
  else 0

/-- Bits that a write of a register stores: Command (parity error response, SERR#), Cache Line Size,
Interrupt Line, Device Control (error enables), Link Control (RCB, Common Clock Configuration, Extended
Synch), AER masks and severity; in function 0 also Link Control 2 and the margining lane controls. -/
def plainBits (t off : Nat) : Nat :=
  match off with
  | 0x04 => 0x140
  | 0x0C => 0xFF
  | 0x3C => 0xFF
  | 0x78 => 0xF
  | 0x80 => 0xC8
  | 0x108 => 0x17F010
  | 0x10C => 0x17F010
  | 0x114 => 0x31C1
  | 0xA0 => if t = 0 then 0xFF9F else 0
  | _ => if t = 0 ∧ 0x1D8 ≤ off ∧ off < 0x1F8 then 0xFF7F else 0

/-- Registers whose plain fields are sticky (R233). -/
def plainSticky (off : Nat) : Bool := off == 0xA0 || off == 0x108 || off == 0x10C || off == 0x114

/-- The plain fields of a register. -/
def Fn.plainAt (f : Fn) (off : Nat) : Nat := tabGet plainReset f.plain off

/-- A write of a register's plain fields. -/
def Fn.plainWrite (f : Fn) (t off v : Nat) : Fn :=
  let bits := plainBits t off
  { f with plain := tabSet plainReset f.plain off ((f.plainAt off &&& (0xFFFFFFFF - bits)) ||| (v &&& bits)) }

/-- What a function reset leaves of its configuration space: the sticky fields (R233). -/
def Fn.sticky (f : Fn) : Fn :=
  { aer := f.aer, aerCorr := f.aerCorr, aerFirst := f.aerFirst, aerHeader := f.aerHeader
    plain := f.plain.filter (fun e => plainSticky e.1) }

/-! ## Errors that a function reports (R227, R265) -/

/-- What a function reports through AER: a completion that a read of its own meets (R265), and a request of
the host that it completes as an Unsupported Request (R235). -/
inductive AerError where
  | poisoned | timeout | abort | unsupported | unexpected | refusedRead | refusedWrite
  deriving DecidableEq, Repr

/-- Its bit of AER Uncorrectable Error Status. -/
def AerError.bit : AerError → Nat
  | .poisoned => 12
  | .timeout => 14
  | .abort => 15
  | .unexpected => 16
  | .unsupported | .refusedRead | .refusedWrite => 20

/-- An error that is advisory unless its severity is fatal: another packet tells the other end. -/
def AerError.advisory (e : AerError) : Bool := e == .unexpected || e == .refusedRead

/-- Severity of an error as AER has it: 2 fatal, 1 non-fatal, 0 advisory. -/
def Fn.severity (f : Fn) (e : AerError) : Nat :=
  if bitAt (f.plainAt 0x10C) e.bit then 2 else if e.advisory then 0 else 1

/-- SERR# Enable. -/
def Fn.serr (f : Fn) : Bool := bitAt (f.plainAt 0x04) 8

/-- An error is advisory, and Advisory Non-Fatal errors are masked: the correctable status alone records it
(PRESUMED of PCI Express Base Specification 4.0, 6.2.4.3; log 10). -/
def Fn.advisoryMasked (f : Fn) (e : AerError) : Bool := f.severity e == 0 && bitAt (f.plainAt 0x114) 13

/-- The severity of the message that an error sends: none where it is masked, or its message is not enabled
in Device Control (an Unsupported Request's also by Unsupported Request Reporting Enable) nor, for an
uncorrectable one, by SERR# Enable. -/
def Fn.aerMessage (f : Fn) (e : AerError) : Option Nat :=
  let sev := f.severity e
  let control := f.plainAt 0x78
  if bitAt (f.plainAt 0x108) e.bit || f.advisoryMasked e then none
  else if (bitAt control sev && (e.bit != 20 || bitAt control 3)) || (sev != 0 && f.serr) then some sev
  else none

/-- Bits of Device Status and, at their own places 24 to 31, of Status that an error sets: the severity
detected, Unsupported Request, Received Target and Master Abort, the parity bits of a poisoned packet, and
Signaled System Error where a message of an uncorrectable error goes out under SERR# Enable. -/
def Fn.statusBits (f : Fn) (e : AerError) (message : Option Nat) : Nat :=
  2 ^ f.severity e + flag (e.bit == 20) 3 + flag (e == .poisoned && bitAt (f.plainAt 0x04) 6) 24 +
    flag (e == .abort) 28 + flag (e == .unsupported) 29 + flag (message.any (· != 0) && f.serr) 30 +
    flag (e == .poisoned) 31

/-- An error as AER records it: an advisory error in the correctable status; its own status, unless it is advisory
and those are masked; and for the first that is not masked the pointer and the packet's header. -/
def Fn.aerRecord (f : Fn) (e : AerError) (message : Option Nat) (header : List Word) : Fn :=
  let records := !f.advisoryMasked e
  let first := records && !bitAt (f.plainAt 0x108) e.bit && !bitAt f.aer f.aerFirst
  { f with
    aer := if records then f.aer ||| 2 ^ e.bit else f.aer
    aerCorr := if f.severity e = 0 then f.aerCorr ||| 2 ^ 13 else f.aerCorr
    detected := f.detected ||| f.statusBits e message
    aerFirst := if first then e.bit else f.aerFirst
    aerHeader := if first then header else f.aerHeader }

/-! ## Lane Margining (R227, R231) -/

/-- What a lane answers to a margin command, at 16.0 GT/s (PRESUMED, log 10): receiver, type and usage model
as written, and a payload. Commands to another receiver than the port's own or all of them, and those of
another usage model, get no answer. Voltage margining is not supported, which the report of the capabilities says
(its bits 0 and 1 are 0, with the reserved ones) and a step of it is told; the data of the other reports and of a step
of time are the lane's, and free. -/
def marginAnswer (old command free : Nat) : Nat :=
  let receiver := field command 0 3
  let payload := field command 8 8
  let answer := fun p => field command 0 7 + place p 8 8
  if bitAt command 6 || (receiver != 0 && receiver != 6) then old
  else match field command 3 3 with
    | 7 => if payload = 0x9C then answer 0x9C else old
    | 2 => if payload = 0x0F ∨ payload = 0x55 ∨ 0xC0 ≤ payload then answer payload else old
    | 1 => if receiver ≠ 6 then old else answer (if payload = 0x88 then 4 * (free % 8) else free % 256)
    | 3 => if receiver = 6 then answer (free % 256) else old
    | 4 => if receiver = 6 then answer 0xC0 else old
    | _ => old

/-- The registers of the lanes in the Lane Margining capability. -/
def marginLane (off : Nat) : Bool := decide (0x1D8 ≤ off ∧ off < 0x1F8)

/-- A lane's answer to the command that its register now holds. -/
def Fn.margin (f : Fn) (off free : Nat) : Fn :=
  let v := f.plainAt off
  let w := field v 0 16 + place (marginAnswer (field v 16 16) (field v 0 16) free) 16 16
  { f with plain := tabSet plainReset f.plain off w }

end Sys2Proof.Machine
end

