-- ==== Sys2Proof/Machine/ModeBase.lean ====
section
/-! DEFINITION. The mode unit's registers and the causes that start a transition (R31, R34, R35,
R45 to R47): what the other families use of it. -/

namespace Sys2Proof.Machine

/-- SUP_MODE (R45). -/
def State.supMode (s : State) : Nat :=
  let m := s.mode
  place m.mode.code 0 3 + place m.prev.code 4 3 + flag m.frozen 8 + flag s.anyQuarantine 9 +
    flag s.unitRetired 10 + flag m.untested 11 + flag m.trans.isSome 12 + place m.holdCause 16 8 +
    place m.changes 24 8

/-- The mode mirror follows SUP_MODE bits [12:0] between transitions, and holds its value while one
is in progress (R49). -/
def State.settleMirror (s : State) : State :=
  if s.mode.trans.isSome then s else s.modMode (fun m => { m with mirror := s.supMode % 2 ^ 13 })

/-- SUP_MODE_CMD_STATUS (R45). -/
def State.supCmdStatus (s : State) : Nat := place s.mode.result 0 3 + place s.mode.lastCmd 4 4

/-- SUP_RESET_CAUSE (R45). -/
def State.supResetCause (s : State) : Nat :=
  flag s.mode.causePor 0 + flag s.mode.causeSys 1 + flag s.mode.causeProg 2

/-- A transition starts; an accepted command's RESULT becomes 1 (R46). -/
def State.startTrans (s : State) (id : Nat) (target : Mode) (cmd : Bool := false)
    (freeze : Bool := false) : State :=
  s.modMode (fun m => { m with
    trans := some { id := id, target := target, cmd := cmd, freeze := freeze }
    result := if cmd then 1 else m.result })

/-- A command of SUP_MODE_CMD is accepted, with the transition it causes (R46). -/
def State.acceptCmd (s : State) (cmd id : Nat) (target : Mode) (freeze : Bool := false) : State :=
  (s.modMode (fun m => { m with lastCmd := cmd })).startTrans id target true freeze

/-- A command is refused (R46). -/
def State.cmdRefused (s : State) (cmd result : Nat) : State :=
  (s.modMode (fun m => { m with lastCmd := cmd, result := result })).event 0x0102 1 scopeS
    [(1, cmd), (1, s.mode.mode.code), (1, result)]

/-- A write to the supervisor block breaks an unlock sequence in progress (R47). -/
def State.breakUnlock (s : State) : State :=
  if s.mode.unlock then (s.modMode (fun m => { m with unlock := false })).cmdRefused 0xF 3 else s

/-- A write to a register of the supervisor block: dropped in RESET (R37), and otherwise it first
breaks an unlock sequence (R47). -/
def State.supWriting (s : State) (f : State → State) : State :=
  if s.mode.mode = .reset then s else f s.breakUnlock

/-- A row that stands for a write of the host waits with the host while X1 takes none (R24, R27, R520). -/
def State.fromHost (s : State) (f : State → State) : State := if s.x1Holds then s else f s

/-- A row that writes a register of the supervisor block: the supervisor's write through the host link (log 22). -/
def State.supRow (s : State) (f : State → State) : State := s.fromHost (fun s => s.supWriting f)

/-- A DEGRADED cause (R31 T8, R34, R35). -/
def State.degradeCause (s : State) : State :=
  if s.mode.trans.isSome then s.modMode (fun m => { m with waitT8 := true })
  else if s.mode.mode = .run then s.startTrans 8 .degraded
  else s

/-- The end of a quarantine, as a cause of T9 (R31, R34). -/
def State.recoverCause (s : State) : State :=
  if s.mode.trans.isSome then s.modMode (fun m => { m with waitT9 := true })
  else if s.mode.mode = .degraded ∧ !s.anyQuarantine ∧ !s.unitRetired then s.startTrans 9 .run
  else s

/-- The causes of priority 4 that waited, looked at against the state now (R34). -/
def State.waitingCauses (s : State) : State :=
  let m := s.mode
  let s := s.modMode (fun m => { m with waitT8 := false, waitT9 := false })
  if m.waitT8 ∧ m.mode = .run ∧ (s.anyQuarantine || s.unitRetired) then s.degradeCause
  else if m.waitT9 ∧ m.mode = .degraded then s.recoverCause
  else s

end Sys2Proof.Machine
end

