-- ==== Sys2Proof/Machine/LeaveBase.lean ====
section
/-! DEFINITION. The power leave unit's registers, requests and leases (17): making a request,
taking a lease without checks, and ending requests and leases. -/

namespace Sys2Proof.Machine

/-! ## Cost sources (R479, R489) -/

def leaveKindReset (k : Nat) : Nat :=
  match k with
  | 2 => 0x0005300A
  | 3 => 0x0000300F
  | 4 => 0x0000001E
  | 5 => 0x000C90FA
  | _ => 0

def leaveIrelReset (_ : Nat) : Nat := 0x00192028

def Leave.kindReg (l : Leave) (k : Nat) : Nat := tabGet leaveKindReset l.kinds k
def Leave.irelReg (l : Leave) (i : Nat) : Nat := tabGet leaveIrelReset l.irel i
def Leave.iclsReg (l : Leave) (i c : Nat) : Nat := tabGet (fun _ => 0) l.icls (4 * i + c)

/-- COST, PRIO and DURATION of a cost source (R489). -/
def costOf (reg : Nat) : Nat := field reg 0 12
def prioOf (reg : Nat) : Nat := field reg 12 2
def durationOf (reg : Nat) : Nat := field reg 14 18

/-- A device request's cost source; class requests and program requests carry their own. -/
def Leave.source (l : Leave) : Asker → Nat
  | .release i _ => l.irelReg i
  | .bank _ => l.kindReg 2
  | .synth _ => l.kindReg 3
  | .burst => l.kindReg 4
  | .dmaRate => l.kindReg 5
  | _ => 0

/-- RESERVED, and the sum in transient (R478, R489). -/
def Leave.reserved (l : Leave) : Nat := (l.leases.map Lease.cost).sum
def Leave.inTransient (l : Leave) : Nat := ((l.leases.filter Lease.transient).map Lease.cost).sum

/-- LEAVE_DEF_TIMEOUT in ns. -/
def Leave.defaultNs (l : Leave) : Nat := 1000 * l.defTimeout

/-- The request of a device operation, with its timeout in ns (R481). -/
def State.deviceReq (s : State) (who : Asker) (timeout : Nat) : LeaveReq :=
  let reg := s.leave.source who
  { who := who, cost := costOf reg, prio := prioOf reg, duration := durationOf reg, timeout := timeout,
    at_ := s.coreNs }

/-- A request sets out for the unit. -/
def State.leaveAsk (s : State) (q : LeaveReq) : State :=
  s.modLeave (fun l => { l with arriving := l.arriving ++ [q] })

/-- A request of this requester is on its way or waits. -/
def Leave.asked (l : Leave) (who : Asker) : Bool :=
  l.arriving.any (fun q => q.who == who) || l.queue.any (fun q => q.who == who)

/-- Requests withdrawn (R481): the queue is evaluated when one leaves it (R480). -/
def State.leaveWithdraw (s : State) (p : Asker → Bool) : State :=
  s.modLeave (fun l => { l with
    arriving := l.arriving.filter (fun q => !p q.who)
    queue := l.queue.filter (fun q => !p q.who)
    stale := l.stale || l.queue.any (fun q => p q.who) })

/-- Leases released: the queue is evaluated at each release (R480). -/
def State.leaveFree (s : State) (p : Asker → Bool) : State :=
  s.modLeave (fun l => { l with
    leases := l.leases.filter (fun x => !p x.who)
    stale := l.stale || l.leases.any (fun x => p x.who) })

/-- The lease of one handle released. -/
def State.leaveDrop (s : State) (h : Nat) : State :=
  s.modLeave (fun l => { l with
    leases := l.leases.filter (fun x => x.handle != h)
    stale := l.stale || l.leases.any (fun x => x.handle == h) })

/-- The event that a lease of kind 1 or 2 is held until has come: its transient starts to count
and its end follows (R479). -/
def State.leaveEnding (s : State) (p : Asker → Bool) : State :=
  s.modLeave (fun l => { l with
    leases := l.leases.map (fun x => if p x.who then { x with ending := true } else x) })

/-- The requester of a release of an island. -/
def isRelease (i : Nat) : Asker → Bool
  | .release j _ => j == i
  | _ => false

/-- The lease of a requester whose event will not come ends; an earlier one of it, whose event has come, runs out
its DURATION (R482, R483). -/
def State.leaveUnused (s : State) (p : Asker → Bool) : State :=
  let q := fun (x : Lease) => p x.who && !x.ending
  s.modLeave (fun l => { l with
    leases := l.leases.filter (fun x => !q x), stale := l.stale || l.leases.any q })

/-- The lease of a release that does not come to its step 4 ends. -/
def State.releaseLeaseEnds (s : State) (i : Nat) : State := s.leaveUnused (isRelease i)

/-- A bank's lease whose bank has not been enabled under it yet (R479, R483). -/
def State.bankLease (s : State) (b : Nat) : Bool :=
  s.leave.leases.any (fun x => x.who == .bank b && !x.ending)

/-- The wake leases held, the oldest first (R484). -/
def Leave.wakeLeases (l : Leave) : List Nat := (l.leases.filter (fun x => x.who == .wake)).map Lease.handle

/-- A handle in use moved past: the k-th number from 1 on that `used` (rising) does not hold. -/
def freeHandle (used : List Nat) (h : Nat) : Nat :=
  used.foldl (fun h u => if u ≤ h then h + 1 else h) h

/-- A lease taken: its handle is non-zero and unlike every other held. -/
def State.leaveTake (s : State) (who : Asker) (cost duration : Nat) : Nat × State :=
  let (n, s) := s.draw
  let used := sortBy id (s.leave.leases.map Lease.handle)
  let h := freeHandle used (Config.handleChoice n % (65535 - used.length) + 1)
  let x : Lease := { handle := h, who := who, cost := cost, forever := duration == 0 }
  (h, s.modLeave (fun l => { l with leases := l.leases ++ [x] }))

/-- Entry to RESET: requests and leases go (R482). -/
def State.leaveReset (s : State) : State :=
  s.modLeave (fun l => { l with arriving := [], queue := [], leases := [] })

end Sys2Proof.Machine
end

