-- ==== Sys2Proof/Machine/Fabric.lean ====
section
/-! DEFINITION. The fabric of chapters 03 and 04: what the configuration frames make of the
islands' logic, the straits, the causeways and the pins, and what a clock edge does. -/

namespace Sys2Proof.Machine

/-! ## Configuration fields -/

/-- The bits that drive the logic: the logic latches (R183). -/
def Frame.live (f : Frame) : Nat := (f.logic.getD f.data).toNat

/-- A field of a frame's logic latches. -/
def State.cfg (s : State) (n lo len : Nat) : Nat := field (s.frame n).live lo len

/-- Dense indices of an island's frames (R51), of its strait frames (R80) and of the global
minors (R93). -/
def fbFrame (i fb minor : Nat) : Nat := i * 168 + fb * 8 + minor
def lagoonFrame (i n : Nat) : Nat := i * 168 + 128 + n
def ioFrame (i n : Nat) : Nat := i * 168 + 160 + n
def straitFrame (i : Nat) : Nat := 8064 + i % 8 * 12 + i / 8
def turnFrame (i : Nat) : Nat := 8064 + i % 8 * 12 + 6 + i / 8
def globalFrame (minor : Nat) : Nat := 8160 + minor

/-- The setup of a synthesizer in effect, and its EN (R94). -/
def State.synthSetup (s : State) (c : Nat) : Nat := s.cfg (globalFrame (1 + c)) 0 64
def State.synthEn (s : State) (c : Nat) : Bool := bitAt (s.synthSetup c) 0

/-- A field of cell m of an FB (R64). -/
def State.cell (s : State) (i fb m lo len : Nat) : Nat := s.cfg (fbFrame i fb 7) (48 * m + lo) len

def State.regMode (s : State) (i mc : Nat) : Nat := s.cell i (mc / 36) (mc % 36) 9 2
def State.clkSel (s : State) (i mc : Nat) : Nat :=
  let v := s.cell i (mc / 36) (mc % 36) 11 3
  if v ≤ 4 then v else 0
def State.clkInv (s : State) (i mc : Nat) : Bool := s.cell i (mc / 36) (mc % 36) 14 1 == 1
def State.initBit (s : State) (i mc : Nat) : Bool := s.cell i (mc / 36) (mc % 36) 15 1 == 1

/-- The registers' initial values of an island (R69). -/
def State.initBits (s : State) (i : Nat) : BitVec 576 :=
  BitVec.ofNat 576 (maskOf 576 (fun mc => s.initBit i mc))

/-- Island interface fields (R72): UREG_MODE, the interface clock, LEAVE_EN. -/
def State.uregMode (s : State) (i : Nat) : Nat :=
  let v := s.cfg (ioFrame i 4) 0 2
  if v = 3 then 0 else v
def State.ifClk (s : State) (i : Nat) : Nat := s.cfg (ioFrame i 4) 2 2
def State.leaveEn (s : State) (i : Nat) : Bool := s.cfg (ioFrame i 4) 4 1 == 1

/-- Island clock j of island i: its global line, and EN (R93). -/
def State.iclkLine (s : State) (i j : Nat) : Nat := s.cfg (globalFrame 5) (32 * i + 8 * j) 4
def State.iclkEn (s : State) (i j : Nat) : Bool := s.cfg (globalFrame 5) (32 * i + 8 * j + 4) 1 == 1

/-- Pin slots (R71): bits of the slot of pin p. -/
def State.pinSlot (s : State) (i p lo len : Nat) : Nat :=
  s.cfg (ioFrame i (p / 8)) (64 * (p % 8) + lo) len
def State.pinBind (s : State) (i p : Nat) : Nat :=
  let v := s.pinSlot i p 0 2
  if v = 3 then 0 else v

/-! ## When the fabric runs (R67, R69, R86, R157) -/

/-- Global set/reset is asserted: from RESET to wake step 3, and from the start of a T12 wake to its
step 3 (R69, R157). -/
def State.gsr (s : State) : Bool := !s.mode.gsrOff

/-- Island clocks run: from wake step 5, and not while frozen (R40). -/
def State.clocksRun (s : State) : Bool := !s.mode.frozen && s.mode.clocksOn

/-- Pins leave the pre-load state: at wake step 4 (R157). -/
def State.pinsLive (s : State) : Bool :=
  match s.mode.mode with
  | .reset | .load => false
  | .wake => decide (4 ≤ s.mode.wakeStep)
  | _ => true

/-- Strait fields are in effect: from the first entry to WAKE since RESET (R86). -/
def State.straitsLive (s : State) : Bool := s.mode.wakeEntered

/-- Rank 1 and 2 of R67, and a reset that R182 has not released yet. -/
def State.regHeld (s : State) (i mc : Nat) : Bool :=
  (s.isl i).sealed || s.gsr || (s.clkSel i mc < 4 && (s.isl i).coldClocks.getLsbD (s.clkSel i mc))

/-- The state of a register: INIT for as long as it is held (R67, R69). -/
def State.regBit (s : State) (i mc : Nat) : Bool :=
  if s.regHeld i mc then s.initBit i mc else (s.isl i).user.getLsbD mc

/-- The island clock of a causeway register: of the east side's, or of the west side's (R98). -/
def State.causeClk (s : State) (i k : Nat) : Nat :=
  s.cfg (globalFrame 6) (4 * i + if k < 8 then 0 else 2) 2

/-- A causeway register is held at 0: its island is sealed, global set/reset is asserted, or R182 has not
released its clock yet (R98, R181). -/
def State.causeHeld (s : State) (i k : Nat) : Bool :=
  (s.isl i).sealed || s.gsr || (s.isl i).coldClocks.getLsbD (s.causeClk i k)

/-- A causeway register's level (R98). -/
def State.causeBit (s : State) (i k : Nat) : Bool := !s.causeHeld i k && (s.isl i).cause.getLsbD k

/-! ## Product terms (R57 to R63) -/

/-- The columns connected to a term. -/
def State.termCols (s : State) (i fb k : Nat) : List Nat :=
  (List.range 144).filter (fun c =>
    s.cfg (fbFrame i fb ((k * 144 + c) / 2048)) ((k * 144 + c) % 2048) 1 == 1)

/-- A term over the FB's input levels. -/
def termLevel (input : Nat → Bool) (cols : List Nat) : Bool :=
  !cols.isEmpty && cols.all (fun c => if c % 2 = 0 then input (c / 2) else !input (c / 2))

/-- The role of dedicated term d of a cell; the reserved role acts as SUM. -/
def State.role (s : State) (i fb m d : Nat) : Nat :=
  let v := s.cell i fb m (3 * d) 3
  if v = 7 then 0 else v

def State.borrow (s : State) (i fb m : Nat) : Bool := m < 35 && s.cell i fb m 6 1 == 1

/-- The dedicated terms of a cell that carry a role. -/
def State.roleTerms (s : State) (i fb m role : Nat) : List Nat :=
  ([0, 1].filter (fun d => s.role i fb m d == role)).map (fun d => 2 * m + d)

/-- The shared groups that join a cell's sum: its four lowest-numbered (R62). -/
def State.groupsOf (s : State) (i fb m : Nat) : List Nat :=
  ((List.range 6).filter (fun g =>
    let v := s.cfg (fbFrame i fb 7) (1728 + 8 * g) 8
    bitAt v 7 && field v 0 6 == m)).take 4

/-- The terms of a cell's sum (R60, R62, R63). -/
def State.sumTerms (s : State) (i fb m : Nat) : List Nat :=
  (if 0 < m && s.borrow i fb (m - 1) then [] else s.roleTerms i fb m 0) ++
  (s.groupsOf i fb m).flatMap (fun g => (List.range 4).map (fun k => 72 + 4 * g + k)) ++
  (if s.borrow i fb m then s.roleTerms i fb (m + 1) 0 else [])

/-- A control signal of a cell over term levels (R61). -/
def State.control (s : State) (term : Nat → Bool) (i fb m role : Nat) : Bool :=
  let ts := s.roleTerms i fb m role
  if role = 3 then ts.all term else ts.any term

/-! ## Sources (R54, R73, R77, R79 to R86) -/

/-- Inputs and outputs given up to the interfaces (R73, R77). -/
def State.inGiven (s : State) (i k : Nat) : Bool :=
  (s.uregMode i == 1 && 14 ≤ k) ||
  (s.uregMode i == 2 && ((14 ≤ k && k ≤ 21) || 32 ≤ k)) ||
  (s.leaveEn i && (k == 12 || k == 13))

def State.outGiven (s : State) (i k : Nat) : Bool :=
  (s.uregMode i != 0 && 31 ≤ k) || (s.leaveEn i && 28 ≤ k && k ≤ 30)

/-- The interface signal on an input given up. UWR, UADDR and UWDATA before the first access and after the
release of one, and UWDATA in a read, are free (log 33). -/
def State.interfaceIn (s : State) (i k : Nat) : Bool :=
  let x := s.isl i
  if k = 12 then x.leave.lgrant
  else if k = 13 then x.leave.ldeny
  else if k = 14 then x.ureg.ureq
  else if !x.ureg.valid then Config.interfaceIdle s.coreNs i k
  else if k = 15 then x.ureg.uwr
  else if k ≤ 31 then bitAt x.ureg.uaddr (k - 16)
  else if x.ureg.uwr then x.ureg.uwdata.getLsbD (k - 32)
  else Config.interfaceIdle s.coreNs i k

/-- Q of a macrocell: its register, or X in combinational mode (R65). -/
def State.qLevel (s : State) (x : Nat → Nat → Bool) (i mc : Nat) : Bool :=
  if s.regMode i mc = 3 then x i mc else s.regBit i mc

/-- The macrocell that strait output port k selects (R70). -/
def State.outSel (s : State) (i k : Nat) : Nat := s.cfg (lagoonFrame i (k / 2)) (1024 + 16 * (k % 2)) 10

/-- The Q that an output port given up drives its interface signal with (R73): 0 where the selector
names no macrocell (R52). -/
def State.portQ (s : State) (x : Nat → Nat → Bool) (i k : Nat) : Bool :=
  decide (s.outSel i k < 576) && s.qLevel x i (s.outSel i k)

/-- Strait output port k of island i (R70, R84). -/
def State.straitOut (s : State) (x : Nat → Nat → Bool) (i k : Nat) : Bool :=
  if (s.isl i).shut || 576 ≤ s.outSel i k || s.outGiven i k then
    s.cfg (straitFrame i) (1024 + k) 1 == 1
  else s.qLevel x i (s.outSel i k)

/-- The island that a selector's PATH and POS name, none for its own or no island (R82). -/
def selIsland (i sel : Nat) : Option Nat :=
  let pos := field sel 2 3
  if field sel 0 2 = 1 then if pos = i % 8 then none else some (i / 8 * 8 + pos)
  else if field sel 0 2 = 2 then if pos = i / 8 || 5 < pos then none else some (pos * 8 + i % 8)
  else none

/-- Turn line k of island i, offered on the strait named by `path` (R79, R82). -/
def State.turnLevel (s : State) (x : Nat → Nat → Bool) (i k path : Nat) : Bool :=
  let sel := s.cfg (turnFrame i) (16 * k) 16
  if bitAt sel 5 || field sel 0 2 = path then false
  else match selIsland i sel with
    | some j => s.straitOut x j (field sel 6 6)
    | none => false

/-- Strait input port k of island i: 0 until the first wake, one given up to an interface with the others (R86). -/
def State.straitIn (s : State) (x : Nat → Nat → Bool) (i k : Nat) : Bool :=
  if !s.straitsLive then false
  else if s.inGiven i k then s.interfaceIn i k
  else
    let sel := s.cfg (straitFrame i) (16 * k) 16
    match selIsland i sel with
    | none => false
    | some j =>
      if bitAt sel 5 then s.turnLevel x j (field sel 6 6) (field sel 0 2)
      else s.straitOut x j (field sel 6 6)

/-- Whether an island has a neighbour to the west and to the east (R10). -/
def hasWest (i : Nat) : Bool := i % 8 != 0
def hasEast (i : Nat) : Bool := i % 8 != 7

/-- Pin p belongs to an LVDS pair: the slot of the pair's even pin says so, in a bank at 1.8 V
(R215). -/
def State.lvdsPair (s : State) (i p : Nat) : Bool :=
  let k := p - p % 2
  s.pinSlot i k 32 1 == 1 && s.pinBind i k == 1 && s.cfg (ioFrame i 5) 0 3 == 3

/-- The N pin of an LVDS pair, whose own slot has no effect (R215). -/
def State.lvdsN (s : State) (i p : Nat) : Bool := p % 2 == 1 && s.lvdsPair i p

/-! ## Pins of harbour ports (R405, R407, R408, R436) -/

/-- The I/O minor that sets up a port. -/
def portFrame (p : Nat) : Nat := ioFrame (p / 2) (6 + p % 2)

/-- A field of setup word k. -/
def State.setup (s : State) (p k lo len : Nat) : Nat := s.cfg (portFrame p) (32 * k + lo) len

/-- TYPE: 1 CAN, 2 SENT, 3 PSI5, 4 SPI, 5 I3C, 6 10BASE-T1S; reserved values act as 0. -/
def State.portType (s : State) (p : Nat) : Nat :=
  let v := s.setup p 0 0 4
  if v ≤ 6 then v else 0

/-- The signals a TYPE uses. -/
def usedSigs (type : Nat) : List Nat :=
  match type with
  | 1 => [0, 1, 2]
  | 2 => [0, 1]
  | 3 => [0, 1]
  | 4 => [0, 1, 2, 3, 4, 5, 6, 7, 8, 9, 10]
  | 5 => [0, 1]
  | 6 => List.range 16
  | _ => []

/-- The pins of the home bank that name a signal of the port, lowest first. -/
def State.sigPins (s : State) (p sig : Nat) : List Nat :=
  (List.range 32).filter (fun k =>
    s.pinBind (p / 2) k == 2 && !s.lvdsN (p / 2) k && s.pinSlot (p / 2) k 16 1 == p % 2 &&
      s.pinSlot (p / 2) k 17 4 == sig)

/-- PORT and SIG of a pin's slot. -/
def State.pinPort (s : State) (b p : Nat) : Nat := 2 * b + s.pinSlot b p 16 1
def State.pinSig (s : State) (b p : Nat) : Nat := s.pinSlot b p 17 4

/-- A pin is bound to a port: the lowest-numbered one of those that name a signal the port's TYPE uses. Every
other pin of BIND = 2 behaves as one of BIND = 0 (R408). -/
def State.portBound (s : State) (b p : Nat) : Bool :=
  s.pinBind b p == 2 && (usedSigs (s.portType (s.pinPort b p))).contains (s.pinSig b p) &&
    (s.sigPins (s.pinPort b p) (s.pinSig b p)).head? == some p

/-! ## Shore states (R171, R173, R217) -/

/-- The pin whose slot governs pin p (R215). -/
def State.slotPin (s : State) (b p : Nat) : Nat := if s.lvdsPair b p then p - p % 2 else p

/-- The level at pin p of what its governing pin drives: the N pin of a pair shows the inverse. -/
def State.pairLevel (s : State) (b p : Nat) (v : Bool) : Bool := xor v (s.lvdsN b p)

/-- What the mode and the seals make of a pin (R37, R39, R171, R173, R218). -/
inductive PinPhase where
  | preload | shore | configured
  deriving DecidableEq, Repr

/-- BIND of the slot that governs a pin. -/
def State.bindOf (s : State) (b p : Nat) : Nat := s.pinBind b (s.slotPin b p)

/-- The phase of a pin. In the SERVICE or TEST that follows a HOLD the pins of the islands it sealed
stay as in HOLD (R31 T13), but a port that runs again has its pins (log 52). -/
def State.pinPhase (s : State) (b p : Nat) : PinPhase :=
  let held := if s.mode.holdShore.getLsbD b then PinPhase.shore else .preload
  let port := s.portBound b p && !(s.isl b).portsStopped
  if s.mode.mode = .hold then held
  else if s.mode.mode.serviceLike && s.mode.holdFault && (s.isl b).shut then
    if port && s.mode.holdShore.getLsbD b then .configured else held
  else if !s.pinsLive then .preload
  else if (s.isl b).shut && !port then .shore
  else .configured

/-- BANK_VCCO of a bank, as its I/O minor 5 holds it (R214). -/
def State.bankVcco (s : State) (b : Nat) : Nat := s.cfg (ioFrame b 5) 0 3

/-- A bank is declared; a reserved BANK_VCCO acts as unused (R52, R219). -/
def State.bankDeclared (s : State) (b : Nat) : Bool := 1 ≤ s.bankVcco b && s.bankVcco b ≤ 5

/-- A bank is present, and enabled: never where it is declared unused, whatever has made it so (R214, R219). -/
def State.bankPresent (s : State) (b : Nat) : Bool := (s.bank b).present && s.bankDeclared b
def State.bankLive (s : State) (b : Nat) : Bool := (s.bank b).enabled && s.bankDeclared b

/-- What a pin drives in its shore state (R213, R215, R217): in an enabled bank, drive 0, drive 1, or
what keep-last kept. -/
def State.shoreDrive (s : State) (b p : Nat) : Option Bool :=
  let q := s.slotPin b p
  if !s.bankLive b then none
  else match s.pinSlot b q 37 3 with
    | 3 => some (s.pairLevel b p false)
    | 4 => some (s.pairLevel b p true)
    | 5 => if (s.isl b).keepEn.getLsbD q then some (s.pairLevel b p ((s.isl b).keepLevel.getLsbD q)) else none
    | _ => none

/-- What the fabric drives on a pin: a level, or nothing (R71). A frozen output keeps its level and
its enable (R40). With OUT_INV = 1 a pin whose OUT_SRC names no macrocell drives the inverse of the
constant 0 (DEDUCED, log 52). -/
def State.pinDrive (s : State) (x : Nat → Nat → Bool) (oe : Nat → Nat → Bool) (i p : Nat) :
    Option Bool :=
  let src := s.pinSlot i p 4 10
  let on :=
    match s.pinSlot i p 2 2 with
    | 1 => true
    | 2 => if src < 576 then oe i src else false
    | _ => false
  if s.pinBind i p = 1 && !s.lvdsN i p && s.pinsLive && !(s.isl i).shut && s.bankLive i then
    if s.mode.frozen then
      if (s.isl i).keepEn.getLsbD p then some ((s.isl i).keepLevel.getLsbD p) else none
    else if on then some (xor (if src < 576 then s.qLevel x i src else false) (s.pinSlot i p 14 1 == 1))
    else none
  else none

/-- A lagoon source of island i (R54, R56). `pin` gives the level at a pin. -/
def State.source (s : State) (x : Nat → Nat → Bool) (pin : Nat → Bool) (i src : Nat) : Bool :=
  if src < 576 then
    if s.cell i (src / 36) (src % 36) 16 1 = 1 then x i src else s.qLevel x i src
  else if src < 608 then
    s.pinBind i (src - 576) == 1 && !s.lvdsN i (src - 576) && s.bankLive i &&
      s.pinPhase i (src - 576) != .preload && pin (src - 576)
  else if src < 672 then s.straitIn x i (src - 608)
  else if src < 680 then hasWest i && s.causeBit (i - 1) (src - 672)
  else if src < 688 then hasEast i && s.causeBit (i + 1) (src - 680 + 8)
  else false

/-- The source that input k of an FB selects (R55). -/
def State.inputSel (s : State) (i fb k : Nat) : Nat :=
  s.cfg (lagoonFrame i (2 * fb + k / 36)) (16 * (k % 36)) 10

/-- The level at a pin when nothing of the device drives it. -/
def State.boardPin (s : State) (i p : Nat) : Bool := Config.pinLevel s.coreNs i p

/-- What a selected boundary-scan instruction makes of a pin (R44): under EXTEST and CLAMP the
register drives it or not, under HIGHZ nothing does; none while no such instruction is selected. Pin
p of bank i has its level at bit 2 × (32 × i + p) of the register, and its enable at the next bit. -/
def State.scanDrive (s : State) (i p : Nat) : Option (Option Bool) :=
  let b := 2 * (32 * i + p)
  match s.jtag.ir with
  | .extest | .clamp =>
    some (if s.jtag.bsr.getLsbD (b + 1) then some (s.jtag.bsr.getLsbD b) else none)
  | .highz => some none
  | _ => none

/-- The level at a pin of the fabric. -/
def State.pinSeen (s : State) (x oe : Nat → Nat → Bool) (i p : Nat) : Bool :=
  ((s.scanDrive i p).getD (match s.pinPhase i p with
    | .preload => none
    | .shore => s.shoreDrive i p
    | .configured => s.pinDrive x oe i p)).getD (s.boardPin i p)

/-- The level of term k of an FB, over what X and the output enables of the macrocells are. -/
def State.termAt (s : State) (x oe : Nat → Nat → Bool) (i fb k : Nat) : Bool :=
  let pin := s.pinSeen x oe i
  termLevel (fun c => s.source x pin i (s.inputSel i fb c)) (s.termCols i fb k)

/-- What a combinational path can pass through: X of a macrocell, or its OE term. -/
inductive Net where
  | x (i mc : Nat)
  | oe (i mc : Nat)
  deriving DecidableEq, Repr

/-- The level of a net (R60 to R65): X = S XOR Y, and the OE control. The number bounds the
path's length; a longer one than the device has macrocells is a loop. -/
def State.net (s : State) : Nat → Net → Bool
  | 0, .x i mc => Config.loopLevel s.coreNs i mc
  | 0, .oe i mc => Config.loopLevel s.coreNs i (mc + 576)
  | n + 1, .x i mc =>
    let term := s.termAt (fun j c => s.net n (.x j c)) (fun j c => s.net n (.oe j c)) i (mc / 36)
    let y :=
      match s.cell i (mc / 36) (mc % 36) 7 2 with
      | 1 => true
      | 2 => s.control term i (mc / 36) (mc % 36) 1
      | _ => false
    xor ((s.sumTerms i (mc / 36) (mc % 36)).any term) y
  | n + 1, .oe i mc =>
    let term := s.termAt (fun j c => s.net n (.x j c)) (fun j c => s.net n (.oe j c)) i (mc / 36)
    s.control term i (mc / 36) (mc % 36) 6

/-- More steps than any path without a loop has. -/
def fabricDepth : Nat := 60000

def State.x (s : State) (i mc : Nat) : Bool := s.net fabricDepth (.x i mc)
def State.oe (s : State) (i mc : Nat) : Bool := s.net fabricDepth (.oe i mc)

/-- The level of a control signal of a macrocell (R60, R61). -/
def State.ctl (s : State) (i mc role : Nat) : Bool :=
  s.control (s.termAt s.x s.oe i (mc / 36)) i (mc / 36) (mc % 36) role

/-- What the fabric drives on pin p of bank i. -/
def State.pinOut (s : State) (i p : Nat) : Option Bool :=
  s.pinDrive s.x s.oe i p

/-- What keep-last holds of an island's pins, where `mine` says which pins and `drive` what they drive now;
for every other pin it holds what it held. -/
def Isl.keep_ (x : Isl) (mine : Nat → Bool) (drive : Nat → Option Bool) : Isl :=
  { x with
    keepEn := BitVec.ofNat 32 (maskOf 32 (fun p =>
      if mine p then (drive p).isSome else x.keepEn.getLsbD p))
    keepLevel := BitVec.ofNat 32 (maskOf 32 (fun p =>
      if mine p then (drive p).getD false else x.keepLevel.getLsbD p)) }

/-- The levels and enables of an island's pins that no port drives are kept (R40, R171). -/
def State.keepFabric (s : State) (i : Nat) (x : Isl) : Isl :=
  x.keep_ (fun p => !s.portBound i p) (s.pinOut i)

/-- The outputs' levels and enables are kept (R40): of every island that is not sealed. -/
def State.keepPins (s : State) : State :=
  overAll 48 (fun i t => if (t.isl i).shut then t else t.modIsl i (s.keepFabric i)) s

/-! ## Clock edges (R65 to R68, R98) -/

/-- Rows 3 to 6 of R67 once the clocking has given `clocked`. -/
def State.regValue (s : State) (i mc : Nat) (clocked : Bool) : Bool :=
  if s.regHeld i mc then s.initBit i mc
  else if s.ctl i mc 5 then false
  else if s.ctl i mc 4 then true
  else clocked

/-- The value an active edge gives a flip-flop in the state before it (R65). -/
def State.edgeValue (s : State) (i mc : Nat) : Bool :=
  let q := s.regBit i mc
  if !s.ctl i mc 3 then q
  else match s.regMode i mc with
    | 0 => s.x i mc
    | 1 => xor q (s.x i mc)
    | _ => q

/-- The level of the clock of a macrocell, after inversion: of an island clock, or of PTCLK. -/
def State.clockLevel (s : State) (i mc : Nat) : Bool :=
  let j := s.clkSel i mc
  let raw :=
    if j = 4 then s.ctl i mc 2
    else s.clocksRun && s.iclkEn i j && s.clocks.clockHigh.getLsbD (s.iclkLine i j)
  xor raw (s.clkInv i mc)

/-- The levels of an island's product-term clocks (R66). -/
def State.ptLevels (s : State) (i : Nat) : BitVec 576 :=
  BitVec.ofNat 576 (maskOf 576 (fun mc => s.clkSel i mc == 4 && s.clockLevel i mc))

/-- The register of a macrocell after one pass over the influences that need no line edge:
resets, open latches, and a product-term clock that has risen (R66 to R68). While the fabric is
frozen every flip-flop keeps its state (R40), and so does a latch whose held-low clock leaves it open:
no register can change then (R105; DEDUCED, log 52). The levels are settled ones: no product-term clock glitches
where several of its inputs change together, and its edge samples X as it is after the change that has raised it
(DESIGN CHOICE, log 59). -/
def State.asyncBit (s : State) (i mc : Nat) : Bool :=
  let q := s.regBit i mc
  let clocked :=
    match s.regMode i mc with
    | 2 => if s.clockLevel i mc && s.ctl i mc 3 then s.x i mc else q
    | _ =>
      if s.clkSel i mc = 4 && s.clockLevel i mc && !(s.isl i).ptclk.getLsbD mc then s.edgeValue i mc
      else q
  if s.regMode i mc = 3 then q
  else if s.mode.frozen && !s.regHeld i mc then q
  else s.regValue i mc clocked

/-- One pass over every register. -/
def State.asyncPass (s : State) : State :=
  overAll 48 (fun i t => t.modIsl i (fun v => { v with
    user := BitVec.ofNat 576 (maskOf 576 (s.asyncBit i)), ptclk := s.ptLevels i })) s

/-- The registers that do not settle take a level that no rule gives (log 45). -/
def State.unsettled (s : State) : State :=
  let bit := fun i mc =>
    if s.asyncBit i mc == (s.isl i).user.getLsbD mc then (s.isl i).user.getLsbD mc
    else Config.loopRegister s.coreNs i mc
  overAll 48 (fun i t => t.modIsl i (fun v => { v with user := BitVec.ofNat 576 (maskOf 576 (bit i)) })) s

/-- Passes until nothing changes: a loop through open latches, asynchronous controls or product-term
clocks that still changes after more passes than the device has registers counts as one that never settles,
and what its registers then hold is open (DESIGN CHOICE, logs 45 and 52). -/
def State.asyncSettle : Nat → State → State
  | 0, s => s.unsettled
  | n + 1, s => if s.asyncPass.islands = s.islands then s else State.asyncSettle n s.asyncPass

/-- The causeway registers of an island at a rising edge of a line (R70, R98). -/
def State.causeEdge (before : State) (l i : Nat) (v : Isl) : Isl :=
  let value := fun k =>
    let sel := before.cfg (lagoonFrame i k) 1056 11
    let mc := field sel 0 10
    if 576 ≤ mc then false
    else if bitAt sel 10 then before.x i mc else before.qLevel before.x i mc
  let bit := fun k =>
    if before.causeHeld i k then false
    else if before.iclkEn i (before.causeClk i k) && before.iclkLine i (before.causeClk i k) = l then value k
    else before.causeBit i k
  { v with cause := BitVec.ofNat 16 (maskOf 16 bit) }

/-- The interface clock of an island has an edge when line l has one (R72, R75, R78). -/
def State.ifEdge (s : State) (l i : Nat) : Bool :=
  s.iclkEn i (s.ifClk i) && s.iclkLine i (s.ifClk i) == l

/-- URDATA as the logic drives it (R73). -/
def State.urdata (s : State) (i : Nat) : Word :=
  BitVec.ofNat 32 (maskOf 32 (fun k => s.portQ s.x i (32 + k)))

/-- UACK and URDATA as an edge of the interface clock samples them (R75). -/
def State.sampleAck (before : State) (i : Nat) (u : UregPort) : UregPort :=
  if before.portQ before.x i 31 then { u with ack := some (before.urdata i) } else u

/-- The user register interface at a rising edge of its clock (R75): the UREQ cycle ends, whatever has
become of its access; an access that waits begins its own; from the edge that ends that cycle on UACK is sampled,
and with it URDATA; and an edge later what was presented is released. -/
def State.uregEdge (before : State) (i : Nat) (u : UregPort) : UregPort :=
  if u.ureq then
    let u := { u with ureq := false }
    if u.busy.isSome && u.shown && u.ack.isNone then before.sampleAck i u else u
  else match u.busy with
    | none => { u with valid := false }
    | some a =>
      if !u.shown then
        { u with shown := true, ureq := true, valid := true, uwr := a.write, uaddr := a.addr, uwdata := a.data }
      else if u.ack.isSome then { u with valid := false }
      else before.sampleAck i u

/-- LREQ as an edge of the interface clock samples it (R78): a rise while LGRANT and LDENY are 0 makes a
request for the LSEL sampled with it, and the fall after it ends that request or its lease; a rise while one
of them is 1 is ignored, with its fall. A level of 1 at the first edge after a release counts as a rise (log
33). -/
def LeavePort.sample (p : LeavePort) (lreq : Bool) (lsel : Nat) : LeavePort :=
  let p' := { p with seen := lreq }
  if lreq == p.seen then p
  else if lreq then
    if p.lgrant || p.ldeny then p' else { p' with asked := true, edges := p.edges ++ [some lsel] }
  else if p.asked then { p' with asked := false, edges := p.edges ++ [none] }
  else p'

/-- LGRANT and LDENY as an edge of the interface clock registers them: an answer shows where its request
still stands, and goes once the unit has taken it back (R78). -/
def LeavePort.present (p : LeavePort) : LeavePort :=
  let stands := p.asked && p.edges.isEmpty
  { p with lgrant := p.granted && (stands || p.lgrant), ldeny := p.denied && (stands || p.ldeny) }

/-- The leave port at a rising edge of the interface clock (R77, R78). -/
def State.leaveEdge (before : State) (i : Nat) (p : LeavePort) : LeavePort :=
  let q := fun k => before.portQ before.x i k
  (p.sample (q 28) (bnat (q 29) + 2 * bnat (q 30))).present

/-- The interfaces of an unsealed island at a rising edge of line l. -/
def State.interfaceEdge (before : State) (l i : Nat) (v : Isl) : Isl :=
  if v.shut || !before.ifEdge l i then v
  else
    let v := { v with ureg := before.uregEdge i v.ureg }
    if before.leaveEn i then { v with leave := before.leaveEdge i v.leave } else v

/-- The register of a macrocell at an edge of line l: an active edge for it gives what the state
before the edge says (R65, R66). -/
def State.lineBit (before : State) (l : Nat) (up : Bool) (i mc : Nat) : Bool :=
  let q := before.regBit i mc
  let j := before.clkSel i mc
  if j < 4 && before.iclkEn i j && before.iclkLine i j == l && before.regMode i mc ≤ 1 &&
      up != before.clkInv i mc then
    before.regValue i mc (before.edgeValue i mc)
  else q

/-- One line's bit in a level word. -/
def lineBitSet (v : BitVec 16) (l : Nat) (up : Bool) : BitVec 16 :=
  let mask := BitVec.ofNat 16 (2 ^ l)
  if up then v ||| mask else v &&& ~~~mask

/-- An edge of the island clocks that line l feeds: they rise or fall, and the fabric settles. -/
def State.clockEdge (s : State) (l : Nat) (up : Bool) : State :=
  let t := s.modClocks (fun c => { c with clockHigh := lineBitSet c.clockHigh l up })
  let island := fun i (v : Isl) =>
    let v := { v with user := BitVec.ofNat 576 (maskOf 576 (s.lineBit l up i)) }
    if up then s.interfaceEdge l i (s.causeEdge l i v) else v
  State.asyncSettle fabricDepth (overAll 48 (fun i u => u.modIsl i (island i)) t)

/-- An edge of global line l. The island clocks rise with it where they run, and fall with it where they
have risen (R40, R157). -/
def State.lineEdge (s : State) (l : Nat) (up : Bool) : State :=
  let t := s.modClocks (fun c => { c with lineHigh := lineBitSet c.lineHigh l up })
  if (if up then s.clocksRun else s.clocks.clockHigh.getLsbD l) then t.clockEdge l up else t

/-- The island clocks that are high go low. -/
def State.clocksLow (s : State) : State :=
  overAll 16 (fun l s => if s.clocks.clockHigh.getLsbD l then s.clockEdge l false else s) s

/-- The fabric is frozen, its clocks low after their high phase, or it goes on (R40). -/
def State.setFrozen (s : State) (on : Bool) : State :=
  let s := if on && !s.mode.frozen then s.clocksLow.keepPins else s
  s.modMode (fun m => { m with frozen := on })

/-- The source of a global line runs (R93 to R96): GCLK_SRC is in effect from the first WAKE on (R110). -/
def State.lineRuns (s : State) (l : Nat) : Bool :=
  let src := s.cfg (globalFrame 0) (8 * l) 5
  if !s.mode.wakeEntered then false
  else if src = 1 then true
  else if 2 ≤ src ∧ src ≤ 17 then
    s.clocks.lock.getLsbD ((src - 2) / 4) &&
      decide (4 ≤ s.cfg (globalFrame (1 + (src - 2) / 4)) (32 + 8 * ((src - 2) % 4)) 8)
  else false

/-- The lines that a synthesizer feeds (R93). -/
def State.synthFeeds (s : State) (c l : Nat) : Bool :=
  let src := s.cfg (globalFrame 0) (8 * l) 5
  decide (2 + 4 * c ≤ src ∧ src < 6 + 4 * c)

/-- The outputs of a synthesizer go low after their high phase, and stay low (R96). -/
def State.synthLow (s : State) (c : Nat) : State :=
  overAll 16 (fun l s => if s.synthFeeds c l && s.clocks.lineHigh.getLsbD l then s.lineEdge l false else s) s

/-- A synthesizer has a setup that it has not locked to yet. -/
def State.synthUnlock (s : State) (c : Nat) : State :=
  let rest := ~~~(BitVec.ofNat 4 (2 ^ c))
  s.modClocks (fun k => { k with lock := k.lock &&& rest, ran := k.ran &&& rest, waiting := k.waiting &&& rest })

/-- Global frames have changed: a synthesizer whose setup in effect is no longer what it was before must lock anew
(R94, R110). That is no loss of lock of R96 (DEDUCED, log 62). -/
def State.resynth (s before : State) : State :=
  overAll 4 (fun c s =>
    if before.synthSetup c == s.synthSetup c then s else (s.synthLow c).synthUnlock c) s

/-- A line has had an edge (R97). -/
def State.lineSeen (s : State) (l : Nat) : State :=
  s.modClocks (fun c => { c with lineActive := c.lineActive ||| BitVec.ofNat 16 (2 ^ l) })

/-! ## Capture groups (R102, R103) -/

/-- A register belongs to the capture group of a line. -/
def State.inGroup (s : State) (l i mc : Nat) : Bool :=
  s.regMode i mc != 3 && decide (s.clkSel i mc < 4) && s.iclkEn i (s.clkSel i mc) &&
    decide (s.iclkLine i (s.clkSel i mc) = l)

/-- The captured bits of an island, none when it has no register in the group. -/
def State.snapshot (s : State) (l i : Nat) : Option (BitVec 576) :=
  let m := maskOf 576 (fun mc => s.inGroup l i mc)
  if m = 0 then none
  else some (BitVec.ofNat 576 (maskOf 576 (fun mc => s.inGroup l i mc && s.regBit i mc)))

/-- What each island named gives: none where it is sealed or has no register in the group (R105). -/
def State.captured (s : State) (l : Nat) (islands : List Nat) : List (Nat × Option (BitVec 576)) :=
  islands.map (fun i => (i, if (s.isl i).sealed then none else s.snapshot l i))

/-- The capture that waits on a line, and the islands it names. -/
def State.captureOn (s : State) (l : Nat) : Option Capture := tabGet (fun _ => none) s.clocks.captures l
def Capture.named (c : Capture) : List Nat := (List.range 48).filter c.islands.getLsbD

/-- The capture that waits on a line, changed. -/
def State.setCapture (s : State) (l : Nat) (c : Option Capture) : State :=
  s.modClocks (fun k => { k with captures := tabSet (fun _ => none) k.captures l c })

/-- A rising edge of a line on which a capture waits: what the registers hold once it has acted, and
its time (R103, R104). Taking them changes nothing else. -/
def State.noteEdge (s : State) (l : Nat) : State :=
  match s.captureOn l with
  | none => s
  | some c => s.setCapture l (some { c with edge := some (time64 s.tb.sec s.tb.nsec, s.captured l c.named) })

/-! ## The cycle -/

/-- An edge of a running line within a cycle: the level changes, and a capture on the line sees a
rise. -/
def State.lineTurns (s : State) (l : Nat) : State :=
  let up := !s.clocks.lineHigh.getLsbD l
  let s := s.lineEdge l up
  if up then s.noteEdge l else s

/-- One timebase cycle of the fabric: it settles on the board's pin levels, then the cycle's
edges follow one another. -/
def State.fabricCycle (s : State) : State :=
  overList (Config.edges s.coreNs) (fun l t =>
    if l < 16 && t.lineRuns l then (t.lineSeen l).lineTurns l else t)
    (State.asyncSettle fabricDepth s)

end Sys2Proof.Machine
end

