-- ==== Sys2Proof/Machine/PortBase.lean ====
section
/-! DEFINITION. What a harbour port is at any moment (15, 16): its setup, its clock, its signals,
its state, and the changes of state that R410 and R411 attach effects to. -/

namespace Sys2Proof.Machine

/-! ## Threads that wait -/

/-- What a waiting thread waits for has come: it is ready again, with a status and a value. Ring 32
stands for a thread that was discarded. -/
def State.wakeThread (s : State) (r status value : Nat) : State :=
  if r < 32 then
    s.modThr r (fun t => { t with
      wait := .none
      cur := t.cur.map (fun c => { c with reply := some (status, value) }) })
  else s

/-- Threads that wait for one thing look again. -/
def State.wakeAll (s : State) (p : Wait → Bool) : State :=
  overAll 32 (fun r s => if p (s.thr r).wait then s.modThr r (fun t => { t with wait := .none }) else s) s

/-! ## Port setup (R405, R406, R436) -/

/-- The port clock's source in Hz, and its divider: the port clock is source / divider. -/
def State.portSource (s : State) (p : Nat) : Nat :=
  if s.setup p 0 4 2 = 1 then Config.gckHz (s.setup p 0 10 4) else 160000000
def State.portDiv (s : State) (p : Nat) : Nat := s.setup p 0 6 4 + 1

/-- Minimum port clock of a TYPE in Hz (R437). -/
def minClock (type : Nat) : Nat :=
  match type with
  | 1 => 20000000
  | 2 => 10000000
  | 3 => 16000000
  | 4 => 2000000
  | 5 => 50000000
  | _ => 25000000

/-- The port clock breaks a limit of R406. -/
def State.clockFault (s : State) (p : Nat) : Bool :=
  160000000 * s.portDiv p < s.portSource p ||
    s.portSource p < minClock (s.portType p) * s.portDiv p

/-! ### Protocol setup limits -/

/-- R447. A bit of `n` quanta of (BRP + 1) port clocks has the rate source / (div × (BRP + 1) × n). -/
def State.canSetupBad (s : State) (p : Nat) : Bool :=
  let src := s.portSource p
  let div := s.portDiv p
  let nbit := 1 + (s.setup p 1 9 8 + 1) + (s.setup p 1 17 7 + 1)
  let nper := div * (s.setup p 1 0 9 + 1) * nbit
  let dbit := 1 + (s.setup p 2 5 5 + 1) + (s.setup p 2 10 4 + 1)
  let dper := div * (s.setup p 2 0 5 + 1) * dbit
  let fd := s.setup p 3 0 1 == 1
  nbit < 8 || 385 < nbit || src < 10000 * nper || 1000000 * nper < src ||
    s.setup p 1 17 7 < s.setup p 1 24 7 ||
    (fd && (dbit < 5 || nper < dper || 8000000 * dper < src || s.setup p 2 10 4 < s.setup p 2 14 4 ||
      (s.setup p 2 25 1 == 0 && 2000000 * dper < src)))

/-- R452: TICK and NIBBLES in range. -/
def State.sentSetupBad (s : State) (p : Nat) : Bool :=
  let tick := s.setup p 1 0 10
  let nib := s.setup p 1 10 3
  tick < 30 || 900 < tick || nib < 1 || 6 < nib

/-- SLOT_START_k of a PSI5 port (R458). -/
def State.psiStart (s : State) (p k : Nat) : Nat := s.setup p (2 + k / 2) (16 * (k % 2)) 16

/-- R458: BITS, SLOTS, SYNC_PERIOD in range, slot starts ascending. -/
def State.psiSetupBad (s : State) (p : Nat) : Bool :=
  let bits := s.setup p 1 2 5
  let slots := s.setup p 1 8 3
  let sync := s.setup p 1 1 1 == 1
  let period := s.setup p 1 11 20
  bits < 10 || 28 < bits || slots < 1 || 6 < slots || (!sync && slots != 1) ||
    period < 100 || 1000000 < period ||
      (List.range (slots - 1)).any (fun k => decide (s.psiStart p (k + 1) ≤ s.psiStart p k))

/-- R437, R461: SCLK = port clock / (2 × (DIV + 1)) at most 40 MHz. -/
def State.spiSetupBad (s : State) (p : Nat) : Bool :=
  40000000 * (s.portDiv p * (2 * (s.setup p 1 0 8 + 1))) < s.portSource p

/-- R437, R465: push-pull SCL at most 12.5 MHz, legacy SCL at most 1 MHz; open-drain SCL at most
4.17 MHz by MIPI I3C Basic v1.1.1 (PRESUMED, log 30). -/
def State.i3cSetupBad (s : State) (p : Nat) : Bool :=
  let src := s.portSource p
  let div := s.portDiv p
  12500000 * (div * (2 * (s.setup p 1 0 6 + 1))) < src ||
    4170000 * (div * (2 * (s.setup p 1 6 8 + 1))) < src ||
    1000000 * (div * (2 * (s.setup p 1 14 10 + 1))) < src

/-- R472: no multicast port address; with PLCA_EN = 1 its values in range. -/
def State.t1sSetupBad (s : State) (p : Nat) : Bool :=
  s.setup p 1 0 1 == 1 ||
    (s.setup p 2 16 1 == 1 &&
      (s.setup p 3 0 8 == 255 || s.setup p 3 8 8 == 0 || s.setup p 3 16 8 == 0 || s.setup p 4 0 8 == 0))

/-- The setup breaks a limit of its protocol (R437). -/
def State.setupBad (s : State) (p : Nat) : Bool :=
  match s.portType p with
  | 1 => s.canSetupBad p
  | 2 => s.sentSetupBad p
  | 3 => s.psiSetupBad p
  | 4 => s.spiSetupBad p
  | 5 => s.i3cSetupBad p
  | 6 => s.t1sSetupBad p
  | _ => false

/-! ## Signals (R407, R408, R438) -/

/-- A signal is bound to a pin. -/
def State.sigBound (s : State) (p sig : Nat) : Bool :=
  (usedSigs (s.portType p)).contains sig && !(s.sigPins p sig).isEmpty

/-- PIN_CONFLICT (R408). -/
def State.pinConflict (s : State) (p : Nat) : Bool :=
  (List.range 16).any (fun g => decide (1 < (s.sigPins p g).length))

/-- CS of an SPI partner (R462). -/
def Partner.spiCs (q : Partner) : Nat := field q.addr0 0 3

/-- The chip selects that the port's VALID partners name (R461). -/
def State.spiCss (s : State) (p : Nat) : List Nat :=
  (s.partners.filter (fun e => e.2.valid && e.2.port == p)).map (fun e => e.2.spiCs)

/-- SIG_MISSING (R408, R438 and the protocols' tables). -/
def State.sigMissing (s : State) (p : Nat) : Bool :=
  let need := fun l => l.any (fun g => !s.sigBound p g)
  match s.portType p with
  | 1 => need [0, 1]
  | 2 => need (if s.setup p 1 17 1 = 1 then [0, 1] else [0])
  | 3 => need (if s.setup p 1 1 1 = 1 then [0, 1] else [0])
  | 4 => need [0] || (!s.sigBound p 1 && !s.sigBound p 2) || need ((s.spiCss p).map (· + 3))
  | 5 => need [0, 1]
  | 6 => need [0, 1, 2, 3, 4, 5, 7, 8, 9, 10, 11, 12, 14, 15]
  | _ => false

/-! ## Port states (R410, R411) -/

def State.stopMode (s : State) : Bool :=
  match s.mode.mode with
  | .reset | .load | .hold => true
  | .wake => decide (s.mode.wakeStep < 4)
  | _ => false
def State.stopBank (s : State) (p : Nat) : Bool := !s.bankLive (p / 2)
def State.stopReload (s : State) (p : Nat) : Bool := (s.isl (p / 2)).portsStopped

/-- The clock or the setup of the port breaks a limit. -/
def State.portFault (s : State) (p : Nat) : Bool := s.clockFault p || s.setupBad p

/-- The port microcode does not support TYPE: none that the compatibility rules accept lacks one (R439). -/
def State.microcodeLacks (s : State) (p : Nat) : Bool :=
  s.ldr.pmlRefused && !Config.microcodeSupports s.ldr.pml (s.portType p)

/-- STATE of R410. -/
def State.portState (s : State) (p : Nat) : Nat :=
  if (s.port p).retired then 5
  else if s.portType p = 0 then 0
  else if s.portFault p || s.sigMissing p || s.microcodeLacks p then 1
  else if s.portOwner p = none || !(s.port p).run then 2
  else if s.stopMode || s.stopBank p || s.stopReload p then 3
  else 4

def State.portActive (s : State) (p : Nat) : Bool := s.portState p == 4

/-- A transfer is in progress on a port: an armed one, a frame of PORT_XMIT, the start sequence, or a request
pulse. -/
def Port.transferring (x : Port) : Bool := x.busy.isSome || !x.txq.isEmpty || x.starting || x.requested.isSome

/-! ## What a port drives on its pins (R407, R445, R471) -/

/-- INV of a pin's slot. -/
def State.pinInv (s : State) (b p : Nat) : Bool := s.pinSlot b p 21 1 == 1

/-- The SPI partner whose transfer is in progress: an armed one, or the frame of PORT_XMIT that is being sent. -/
def Port.selects (x : Port) : Option Nat := x.busy.or (x.txq.head?.map TxFrame.partner)

/-- The level of a chip select that VALID partners name: asserted for the whole of a transfer of one of them, and
else not (R461 to R463). -/
def State.selectLevel (s : State) (k cs : Nat) : Option Bool :=
  match (s.port k).selects.filter (fun i => (s.partner i).spiCs == cs) with
  | some i => some (bitAt (s.partner i).addr0 11)
  | none =>
    (s.partners.find? (fun e => e.2.valid && e.2.port == k && e.2.spiCs == cs)).map (fun e => !bitAt e.2.addr0 11)

/-- The level that the rules give an output of a port in ACTIVE: STBY of CAN and TX_ER of 10BASE-T1S low (R445,
R471), SPC_OUT and SYNC_OUT high for their pulses (R451, R457), a chip select as its transfers have it. The others
follow the timing of their protocol's bits. -/
def State.sigLevel (s : State) (k sig : Nat) : Option Bool :=
  match s.portType k with
  | 1 => if sig = 2 then some false else none
  | 2 | 3 => if sig = 1 then some (decide (s.coreNs < (s.port k).pulseEnd)) else none
  | 4 => if 3 ≤ sig then s.selectLevel k (sig - 3) else none
  | 6 => if sig = 6 then some false else none
  | _ => none

/-- STBY of CAN is driven high wherever the port is not in ACTIVE: what R445 says of the one signal goes before
what R411 says of every bound pin (DEDUCED, log 36). Where R173 has stopped the home ports, every bound pin takes its
shore state, this one too. -/
def State.sigHigh (s : State) (k sig : Nat) : Bool := s.portType k == 1 && sig == 2 && !s.stopReload k

/-- The signals of a TYPE that are inputs alone (R445, R451, R457, R461, R471). -/
def inputSigs (type : Nat) : List Nat :=
  match type with
  | 1 => [1]
  | 2 => [0]
  | 3 => [0]
  | 4 => [2]
  | 6 => [0, 7, 8, 9, 10, 11, 12, 13, 14, 15]
  | _ => []

/-- SDA of an I3C port, the one signal that is both in and out (R464). -/
def State.sigSda (s : State) (k sig : Nat) : Bool := s.portType k == 5 && sig == 1

/-- The bus of an I3C port is in an open-drain phase; one without a transfer is (R464; log 60). -/
def State.busOpen (s : State) (k : Nat) : Bool := !(s.port k).transferring || Config.openDrain s.coreNs k

/-- A port in ACTIVE drives a signal now: never an input, always an output; SDA as the phase of its protocol has
it, in an open-drain phase low or not at all (R464). -/
def State.sigDriven (s : State) (k sig : Nat) : Bool :=
  !(inputSigs (s.portType k)).contains sig &&
    (!s.sigSda k sig ||
      (Config.portDrives s.coreNs k sig && !(s.busOpen k && Config.portLevel s.coreNs k sig)))

/-- The level that a port in ACTIVE drives at a pin bound to it, INV applied (R407). -/
def State.portDrive (s : State) (b p : Nat) : Option Bool :=
  let k := s.pinPort b p
  let sig := s.pinSig b p
  match s.sigLevel k sig with
  | some v => some (xor v (s.pinInv b p))
  | none =>
  if s.sigDriven k sig then some (xor (Config.portLevel s.coreNs k sig) (s.pinInv b p))
  else none

/-- What a pin bound to a port shows in an enabled bank, whatever the port's state (R411, R445). -/
def State.boundDrive (s : State) (b p : Nat) : Option Bool :=
  let k := s.pinPort b p
  if !s.bankLive b then none
  else if s.portActive k then s.portDrive b p
  else if s.sigHigh k (s.pinSig b p) then some (!s.pinInv b p)
  else if s.portState k ≤ 1 then none
  else s.shoreDrive b p

/-- Keep-last of the pins bound to ports takes what they show at this instant (R171). -/
def State.keepBound (s : State) (i : Nat) (x : Isl) : Isl := x.keep_ (s.portBound i) (s.boundDrive i)

/-- A port's pins take their shore states at the moment it leaves ACTIVE: keep-last holds what they drove then
(R171, R411; log 52). -/
def State.keepPort (s : State) (k : Nat) : State :=
  let b := k / 2
  s.modIsl b (fun x => x.keep_ (fun p => s.portBound b p && s.pinPort b p == k) (s.portDrive b))

/-- HP_STATE (R413). -/
def State.hpState (s : State) (p : Nat) : Nat :=
  s.portState p + flag s.stopMode 8 + flag (s.stopBank p) 9 + flag (s.stopReload p) 10 +
    flag (s.pinConflict p) 16 + flag (s.sigMissing p) 17 + place (s.port p).cause 20 2

/-- Protocol registers at their reset values (R444). -/
def Port.protoReset (x : Port) : Port :=
  { x with
    tec := 0, rec_ := 0, busOff := false, lastError := 0, tdc := 0,
    recovering := false, offSince := 0, lastTick := 0, noResponse := 0, requested := none, follow := none,
    lastCal := none, serial := [], syncCount := 0, syncs := [], slotSeen := 0, skipped := 0,
    addrs := [], unaddressed := [], daaDone := false, unknown := 0, starting := false, busy := none, due := [], clocked := false
    pulseEnd := 0
    collisions := 0 }

/-- The frames handed to a port end with a reason of R441. -/
def State.failTx (s : State) (p reason : Nat) : State :=
  let q := (s.port p).txq
  let s := s.modPort p (fun x => { x with
    txq := [], txFailed := satAdd 0xFFFFFFFF x.txFailed q.length })
  overList q (fun f s => s.wakeThread f.ring 0x13 reason) s

/-- A port enters ACTIVE (R410, R444, R467). -/
def State.portStarts (s : State) (p : Nat) : State :=
  (s.modPort p (fun x => { x.protoReset with
      starting := s.portType p == 5 && s.setup p 1 24 1 == 1 })).event
    0x0501 0 (scopeO (s.portOwner p)) [(1, p), (1, 0), (2, 0xFFFF), (1, s.portType p)]

/-- A port leaves ACTIVE, and with it a start sequence (R410, R411, R467). -/
def State.portStops (s : State) (p : Nat) : State :=
  let s := (s.keepPort p).modPort p (fun x => { x with starting := false })
  ((s.failTx p 10).wakeAll (fun w => w == .txSpace p)).event 0x0502 1 (scopeO (s.portOwner p))
    [(1, p), (3, 0), (2, s.hpState p % 65536)]

/-- The effects of a change of a port's state (R410). -/
def State.refreshPort (s : State) (p : Nat) : State :=
  let now := s.portState p
  let was := (s.port p).seen
  if now = was then s
  else
    let s := s.modPort p (fun x => { x with seen := now })
    let s := if was = 4 then s.portStops p else s
    let s := if now = 4 then s.portStarts p else s
    if now = 1 then
      s.event 0x0504 2 (scopeO (s.portOwner p))
        [(1, p), (3, 0), (1, flag (s.pinConflict p) 0 + flag (s.sigMissing p) 1 + flag (s.portFault p) 2)]
    else s

/-- Every port's state looked at again. -/
def State.refreshPorts (s : State) : State := overAll 96 (fun p s => s.refreshPort p) s

end Sys2Proof.Machine
end

