-- ==== Sys2Proof/Machine/Seals.lean ====
section
/-! DEFINITION. Accesses to user logic (R73 to R76), the seal of an island (R170 to R173), its
load state (R174 to R177), and what a release needs and does (R178 to R181). -/

namespace Sys2Proof.Machine

/-! ## Accesses to user logic -/

/-- The answer of an access reaches its requester: a status of R383 and the data read. A window
write is posted, and a window read has no error on the link (R19). -/
def State.accessDone (s : State) (a : FabAccess) (status : Nat) (words : List Word) : State :=
  match a.who with
  | .ring r => s.wakeThread r status (wordsNat words)
  | .window t => if a.write then s else s.complete (.cpl t words)
  | .keeper | .dma _ => s

/-- Zeros for the words that an access reads. A read of 64 bits whose second half is not completed returns zero
for both halves, whatever the first one gave (DESIGN CHOICE, log 61). -/
def FabAccess.zeros (a : FabAccess) : List Word :=
  if a.upper.isSome || !a.got.isEmpty then [0, 0] else [0]

/-- A thread's access is made: its instruction has made an access once (R353). -/
def State.madeOnce (s : State) (who : Requester) : State :=
  match who with
  | .ring r => s.modThr r (fun t => { t with cur := t.cur.map (fun c => { c with once := true }) })
  | .keeper | .window _ | .dma _ => s

/-- An access becomes the outstanding one of an island: an edge of the interface clock begins its UREQ cycle
(R75). -/
def State.present (s : State) (i : Nat) (a : FabAccess) : State :=
  (s.modIsl i (fun x => { x with ureg := { x.ureg with busy := some a, shown := false, ack := none } })).madeOnce a.who

/-- The access in progress ends; the next one that waits is presented (R24, X6). What the interface drives
changes at its clock's edges alone (R75). -/
def State.nextAccess (s : State) (i : Nat) : State :=
  match (s.isl i).ureg.waiting with
  | [] => s.modIsl i (fun x => { x with ureg := { x.ureg with busy := none, shown := false, ack := none } })
  | a :: rest =>
    (s.modIsl i (fun x => { x with ureg := { x.ureg with waiting := rest } })).present i a

/-- An access asks for the island's interface: presented at once, or it waits (R24, X6). -/
def State.askAccess (s : State) (i : Nat) (a : FabAccess) : State :=
  if (s.isl i).ureg.busy = none then s.present i a
  else s.modIsl i (fun x => { x with ureg := { x.ureg with waiting := x.ureg.waiting ++ [a] } })

/-- A requester has an access outstanding or waiting at an island's logic: a ring's DIA_ACCESS rows and its
thread are one requester. -/
def State.outstanding (s : State) (who : Requester) : Bool :=
  s.islands.any (fun e => (e.2.ureg.busy.toList ++ e.2.ureg.waiting).any (fun a => reqLatch a.who == reqLatch who))

/-- What the end of an island's accesses makes of the outstanding one: the edge that sampled its UACK has
completed it (R75); otherwise it ends with the status, and a read returns zero (R76). One of 64 bits with its second
half to come has not been completed. -/
def FabAccess.ended (a : FabAccess) (ack : Option Word) (status : Nat) : Nat × List Word :=
  match a.upper, ack with
  | none, some rdata => (0, if a.write then [] else a.got ++ [rdata])
  | _, _ => (status, a.zeros)

/-- Every access at an island ends with a status, reads returning zero (R76). -/
def State.endAccesses (s : State) (i status : Nat) : State :=
  let u := (s.isl i).ureg
  let s := s.modIsl i (fun x => { x with ureg := {} })
  let s := overList u.busy.toList (fun a s =>
    s.accessDone a (a.ended u.ack status).1 (a.ended u.ack status).2) s
  overList u.waiting (fun a s => s.accessDone a status a.zeros) s

/-! ## Sealing -/

/-- SEAL_ON (R201). -/
def State.sealOn (s : State) (i : Nat) (why : Reason) : State :=
  s.event 0x0310 0 (scopeO (s.islandOwner i)) [(1, i), (1, 0), (2, 0), (1, why.bit)]

/-- The sealed state is applied to an island (R171): pins keep-last at this instant, registers
at INIT, causeways at 0, the leave port and the accesses ended. A harbour port's pins run on (R173). -/
def State.applySeal (s : State) (i : Nat) : State :=
  let kept := fun x => s.keepBound i (s.keepFabric i x)
  let s := s.endAccesses i 0x24
  let mine := fun w => w == Asker.island i
  let s := (s.leaveWithdraw mine).leaveFree mine
  s.modIsl i (fun x => { kept x with user := s.initBits i, cause := 0, leave := {} })

/-- The sealed state returns to an island whose release had left it and does not go on (R41, R178). -/
def State.sealAgain (s : State) (i : Nat) : State :=
  if (s.isl i).release.any Release.left then
    (s.applySeal i).modIsl i (fun x => { x with release := x.release.map (fun r => { r with left := false }) })
  else s

/-- A seal reason arrives (R170). The first one applies the sealed state and logs SEAL_ON. -/
def State.sealIsland (s : State) (i : Nat) (why : Reason) : State :=
  if (s.isl i).sealed then (s.sealAgain i).modIsl i (fun x => x.addReason why)
  else ((s.applySeal i).modIsl i (fun x => x.addReason why)).sealOn i why

/-- The exception of R173: the home ports stop until the release. -/
def State.stopHomePorts (s : State) (i : Nat) : State :=
  let s := s.modIsl i (fun x => { x with portsStopped := true })
  (s.refreshPort (2 * i)).refreshPort (2 * i + 1)

/-! ## Load states -/

/-- An island's load becomes INCOMPLETE (R176, R401). -/
def State.incomplete (s : State) (i : Nat) : State :=
  (s.modIsl i (fun x => { x with loadState := .incomplete, frameLoad := none })).unitFault
    (s.islandOwner i) 8

/-- LOAD_ABANDONED (R176): the event's number and the status. -/
def State.abandoned (s : State) (i event status : Nat) : State :=
  (s.incomplete i).event 0x0313 1 (scopeO (s.islandOwner i)) [(1, i), (3, 0), (1, event), (1, status)]

/-- The frame-instruction loads of a ring are abandoned (R176). -/
def State.abandonRing (s : State) (r event status : Nat) : State :=
  overAll 48 (fun i s =>
    match (s.isl i).frameLoad with
    | some f => if f.ring = r then s.abandoned i event status else s
    | none => s) s

/-! ## Release (R178, R179) -/

/-- A load on the island has not ended, or ended without completing (R174, R178). -/
def Isl.unfinished (x : Isl) : Bool := x.loadState == .open || x.loadState == .incomplete

/-- A START_FULL outside LOAD, which has sealed every island, is in progress (R128). -/
def State.fullLoading (s : State) : Bool :=
  s.mode.mode != .load && s.ldr.load.any (fun l => l.full && l.phase == .body)

/-- The load that a LOAD reason stands for has not completed: the island's own, or a START_FULL that has
sealed every island (R128, R170). -/
def State.loadPending (s : State) (x : Isl) : Bool := x.unfinished || (x.load && s.fullLoading)

/-- The seal reasons a mechanism may clear: QUARANTINE only once it has ended, and LOAD only once its load has
completed, where `open_` says that it has not (R170). -/
def mayClear (m : Mechanism) (open_ : Bool) (x : Isl) : Reason → Bool
  | .command | .flr => m == .instruction
  | .load => (m == .instruction || m == .loadDone || m == .wake) && !open_
  | .hold => m == .instruction || m == .wake
  | .quarantine => x.healed && m != .loadDone

/-- No reason remains once a mechanism has cleared what it may. -/
def clearsAll (m : Mechanism) (open_ : Bool) (x : Isl) : Bool :=
  [Reason.command, .load, .quarantine, .flr, .hold].all (fun r => !x.reason r || mayClear m open_ x r)

/-- A mechanism may clear every reason that holds an island now. -/
def State.clearsAll (s : State) (m : Mechanism) (i : Nat) : Bool :=
  Sys2Proof.Machine.clearsAll m (s.loadPending (s.isl i)) (s.isl i)

/-- The status with which ISLAND_RELEASE is refused for the island's state, none when the
conditions of R178 but the leave hold (R179). A LOAD reason stays until its load has completed (R170). Where the
quarantine is unrepaired and the load has not completed either, the first answers (DESIGN CHOICE, log 61). -/
def State.releaseRefusal (s : State) (i : Nat) : Option Nat :=
  let x := s.isl i
  if !s.mode.mode.executes then some 0x29
  else if x.quarantine && !x.healed then some 0x28
  else if s.loadPending x then some 0x27
  else none

/-- The quarantine of an island ends (R30, R192 step 5). -/
def Isl.endQuarantine (x : Isl) : Isl :=
  { x with quarantine := false, quarantined := false, healed := false }

/-- The reasons that a mechanism clears without a release, where another one remains (R179). -/
def Isl.clearReasons (m : Mechanism) (open_ : Bool) (x : Isl) : Isl :=
  let may := mayClear m open_ x
  { (if x.quarantine && may .quarantine then x.endQuarantine else x) with
    command := x.command && !may .command, load := x.load && !may .load, flr := x.flr && !may .flr
    hold := x.hold && !may .hold }

/-- An automatic mechanism ends without a release: it clears the reasons it may where another one remains,
and T9 follows where that ended a quarantine (R179, R192 step 5). Where HOLD is the only reason of an island
whose load is OPEN or INCOMPLETE, a wake keeps it: R33 has the island stay sealed (DEDUCED, log 19). -/
def State.clearReasons (s : State) (i : Nat) (m : Mechanism) : State :=
  let x := s.isl i
  if m = .instruction ∨ s.clearsAll m i then s
  else
    let s := s.modIsl i (Isl.clearReasons m (s.loadPending x))
    if x.quarantined && !(s.isl i).quarantined then s.recoverCause else s

/-- An ISLAND_RELEASE that HOLD has ended, whose request is queued or whose lease is held still (R365, R482). -/
def Release.ownerless (rel : Release) : Bool := rel.mech == .instruction && rel.rings.isEmpty

/-- An automatic mechanism reaches an island (R179, R180): with another reason it clears what it
may; otherwise it asks for the island-release leave, or goes on with the request that an ISLAND_RELEASE ended by HOLD
has left (DEDUCED, log 62). -/
def State.autoRelease (s : State) (i : Nat) (m : Mechanism) : State :=
  let x := s.isl i
  if !x.sealed then s
  else if !s.clearsAll m i then s.clearReasons i m
  else match x.release with
    | some rel =>
      if rel.ownerless then s.modIsl i (fun x => { x with release := some { rel with mech := m } }) else s
    | none =>
      (s.modIsl i (fun x => { x with release := some { mech := m } })).leaveAsk
        (s.deviceReq (.release i none) s.leave.defaultNs)

/-- A release ends without releasing: the threads of its ISLAND_RELEASEs get a status. -/
def State.endRelease (s : State) (i status : Nat) : State :=
  match (s.isl i).release with
  | none => s
  | some rel =>
    overList rel.rings (fun r s => s.wakeThread r status 0)
      ((s.sealAgain i).modIsl i (fun x => { x with release := none }))

/-- The mechanism that releases an island: an automatic one that clears every reason, or the ISLAND_RELEASE that
has joined it (R179, R365). -/
def State.releaseMech (s : State) (i : Nat) (rel : Release) : Mechanism :=
  if rel.rings.isEmpty || s.clearsAll rel.mech i then rel.mech else .instruction

/-- A release ends because a condition of R178 no longer holds: its lease goes, its instructions get the
status, and an automatic mechanism clears what it still may (R179, R482). -/
def State.stopRelease (s : State) (i status : Nat) : State :=
  match (s.isl i).release with
  | none => s
  | some rel =>
    (((s.endRelease i status).leaveWithdraw (isRelease i)).releaseLeaseEnds i).clearReasons i rel.mech

/-- The leave of a release is refused (R180). -/
def State.releaseDenied (s : State) (i status : Nat) : State :=
  let s := s.modIsl i (fun x => { x with leaveDenied := true })
  let s := s.event 0x0312 1 (scopeO (s.islandOwner i)) [(1, i), (3, 0), (1, status)]
  s.endRelease i status

/-- Island clocks of an island that are enabled and have had an edge in the last 10 µs. -/
def State.liveClocks (s : State) (i : Nat) : List Nat :=
  (List.range 4).filter (fun j => s.iclkEn i j && s.clocks.lineActive.getLsbD (s.iclkLine i j))

/-- Enabled island clocks whose line is without edges: their registers stay in reset (R182). -/
def State.deadClocks (s : State) (i : Nat) : Nat :=
  maskOf 4 (fun j => s.iclkEn i j && !s.clocks.lineActive.getLsbD (s.iclkLine i j))

/-- The product-term clocks' levels are looked at anew, where registers leave their reset: a level is no edge
(R66, R69). -/
def State.watchClocks (s : State) (i : Nat) : State := s.modIsl i (fun x => { x with ptclk := s.ptLevels i })

/-- Both home ports' states are looked at again. -/
def State.refreshHome (s : State) (i : Nat) : State := (s.refreshPort (2 * i)).refreshPort (2 * i + 1)

/-- An island release enables its bank when it is present, without a leave of its own (R220). A lease taken for it
before has met its event (R479). -/
def State.releaseBank (s : State) (b : Nat) : State :=
  if s.bankPresent b then
    ((s.leaveWithdraw (· == Asker.bank b)).modBank b (fun x => { x with enabled := true, asking := false, retry := false })
      ).leaveEnding (· == Asker.bank b)
  else s

/-- The rings of a release's ISLAND_RELEASEs whose tenant still passes the charter check (R397). -/
def State.ownerRings (s : State) (i : Nat) (rel : Release) : List Nat :=
  rel.rings.filter (fun r => ownedBy (s.islandOwner i) (ringTenant r))

/-- The conditions of R178 hold for a release whose leave has been granted (R178, R179). -/
def State.releaseGoes (s : State) (i : Nat) (rel : Release) : Bool :=
  rel.granted && !s.entersHold && s.mode.mode != .wake && (rel.mech != .instruction || s.ownerRings i rel != []) &&
    (s.releaseRefusal i).isNone && s.clearsAll (s.releaseMech i rel) i

/-- Step 4 of a release that the freeze has kept waiting: it comes as the clocks restart, before the registers
leave their reset (R41, R182), and the release's lease is held for DURATION from it (R479). -/
def State.leaveSeal (s : State) (i : Nat) : State :=
  match (s.isl i).release with
  | some rel =>
    if s.releaseGoes i rel then
      let s := s.modIsl i (fun x => { x with
        portsStopped := false, release := some { rel with left := true } })
      ((s.releaseBank i).refreshHome i).leaveEnding (isRelease i)
    else s
  | none => s

/-- Steps 3 to 5 of R181: the island leaves the seal, its reasons cleared, its load state NONE. -/
def State.unseal (s : State) (i : Nat) (m : Mechanism) : State :=
  let s := s.modIsl i (fun x =>
    { x.endQuarantine with
      command := false, load := false, flr := false, hold := false
      loadState := .none, leaveDenied := false, portsStopped := false, release := none
      coldClocks := BitVec.ofNat 4 (s.deadClocks i), user := s.initBits i })
  let s := s.watchClocks i
  (s.event 0x0311 0 (scopeO (s.islandOwner i)) [(1, i), (3, 0), (1, m.code)]).refreshHome i

end Sys2Proof.Machine
end

