-- ==== Sys2Proof/Machine/LeaveGrant.lean ====
section
/-! DEFINITION. How the power leave unit answers requests (R478 to R482, R490, R491): admission,
the queue, and what each outcome does for its requester; then the end of a step. -/

namespace Sys2Proof.Machine

/-! ## Admission (R478) -/

/-- The mode lets a grant be made (R478, 4). -/
def State.grantMode (s : State) : Bool :=
  match s.mode.mode with
  | .reset | .hold => false
  | _ => true

/-- The checks of R478 for a cost, and WARN_STOP of R488. -/
def State.admits (s : State) (c : Nat) : Bool :=
  let l := s.leave
  decide (l.floor + l.reserved + c ≤ l.budget) &&
    decide (l.measured + l.inTransient + c ≤ l.budget) && !l.overBudget && s.grantMode &&
    decide (l.leases.length < 256) && !(l.warnStop && l.temp.warn)

/-- A request of kind 1 to 5 with COST 0 needs no reservation (R479). -/
def LeaveReq.free (q : LeaveReq) : Bool := 1 ≤ q.who.kind && q.who.kind ≤ 5 && q.cost == 0

/-- A request passes (R478, R479, R523). -/
def State.passes (s : State) (q : LeaveReq) : Bool := !q.held && (q.free || s.admits q.cost)

/-- FLOOR + c > BUDGET (R481). -/
def State.exceeds (s : State) (q : LeaveReq) : Bool :=
  !q.free && decide (s.leave.budget < s.leave.floor + q.cost)

/-! ## Who asked (R490, R491, R505) -/

/-- The tenant whose function is told, if any (R490). -/
def State.askTenant (s : State) : Asker → Option Nat
  | .release _ t => t
  | .island i => s.islandOwner i
  | .program r => some (ringTenant r)
  | _ => none

/-- The requester as an event shows it: the island, or the tenant and the ring (R491). -/
def askFields (q : LeaveReq) : List (Nat × Nat) :=
  let (i, t, r) := match q.who with
    | .release i _ | .bank i | .island i => (i, 0xFF, 0xFF)
    | .program r => (0xFF, ringTenant r, r)
    | _ => (0xFF, 0xFF, 0xFF)
  [(1, q.who.kind), (1, i), (1, t), (1, r), (2, q.cost)]

/-- Vector 6 for a denial or a timeout (R490). -/
def State.leaveNotice (s : State) (who : Asker) : State :=
  let s := s.raise 0 6
  match s.askTenant who with
  | some t => if t = 0 then s else s.raise t 6
  | none => s

/-! ## Outcomes -/

/-- The burst sweep starts at the current position (R185). -/
def State.burstStarts (s : State) : State :=
  s.modTide (fun t => { t with
    burst := true, burstWait := false, burstLeft := 8192, burstFirst := t.position, burstCycles := 0 })

/-- A burst is refused: outcome 1 denied or 2 timed out, and the reason (R185, R202). -/
def State.burstRefused (s : State) (outcome reason : Nat) : State :=
  let s := s.modTide (fun t => { t with burstWait := false, burstDenied := true })
  (s.event 0x0308 1 scopeS
    [(1, 0xFF), (1, 0), (2, faddrOf s.tide.position), (1, outcome), (1, reason)]).raise 0 8

/-- A bank is enabled under its leave, and its home ports restart (R220). In WAKE, in HOLD and on the way there no
bank is enabled under a leave of its own: its lease is held (R483) until the bank is enabled, by a wake's step 4, a
release or the next mode that enables it (DEDUCED, log 60), and one whose bank is enabled already has met that event
(R479). -/
def State.enableBank (s : State) (b : Nat) : State :=
  let s := s.modBank b (fun x => { x with asking := false })
  if !s.executing || !s.bankPresent b then
    if (s.bank b).enabled then s.leaveEnding (· == Asker.bank b) else s
  else
  let s := s.modBank b (fun x => { x with enabled := true, asking := false, retry := false })
  let s := (s.refreshPort (2 * b)).refreshPort (2 * b + 1)
  (s.event 0x0142 0 (scopeO (s.islandOwner b)) [(1, b)]).leaveEnding (· == Asker.bank b)

/-- A grant of the island-release leave: the conditions of R178 are looked at again, and where one
fails, or HOLD has ended the instruction, the lease goes and the release ends as R179 states (R482). -/
def State.releaseGranted (s : State) (i handle : Nat) : State :=
  match (s.isl i).release with
  | none => s.leaveDrop handle
  | some rel =>
    if rel.ownerless then s.stopRelease i 0x29
    else match s.releaseRefusal i with
    | some status => s.stopRelease i status
    | none =>
      if s.clearsAll (s.releaseMech i rel) i then
        s.modIsl i (fun x => { x with release := some { rel with granted := true } })
      else s.stopRelease i 0x28

/-- DMA_RATE_LEAVE (R267): 1 grant, 2 denial, 3 timeout, 4 release. -/
def State.rateEvent (s : State) (outcome : Nat) : State :=
  s.event 0x0411 0 scopeS [(1, 0xFF), (1, outcome)]

/-- What a grant does for its requester; `handle` names the lease taken. -/
def State.grantEffect (s : State) (who : Asker) (handle : Nat) : State :=
  match who with
  | .release i _ => s.releaseGranted i handle
  | .bank b => s.enableBank b
  | .burst => s.burstStarts
  | .dmaRate =>
    (s.modDma (fun d => { d with rate := .held, capRun := 0, quietRun := 0 })).rateEvent 1
  | .island i => s.modIsl i (fun x => { x with leave := { x.leave with granted := true } })
  | .program r => s.wakeThread r 0 handle
  | .wake | .synth _ => s

/-- A request is granted (R479). -/
def State.grant (s : State) (q : LeaveReq) : State :=
  if q.free then s.grantEffect q.who 0
  else
    let (h, s) := s.leaveTake q.who q.cost q.duration
    s.grantEffect q.who h

/-- The DMA rate leave is refused: the device asks again 1 ms later (R267). -/
def State.rateRefused (s : State) (outcome : Nat) : State :=
  (s.modDma (fun d => { d with rate := .none, capRun := 0, retryWindows := 1000 })).rateEvent outcome

/-- What a refusal does for its requester: a status of R383, and the reason of a denial. -/
def State.refusedEffect (s : State) (who : Asker) (status reason : Nat) : State :=
  match who with
  | .release i _ => s.releaseDenied i status
  | .bank b => s.modBank b (fun x => { x with asking := false, retry := true })
  | .burst => s.burstRefused (status - 0x2F) reason
  | .dmaRate => s.rateRefused (status - 0x2E)
  | .island i => s.modIsl i (fun x => { x with leave := { x.leave with denied := true } })
  | .program r => s.wakeThread r status reason
  | .wake | .synth _ => s

/-- A request is denied (R481, R490, R491). -/
def State.deny (s : State) (q : LeaveReq) (reason : Nat) : State :=
  let s := s.modLeave (fun l => { l with denials := satInc32 l.denials, stale := true })
  let s :=
    if q.who = .dmaRate then s
    else s.event 0x0701 1 (scopeO (s.askTenant q.who)) (askFields q ++ [(1, reason)])
  (s.refusedEffect q.who 0x30 reason).leaveNotice q.who

/-- A request's timeout has passed (R481, R490, R491). -/
def State.timeOut (s : State) (q : LeaveReq) : State :=
  let s := s.modLeave (fun l => { l with timeouts := satInc32 l.timeouts, stale := true })
  let s :=
    if q.who = .dmaRate then s
    else s.event 0x0702 1 (scopeO (s.askTenant q.who))
      (askFields q ++ [(2, 0), (4, (s.coreNs - q.at_) / 1000)])
  (s.refusedEffect q.who 0x31 0).leaveNotice q.who

/-! ## The queue (R480) -/

/-- A request put behind those of its own and of higher priority. -/
def enqueue (q : LeaveReq) : List LeaveReq → List LeaveReq
  | [] => [q]
  | x :: xs => if x.prio < q.prio then q :: x :: xs else x :: enqueue q xs

/-- Grants from the head for as long as the head passes. -/
def State.grantHeads : Nat → State → State
  | 0, s => s
  | n + 1, s =>
    match s.leave.queue with
    | [] => s
    | q :: rest =>
      if s.passes q then
        State.grantHeads n ((s.modLeave (fun l => { l with queue := rest })).grant q)
      else s

/-- The evaluation of the queue, where something has come that R480 evaluates it at. -/
def State.evaluateLeave (s : State) : State :=
  if s.leave.stale then
    (State.grantHeads s.leave.queue.length s).modLeave (fun l => { l with stale := false })
  else s

/-- The test unit perturbs a request of this kind (R523). -/
def State.leavePerturbed (s : State) (k : Nat) : Bool :=
  s.mode.mode == .test && bitAt s.ptu.lvKinds k && k != 0 && k != 3

/-- A request arrives (R481, R523). -/
def State.leaveArrives (s : State) (q : LeaveReq) : State :=
  let q := { q with at_ := s.coreNs }
  let hit := s.leavePerturbed q.who.kind
  if hit && s.ptu.lvDeny then s.deny q 4
  else
    let q := { q with held := hit && s.ptu.lvDelay != 0 }
    if q.free && !q.held then s.grant q
    else if s.exceeds q then s.deny q 1
    else if q.who.kind = 6 ∧ q.cost = 0 then s.deny q 2
    else if 64 ≤ s.leave.queue.length then s.deny q 3
    else s.modLeave (fun l => { l with queue := enqueue q l.queue, stale := true })

/-- The order in which requests of one core cycle arrive (R480): kind, island, ring. -/
def askOrder : Asker → Nat
  | .release i _ => 65536 + i
  | .island i => 6 * 65536 + i
  | .program r => 7 * 65536 + r
  | w => w.kind * 65536

/-- The place of a request among those on their way: by its core cycle, then as R480 orders one cycle's. -/
def LeaveReq.order (q : LeaveReq) : Nat := q.at_ * 2 ^ 20 + askOrder q.who

/-- Removes a queued request, giving it. -/
def Leave.takeOut (l : Leave) (who : Asker) : Option (LeaveReq × Leave) :=
  match l.queue.find? (fun q => q.who == who) with
  | some q => some (q, { l with queue := l.queue.filter (fun x => x.who != who), stale := true })
  | none => none

/-! ## The end of a step -/

/-- The end of a step: the leave queue, the mode mirror, FAULT_N, then the step's events. -/
def State.finish (s : State) : State := s.evaluateLeave.settleMirror.settle

/-- The answer of a meaning: the state after its step has ended. -/
def answer (s : State) : Host.Outcome State Fault Refusal := .next s.finish

end Sys2Proof.Machine
end

