-- ==== Sys2Proof/Machine/RingBase.lean ====
section
/-! DEFINITION. Rings (11): the fill and its watermark, ring faults, lost records, and which threads
may run. -/

namespace Sys2Proof.Machine

/-- Slots of a ring's memory. -/
def Ring.slots (x : Ring) : Nat := 2 ^ x.size

/-- The fill of an ISSUE or RETURN ring (R290). -/
def Ring.fill (x : Ring) : Nat := dist32 x.tail x.head

/-- The ring number that CPL names (R291). -/
def State.cplRing (s : State) (r : Nat) : Nat := 4 * ringTenant r + (s.ring r).cpl

/-! ## Watermarks (R313) -/

/-- LEVEL looked at again; a notice goes out at the first upward crossing after ARM was set. A LEVEL of 1 that a ring
without watermarks has kept from before clears without LO_SEEN (DESIGN CHOICE, log 59). -/
def State.waterline (s : State) (r : Nat) : State :=
  let x := s.ring r
  if x.kind = 2 ∨ x.wmHi = 0 ∨ x.wmHi ≤ x.wmLo then s.modRing r (fun x => { x with level := false })
  else if !x.level && decide (x.wmHi ≤ x.fill) then
    let s := s.modRing r (fun x => { x with
      level := true, hiSeen := true, wmCount := min 15 (x.wmCount + 1), arm := false })
    if x.arm then s.raise (ringTenant r) (ringLocal r) else s
  else if x.level && decide (x.fill ≤ x.wmLo) then
    s.modRing r (fun x => { x with level := false, loSeen := true })
  else s

def State.setHead (s : State) (r v : Nat) : State :=
  (s.modRing r (fun x => { x with head := v % 2 ^ 32 })).waterline r
def State.setTail (s : State) (r v : Nat) : State :=
  (s.modRing r (fun x => { x with tail := v % 2 ^ 32 })).waterline r

/-- The largest value of a tally (R418). -/
def tallyMax : Nat := 2 ^ 48 - 1

def Partner.reject (x : Partner) (n : Nat) : Partner := { x with rejected := satAdd tallyMax x.rejected n }

/-- Frames counted in a partner's REJECTED. -/
def State.rejectFrames (s : State) (i n : Nat) : State := s.modPartner i (fun x => x.reject n)

/-! ## Faults and lost records -/

/-- Threads that wait to write a record into a ring look again (R303, R305). -/
def State.recordRetry (s : State) (dst : Nat) : State := s.wakeAll (fun w => w == .record dst)

/-- A ring fault (R306). A flush in progress goes on to its end. -/
def State.ringFault (s : State) (r code status : Nat) : State :=
  let s := s.modRing r (fun x => { x with
    state := if x.state == .flushing then .flushing else .stopped
    timer := false, fault := true
    faultCode := if x.fault then x.faultCode else code
    faultStatus := if x.fault then x.faultStatus else status })
  let s := s.tenFault (ringTenant r) 0 (ringLocal r) status
  let s := s.event 0x0430 2 (ringTenant r)
    [(1, ringTenant r), (1, r), (1, (s.ring r).faultCode), (1, (s.ring r).faultStatus), (4, (s.ring r).head)]
  s.recordRetry r

/-- A record that is not written (R305): counted at the ring addressed, and logged. -/
def State.recordLost (s : State) (dst : Nat) (rec : Rec) : State :=
  (s.modRing dst (fun x => { x with lost := satInc32 x.lost })).event 0x0432 1 (ringTenant dst)
    [(1, ringTenant dst), (1, dst), (1, rec.type), (1, rec.from_)]

/-- A ring accepts records: a RETURN ring in RUNNING (R305). -/
def Ring.accepts (x : Ring) : Bool := x.kind == 1 && x.state == .running

/-! ## Threads (R37, R38, R332, R386) -/

/-- Threads stand still for HOLD: in it, or in the entry to it. -/
def State.holds (s : State) : Bool := s.mode.mode == .hold || s.entersHold

/-- What a flush has found in flight has the answer it waited for, or the data it read: its next step needs no
DMA (R312). -/
def State.flushSteps (s : State) (r : Nat) : Bool :=
  (s.ring r).state == .flushing &&
    (s.thr r).cur.any (fun c => c.reply.isSome || (field (wordAt c.words 0) 24 8 == 0x30 && c.staged.isSome))

/-- A thread may go on: ferries execute, or it has not reached its boundary in the entry to HOLD from a mode in
which they do, or it is a step of a flush that goes on in every mode (R312). -/
def State.mayRun (s : State) (r : Nat) : Bool :=
  s.executing || ((s.mode.mode == .hold || (s.mode.mode.executes && s.entersHold)) && !(s.thr r).paused) ||
    (s.mode.mode != .reset && s.flushSteps r)

/-- LENGTH + 1 of an instruction, from its header (R317). -/
def insnWords (header : Nat) : Nat := field header 19 5 + 1

/-- Slots of an item, from its header (R289). -/
def itemSlots (header : Nat) : Nat := (insnWords header + 3) / 4

/-- The first item of an ISSUE ring has been fetched whole. -/
def Ring.itemFetched (x : Ring) : Bool :=
  match x.fetched with
  | [] => false
  | h :: _ => decide (4 * itemSlots h.toNat ≤ x.fetched.length)

/-- Slots below the tail that have not been fetched, of the 64 from RING_HEAD on (R296). -/
def Ring.unfetched (x : Ring) : Nat := min x.fill 64 - x.fetched.length / 4

/-- The tail lies inside the item at RING_HEAD, whose first slot has been fetched (R297). -/
def Ring.tailInside (x : Ring) : Bool :=
  match x.fetched with
  | [] => false
  | h :: _ => decide (x.fill < itemSlots h.toNat)

/-- A thread has something to do on a pair. -/
def State.hasWork (s : State) (r : Nat) : Bool :=
  let x := s.ring r
  (s.thr r).cur.isSome ||
    (x.state == .running && (x.kind == 2 || (x.kind == 0 && (x.itemFetched || x.unfetched != 0))))

/-- A thread is ready (R386). -/
def State.ready (s : State) (r : Nat) : Bool :=
  let x := s.ring r
  s.mayRun r && x.kind != 1 && (x.state == .running || (x.state == .flushing && (s.thr r).cur.isSome)) &&
    (s.thr r).wait == .none && s.hasWork r

/-- The pair a thread holds is given up. -/
def State.dropPair (s : State) (r : Nat) : State :=
  match (s.thr r).pair with
  | none => s
  | some p =>
    (s.modThr r (fun t => { t with pair := none })).modPair p (fun x => { x with held := none })

/-- A thread waits, without a pair (R332). -/
def State.waitFor (s : State) (r : Nat) (w : Wait) : State :=
  (s.dropPair r).modThr r (fun t => { t with wait := w })

/-- A thread waits to write a record of its own into a ring: the ring and the record's slots are kept
(R303). -/
def State.waitRecord (s : State) (r dst slots : Nat) : State :=
  (s.waitFor r (.record dst)).modThr r (fun t => { t with
    cur := t.cur.map (fun c => { c with dest := some (dst, slots) }) })

/-- Every thread stops where it stands; one inside a chunk first finishes it (R38). -/
def State.pauseThreads (s : State) : State :=
  overAll 32 (fun r s =>
    let mid := match (s.thr r).cur with
      | some c => c.xl.isSome || c.staged.isSome
      | none => false
    s.modThr r (fun t => { t with paused := !mid })) s

end Sys2Proof.Machine
end

