-- ==== Sys2Proof/Machine/DmaBase.lean ====
section
/-! DEFINITION. The DMA engine (10): what lets a request out, the translation cache, issuing reads
and writes, and the errors of reads and translations. -/

namespace Sys2Proof.Machine

/-! ## Permission to issue (R27, R238, R254, R262, R263, R267) -/

/-- A function may issue requests: BME, D0, no FLR, room in X2, and no L2/L3 Ready (R256). -/
def State.fnIssues (s : State) (t : Nat) : Bool :=
  (s.fn t).bme && !(s.fn t).d3hot && (s.fn t).flr.isNone && !s.forcedFull 2 && !s.link.l2

/-- Reads of a function outstanding, and all its non-posted requests (R263). -/
def Dma.readsOut (d : Dma) (t : Nat) : Nat :=
  (d.reads.filter (fun x => x.fn == t && x.got.isNone)).length
def Dma.requestsOut (d : Dma) (t : Nat) : Nat :=
  d.readsOut t + (d.trans.filter (fun x => x.fn == t)).length

/-- The shared slots of the pool in use: what each function has beyond its reserve of 8. -/
def Dma.sharedOut (d : Dma) : Nat := ((List.range 8).map (fun t => d.requestsOut t - 8)).sum

/-- A slot of the pool is free for a function (R263). -/
def Dma.slotFree (d : Dma) (t : Nat) : Bool := d.requestsOut t < 8 || d.sharedOut < 192

/-- Most non-posted requests outstanding for a function (R262). -/
def Fn.tagLimit (f : Fn) : Nat := if f.tag10 || f.extTag then 256 else 32

/-- Bytes of the completion store in use (R263). -/
def Dma.storeUsed (d : Dma) : Nat := (d.reads.map DmaRead.len).sum

/-- A non-posted request may be issued for a function: the first two conditions of R263, and no cap. -/
def State.requestAllowed (s : State) (t : Nat) : Bool :=
  s.fnIssues t && s.rateAllows && s.dma.slotFree t && decide (s.dma.requestsOut t < (s.fn t).tagLimit)

/-- A read of a length may be issued for a function (R263). -/
def State.readAllowed (s : State) (t len : Nat) : Bool :=
  s.requestAllowed t && decide (s.dma.storeUsed + len ≤ 65536)

/-- The tags that a function's reads may bear (R262): 5-bit, 8-bit, or 10-bit ones. 10-bit tags below 256
are none (PRESUMED, log 25: PCI Express Base Specification 4.0). -/
def Fn.tags (f : Fn) : List Nat :=
  if f.tag10 then (List.range 768).map (· + 256) else List.range (if f.extTag then 256 else 32)

/-- The lowest of a function's tags that no read outstanding bears, with its function. -/
def State.freeTag (s : State) (t : Nat) : Nat :=
  1024 * t + (((s.fn t).tags.find? (fun k =>
    !s.dma.reads.any (fun x => x.tag == 1024 * t + k && x.got.isNone))).getD 0)

/-! ## Translation (R268 to R272) -/

/-- A ring's host addresses are translated now (R268, R272). -/
def State.translates (s : State) (r : Nat) : Bool :=
  (s.ring r).translated && (s.fn (ringTenant r)).atsEn && s.dma.atcRetired != 15

/-- The page of an address. -/
def pageOf (addr : Nat) : Nat := addr - addr % 4096

/-- An entry serves an address of a function. -/
def AtcEntry.serves (e : AtcEntry) (t addr : Nat) : Bool :=
  e.fn == t && decide (e.page ≤ addr ∧ addr < e.page + 2 ^ e.size)

/-- The entry of the cache that serves an address, with its place 4 × set + way. -/
def Dma.find (d : Dma) (t addr : Nat) : Option (Nat × AtcEntry) :=
  d.atc.findSome? (fun (k, o) =>
    match o with
    | some e => if e.serves t addr then some (k, e) else none
    | none => none)

/-- What a lookup finds. -/
inductive Lookup where
  | plain
  | hit (place : Nat) (e : AtcEntry)
  | miss
  deriving DecidableEq, Repr

/-- A lookup for an access of a ring. Under PTU_ATC_MISS only a translation that has just come
serves (R518); an entry without the permission needed does not serve. -/
def State.lookup (s : State) (r addr : Nat) (write : Bool) : Lookup :=
  let t := ringTenant r
  if !s.translates r then .plain
  else if s.mode.mode = .test ∧ bitAt s.ptu.atcMiss t ∧ pageOf addr ∉ (s.ring r).fresh then .miss
  else match s.dma.find t addr with
    | some (k, e) => if (if write then e.w else e.r) then .hit k e else .miss
    | none => .miss

/-- The translated page of a hit. -/
def AtcEntry.target (e : AtcEntry) (addr : Nat) : Nat := e.tpage + (pageOf addr - e.page)

/-- An entry has been used for an address: it is the latest used of its set (R269). -/
def State.touch (s : State) (place r addr : Nat) : State :=
  let s := s.modRing r (fun x => { x with fresh := x.fresh.filter (· != pageOf addr) })
  s.modDma (fun d => { d with
    atcClock := d.atcClock + 1
    atc := tabMod (fun _ => none) d.atc place (Option.map (fun e => { e with age := d.atcClock + 1 })) })

/-- A Translation Request may go out (R270): at most 32 outstanding, within the pool; one ahead of the need only
where something beyond the chunk in progress is to be issued (R37). -/
def State.transMay (s : State) (t : Nat) (needed : Bool) : Bool :=
  decide (s.dma.trans.length < 32) && s.requestAllowed t && (needed || s.executing)

/-- The access that a page is wanted for, where it is wanted again: the one that needs it counts. -/
def wantWrite (neededBefore writeBefore needed write : Bool) : Bool :=
  if neededBefore == needed then writeBefore || write else if needed then write else writeBefore

/-- A page that a ring wants already, or wants now. -/
def Dma.wantOf (d : Dma) (r page : Nat) (needed write : Bool) : TransWant :=
  match d.wanted.find? (fun q => q.ring == r && q.page == page) with
  | some q => { q with needed := q.needed || needed, write := wantWrite q.needed q.write needed write }
  | none => { ring := r, page := page, needed := needed, write := write }

/-- A Translation Request for a page (R270). One that cannot go out waits (R263, R267). -/
def State.askPage (s : State) (r addr : Nat) (needed write : Bool) : State :=
  let t := ringTenant r
  let page := pageOf addr
  let same := fun (q : TransReq) => q.fn == t && q.page == page && q.ring == r && !q.stale
  if s.dma.trans.any same then
    s.modDma (fun d => { d with trans := d.trans.map (fun q =>
      if same q then { q with
        needed := q.needed || needed, write := wantWrite q.needed q.write needed write } else q) })
  else
    let want := s.dma.wantOf r page needed write
    let rest := s.dma.wanted.filter (fun q => !(q.ring == r && q.page == page))
    if s.transMay t want.needed then
      let id := ((List.range 33).find? (fun k => !s.dma.trans.any (fun q => q.id == k))).getD 0
      (s.modDma (fun d => { d with
        wanted := rest
        trans := d.trans ++
          [{ id := id, fn := t, ring := r, page := page, needed := want.needed, write := want.write }] })).emit
        (.transReq t id page)
    else (s.modDma (fun d => { d with wanted := rest ++ [want] })).noteCap

/-- Translations that a ring wants are wanted no more. -/
def State.dropWanted (s : State) (r : Nat) : State :=
  s.modDma (fun d => { d with wanted := d.wanted.filter (fun q => q.ring != r) })

/-- Pages that TEN_ATS_CTRL.AHEAD asks for (R284). -/
def aheadPages (code : Nat) : Nat := if code = 3 then 4 else code

/-- Translations ahead of the need: the pages that follow the one of a chunk, up to the transfer's last (R270).
`addr` and `stop` count on past the end of the address space, which a host address wraps at. -/
def State.askAhead (s : State) (r addr stop : Nat) (write : Bool) : State :=
  if !s.translates r then s
  else overAll (aheadPages (s.ten (ringTenant r)).ahead) (fun k s =>
    let a := pageOf addr + 4096 * (k + 1)
    if a < stop ∧ s.lookup r (a % 2 ^ 64) write = .miss then s.askPage r (a % 2 ^ 64) false write else s) s

/-- An instruction with host addresses begins: its first chunk's page and the pages that follow (R270). -/
def State.askBegin (s : State) (r addr stop : Nat) (write : Bool) : State :=
  (if s.lookup r addr write = .miss then s.askPage r addr false write else s).askAhead r addr stop write

/-- An entry is put into the cache: in its place, a free way of its set, or the least recently used
way (R269). Retired ways are passed over (R272). -/
def State.cache (s : State) (e : AtcEntry) : State :=
  let d := s.dma
  let set := e.page / 2 ^ e.size % 256
  let ways := (List.range 4).filter (fun w => !d.atcRetired.getLsbD w)
  let at_ := fun w => tabGet (fun _ => none) d.atc (4 * set + w)
  let age := fun w => ((at_ w).map (fun x => x.age + 1)).getD 0
  let old := ways.find? (fun w => (at_ w).any (fun x => x.fn == e.fn && x.page == e.page))
  match old.orElse (fun _ => (sortBy age ways).head?) with
  | none => s
  | some w => s.modDma (fun d => { d with
      atcClock := d.atcClock + 1
      atc := tabSet (fun _ => none) d.atc (4 * set + w) (some { e with age := d.atcClock + 1 }) })

/-- A parity error at a lookup (R272): the entry goes, and where its storage fails the test, its way
is retired in every set. -/
def State.atcParityError (s : State) (place : Nat) (e : AtcEntry) (testFail : Bool) : State :=
  let way := place % 4
  let s := s.modDma (fun d => { d with
    atc := tabSet (fun _ => none) d.atc place none, atcParity := min 255 (d.atcParity + 1) })
  let s := s.event 0x0414 1 scopeS [(1, e.fn), (1, place / 4), (1, way)]
  if testFail then
    let s := s.modDma (fun d => { d with
      atc := d.atc.filter (fun p => p.1 % 4 != way)
      atcRetired := d.atcRetired ||| BitVec.ofNat 4 (2 ^ way) })
    let s := s.event 0x0415 2 scopeG [(1, e.fn), (1, way)]
    ((s.faultBit 3).degradeCause).raise 0 12
  else s

/-- The lookup for a slot of a RETURN ring that is to be written. The entry it meets may hold a parity error,
and its storage may fail its test (R272): both are free. -/
def State.slotLookup (s : State) (r addr : Nat) : Lookup × State :=
  match s.lookup r addr true with
  | .hit k e =>
    let (n, s) := s.draw
    if Config.atcParity n then
      let (m, s) := s.draw
      let s := s.atcParityError k e (Config.freeLevel m)
      (s.lookup r addr true, s)
    else (.hit k e, s)
  | x => (x, s)

/-! ## Requests -/

/-- The slots of an ISSUE ring that the next fetch covers: their address and their bytes. -/
def Ring.fetchSpan (x : Ring) : Nat × Nat :=
  let c := x.head + x.fetched.length / 4
  let addr := x.base + 16 * (c % x.slots)
  let toWrap := x.slots - c % x.slots
  let toPage := (4096 - addr % 4096) / 16
  (addr, 16 * min x.unfetched (min toWrap toPage))

/-- Reads for a piece of host memory, as far as they may go out; each carries at most
Max_Read_Request_Size. `born` numbers the invalidations before their chunk. -/
def State.issueReads : Nat → State → Nat → ReadKind → Nat → Nat → Option Nat → Nat → State
  | 0, s, _, _, _, _, _, _ => s
  | n + 1, s, r, kind, addr, len, xl, born =>
    let t := ringTenant r
    let part := min len (128 * 2 ^ (s.fn t).mrrs)
    if part = 0 then s
    else if !s.readAllowed t part then s.noteCap
    else
      let tag := s.freeTag t
      let host := match xl with | some page => page + addr % 4096 | none => addr
      let x : DmaRead :=
        { fn := t, ring := r, tag := tag, kind := kind, addr := addr, len := part, born := born
          page := xl.map (fun _ => pageOf addr) }
      let s := (s.modDma (fun d => { d with reads := d.reads ++ [x] })).emit
        (.read t (tag % 1024) host part xl.isSome)
      State.issueReads n s r kind (addr + part) (len - part) xl born

/-- Writes for a piece of host memory, as far as they may go out: none crosses a multiple of
Max_Payload_Size. Those that carry Relaxed Ordering name the ring whose thread makes them. Answers the
bytes not issued. -/
def State.issueWrites : Nat → State → Nat → Nat → List Byte → Option Nat → Option Nat → List Byte × State
  | 0, s, _, _, bytes, _, _ => (bytes, s)
  | n + 1, s, r, addr, bytes, xl, ro =>
    let t := ringTenant r
    let mps := 128 * 2 ^ (s.fn t).mps
    let part := min bytes.length (mps - addr % mps)
    if part = 0 then (bytes, s)
    else if !(s.fnIssues t && s.rateAllows) then (bytes, s.noteCap)
    else
      let host := match xl with | some page => page + addr % 4096 | none => addr
      let s := s.modTen t (fun x => { x with wrBytes := (x.wrBytes + part) % 2 ^ 64 })
      let s := (s.meter part).emit (.write t host (bytes.take part) ro.isSome xl.isSome)
      let s := match ro with
        | some p => s.modRing p (fun x => { x with roLast := some (r, addr) })
        | none => s
      State.issueWrites n s r (addr + part) (bytes.drop part) xl ro

/-! ## Errors (R265, R271) -/

/-- KIND of TEN_DMA_ERROR for a status (R284). -/
def dmaErrorKind (status : Nat) : Nat := status - 0x3F

/-- A DMA error in the tenant's registers: the first since ERROR was clear (R284). -/
def State.noteDmaError (s : State) (r status : Nat) : State :=
  s.modTen (ringTenant r) (fun x =>
    if x.dmaError then x
    else { x with dmaError := true, dmaKind := dmaErrorKind status, dmaRing := ringLocal r })

/-- A read ended with an error (R265). -/
def State.dmaError (s : State) (r status addr : Nat) : State :=
  let t := ringTenant r
  let s := (s.noteDmaError r status).tenFault t 1 (ringLocal r) status
  s.event 0x0410 2 t [(1, t), (1, ringLocal r), (1, status), (1, 0), (8, pageOf addr)]

/-- A translation fault (R271). -/
def State.transFault (s : State) (r addr : Nat) (write : Bool) : State :=
  let t := ringTenant r
  let s := s.noteDmaError r 0x44
  let s := s.modTen t (fun x =>
    if x.atsFault then x else { x with atsFault := true, atsAddr := pageOf addr, atsWrite := write })
  let s := s.tenFault t 2 (ringLocal r) 0x44
  s.event 0x0412 2 t [(1, t), (1, ringLocal r), (1, bnat write), (1, 0), (8, pageOf addr)]

/-- A function reports an error through AER (R227, R233, R265). The header of the packet is free. No
message leaves while the link is down or in L2/L3 Ready (R256). -/
def State.aerBit (s : State) (t : Nat) (e : AerError) : State :=
  let message := if s.linkOpen then (s.fn t).aerMessage e else none
  let (n, s) := s.draw
  let s := s.modFn t (fun f => f.aerRecord e message (natWords 4 (Config.freeValue n)))
  match message with
  | some severity => s.emit (.errMsg t severity)
  | none => s

/-- Two ranges of host addresses overlap. -/
def overlaps (a n b m : Nat) : Bool := decide (a < b + m ∧ b < a + n)

/-- A read that an Invalidate Request waits for: its chunk had begun, with a page of the range. -/
def InvReq.meetsRead (q : InvReq) (x : DmaRead) : Bool :=
  x.fn == q.fn && decide (x.born < q.seq) && x.page.any (fun p => overlaps p 4096 q.page q.bytes)

/-- The clearing of ATS Enable is done with once no read that it waits for is open (R268). -/
def Dma.prune (d : Dma) : Dma := { d with invs := d.invs.filter (fun q => !q.own || d.reads.any q.meetsRead) }

/-- Nothing waits for reads any more: what has come of them is given up, and those open keep their tag and their
space in the completion store until they end as every read does (R265). -/
def State.abandonReads (s : State) (p : DmaRead → Bool) : State :=
  s.modDma (fun d => { d with
    reads := (d.reads.filter (fun x => !p x || x.got.isNone)).map (fun x =>
      if p x then { x with kind := .gone } else x) }.prune)

/-- Reads are dropped, with their completions that the test unit still holds (R265, R517): a completion
that comes for one later is unexpected. -/
def State.dropReads (s : State) (p : DmaRead → Bool) : State :=
  let s := s.modDma (fun d => { d with reads := d.reads.filter (fun x => !p x) }.prune)
  s.modHeld (fun h => { h with
    items := h.items.filter (fun i => match i with
      | .cpl tag _ _ => s.dma.reads.any (fun x => x.tag == tag && x.got.isNone)
      | .tail .. => true) })

end Sys2Proof.Machine
end

