-- ==== Sys2Proof/Machine/Records.lean ====
section
/-! DEFINITION. RETURN records (R300 to R305): the header word, the phase, space, the writes of a
record, and what becomes of one that cannot be written. -/

namespace Sys2Proof.Machine

/-- Slots of a record. -/
def Rec.slots (x : Rec) : Nat := (x.body.length + 4) / 4

/-- The phase of a record whose first slot has this counter (R301). -/
def phaseAt (size counter : Nat) : Nat := 1 - counter / 2 ^ size % 2

/-- Fragments of a frame: its RECEIVE records (R423). -/
def fragments (len : Nat) : Nat := max 1 ((len + 111) / 112)

/-- A record's header word (R300). -/
def Rec.header (x : Rec) (size counter : Nat) : Word :=
  reg32 [phaseAt size counter, place (x.slots - 1) 1 3, place x.type 4 4, place x.status 8 8,
    place x.tag 16 12, flag x.retried 28, place (ringLocal x.from_) 29 2]

/-- Host address of the slot with a counter value (R288). -/
def Ring.slotAddr (x : Ring) (counter : Nat) : Nat := x.base + 16 * (counter % x.slots)

/-- A record of s slots has space (R303). -/
def Ring.hasSpace (x : Ring) (s : Nat) : Bool := dist32 (x.tail + s) x.head ≤ x.slots

/-- The translated pages of a record's slots, one for each slot; none while one is missing. -/
def State.slotPages : List Nat → State → Nat → Option (List (Option Nat)) × State
  | [], s, _ => (some [], s)
  | c :: rest, s, dst =>
    let addr := (s.ring dst).slotAddr c
    let (x, s) := s.slotLookup dst addr
    let (pages, s) := State.slotPages rest s dst
    match x with
    | .plain => (pages.map (none :: ·), s)
    | .hit _ e => (pages.map (some (e.target addr) :: ·), s)
    | .miss => (none, s)

/-- The translations that a record's slots still need are asked for. -/
def State.askSlots (s : State) (dst : Nat) (counters : List Nat) : State :=
  overList counters (fun c s =>
    let addr := (s.ring dst).slotAddr c
    if s.lookup dst addr true = .miss then s.askPage dst addr true true else s) s

/-- Body words of a record go out, slot by slot and each slot's as one write, as far as requests may go out
and up to `stop` of them; `done` of them are out. Word k of the record stands in slot k / 4. -/
def State.writeBody : Nat → State → Nat → List Word → List (Option Nat) → Nat → Nat → Option Nat → Nat × State
  | 0, s, _, _, _, done, _, _ => (done, s)
  | n + 1, s, dst, body, pages, done, stop, ro =>
    if stop ≤ done then (done, s)
    else if !(s.fnIssues (ringTenant dst) && s.rateAllows) then (done, s.noteCap)
    else
      let j := (done + 1) / 4
      let upTo := min (4 * j + 3) stop
      let addr := (s.ring dst).slotAddr ((s.ring dst).tail + j) + 4 * ((done + 1) % 4)
      let bytes := wordsBytes ((body.drop done).take (upTo - done))
      State.writeBody n (State.issueWrites 1 s dst addr bytes (pages.getD j none) ro).2 dst body pages upTo
        stop ro

/-- The entries of the cache that serve a record's slots have been used. -/
def State.touchSlots (s : State) (dst : Nat) (counters : List Nat) : State :=
  overList counters (fun c s =>
    match s.lookup dst ((s.ring dst).slotAddr c) true with
    | .hit k _ => s.touch k dst ((s.ring dst).slotAddr c)
    | _ => s) s

/-- Whether a record can be written into a ring now: space (R303), its turn, a mode in which the DMA engine
writes records (R37), and the function may issue. -/
def State.recordMay (s : State) (dst : Nat) (rec : Rec) : Bool :=
  let x := s.ring dst
  x.hasSpace rec.slots && s.mode.mode.executes && s.fnIssues (ringTenant dst) && s.rateAllows &&
    (match x.part with | some (p, _) => p.from_ == rec.from_ | none => true)

/-- A record is complete: RING_TAIL and RING_DONE_COUNT advance past its header (R302). -/
def State.recordEnds (s : State) (dst slots : Nat) : State :=
  let s := s.modRing dst (fun x => { x with
    part := none, partPages := [], done := (x.done + 1) % 2 ^ 32 })
  (s.setTail dst ((s.ring dst).tail + slots)).recordRetry dst

/-- What a try to write a record gives. -/
inductive RecordTry where
  | written | lost | waits
  deriving DecidableEq, Repr

/-- A record some of whose body words are out: the rest waits, and keeps its pages (R273, R309). -/
def State.keepPart (s : State) (dst : Nat) (rec : Rec) (pages : List (Option Nat)) (done : Nat) : State :=
  if done = 0 then s
  else s.modRing dst (fun x => { x with
    part := some (rec, done), partPages := pages
    partAt := if x.part.isSome then x.partAt else s.dma.invSeq })

/-- A record, all its pages at hand, from body word `first` on: the body first, the header last and without
Relaxed Ordering (R302), as far as the DMA engine lets its writes out. -/
def State.putRecord (s : State) (dst : Nat) (rec : Rec) (pages : List (Option Nat)) (first : Nat)
    (ro : Option Nat) : RecordTry × State :=
  let (done, s) := State.writeBody 9 s dst rec.body pages first rec.body.length ro
  if done < rec.body.length || !(s.fnIssues (ringTenant dst) && s.rateAllows) then
    (.waits, (s.keepPart dst rec pages done).noteCap)
  else
    let x := s.ring dst
    let head := wordBytes (rec.header x.size x.tail)
    let s := (State.issueWrites 1 s dst (x.slotAddr x.tail) head (pages.getD 0 none) none).2
    (.written, s.recordEnds dst rec.slots)

/-- X2 as it was before it reported full. -/
def State.unpressed (s : State) : State := { s with ptu := { s.ptu with qCycles := 0 } }

/-- A record that a full X2 cuts after a free number of its body words (R309, R520): the rest waits. -/
def State.cutRecord (s : State) (dst : Nat) (rec : Rec) (pages : List (Option Nat)) (ro : Option Nat) : State :=
  let (n, s) := s.draw
  let (done, t) := State.writeBody 9 s.unpressed dst rec.body pages 0
    (Config.freeValue n % (rec.body.length + 1)) ro
  { t with ptu := s.ptu }.keepPart dst rec pages done

/-- Word 0 of each later slot that an abandoned record's body reached is written over with 1 - PHASE, the
last such slot first, as far as the DMA engine lets the writes out; a slot without its translation asks for
it (R309). -/
def State.mendAbandoned : Nat → State → Nat → State
  | 0, s, _ => s
  | n + 1, s, r =>
    match (s.ring r).part with
    | none => s
    | some (p, k) =>
      let x := s.ring r
      let c := x.tail + k / 4
      let write := fun (s : State) (page : Option Nat) =>
        State.mendAbandoned n
          (((State.issueWrites 1 s r (x.slotAddr c) (leBytes 4 (1 - phaseAt x.size c)) page none).2).modRing r
            (fun x => { x with part := some (p, 4 * (k / 4) - 1) })) r
      if k < 4 then s.modRing r (fun x => { x with part := none })
      else if !(s.mode.mode.executes && s.fnIssues (ringTenant r) && s.rateAllows) then s.noteCap
      else match s.slotLookup r (x.slotAddr c) with
        | (.miss, s) => s.askPage r (x.slotAddr c) true true
        | (.plain, s) => write s none
        | (.hit place e, s) => write (s.touch place r (x.slotAddr c)) (some (e.target (x.slotAddr c)))

/-- A record begun in a ring whose thread is no more, and which is lost: nobody's (R305). -/
def Ring.orphaned (x : Ring) : Bool := x.part.any (fun p => p.1.from_ == 32)

/-- Nobody's record is written over before another one goes into its ring. -/
def State.mendOrphan (s : State) (dst : Nat) : State :=
  if (s.ring dst).orphaned then State.mendAbandoned 9 s dst else s

/-- A record produced for a ring: written, lost (R305), or it waits for space, for its turn, for the
DMA engine or for a translation. One that has been begun goes on as it was begun. -/
def State.tryRecord (s : State) (dst : Nat) (rec : Rec) (ro : Option Nat) : RecordTry × State :=
  if !(s.ring dst).accepts then (.lost, s.recordLost dst rec)
  else
  let s := s.mendOrphan dst
  let x := s.ring dst
  let counters := (List.range rec.slots).map (x.tail + ·)
  match x.part with
    | some (p, k) =>
      if s.recordMay dst rec then s.putRecord dst p x.partPages k ro else (.waits, s.noteCap)
    | none =>
      if s.recordMay dst rec then
        match State.slotPages counters s dst with
        | (some pages, s) => (s.touchSlots dst counters).putRecord dst rec pages 0 ro
        | (none, s) => (.waits, s.askSlots dst counters)
      else if s.unpressed.recordMay dst rec then
        match State.slotPages counters s dst with
        | (some pages, s) => (.waits, (s.touchSlots dst counters).cutRecord dst rec pages ro)
        | (none, s) => (.waits, s)
      else if x.hasSpace rec.slots then (.waits, s.noteCap)
      else (.waits, s)

/-! ## Records that have been begun (R302, R309) -/

/-- The ring into which a record of the thread of ring r has been begun and not ended, nor abandoned with the
ring. -/
def State.begunRing (s : State) (r : Nat) : Option Nat :=
  (List.range 32).find? (fun d => (s.ring d).accepts && (s.ring d).part.any (fun p => p.1.from_ == r))

/-- A record of the ring's thread has been begun and not ended. -/
def State.recordBegun (s : State) (r : Nat) : Bool := (s.begunRing r).isSome

/-- The record that an instruction has in hand has been lost, and it goes on as though it had been written
(R305). -/
def Cur.lostRecord (c : Cur) : Bool := c.dest.isSome && c.reply == some (0, 2)

/-- A record that has been begun goes on to its end, as it was begun. -/
def State.finishPart (s : State) (dst : Nat) (ro : Option Nat) : RecordTry × State :=
  match (s.ring dst).part with
  | some (p, _) => s.tryRecord dst p ro
  | none => (.written, s)

end Sys2Proof.Machine
end

