-- ==== Sys2Proof/Machine/Operands.lean ====
section
/-! DEFINITION. What an Ovdor instruction's words say (R317 to R323): fields, source selectors,
registers, opcodes and lengths. -/

namespace Sys2Proof.Machine

/-! ## The header (R317) -/

def Cur.word (c : Cur) (k : Nat) : Nat := wordAt c.words k
def Cur.opcode (c : Cur) : Nat := field (c.word 0) 24 8
/-- LENGTH: the instruction's words less one. -/
def Cur.length (c : Cur) : Nat := field (c.word 0) 19 5
def Cur.flagI (c : Cur) : Bool := bitAt (c.word 0) 18
def Cur.flagR (c : Cur) : Bool := bitAt (c.word 0) 17
def Cur.flagO (c : Cur) : Bool := bitAt (c.word 0) 16
def Cur.flagF (c : Cur) : Bool := bitAt (c.word 0) 15
def Cur.tag (c : Cur) : Nat := field (c.word 0) 0 12
/-- The reserved header bits are zero (R319). -/
def Cur.headerOk (c : Cur) : Bool := field (c.word 0) 12 3 == 0

/-- A field of operand word k. -/
def Cur.op (c : Cur) (k lo len : Nat) : Nat := field (c.word k) lo len

/-- A 64-bit operand in words k and k + 1. -/
def Cur.wide (c : Cur) (k : Nat) : Nat := c.word k + 2 ^ 32 * c.word (k + 1)

/-! ## Opcodes (R320) -/

/-- The opcodes listed. -/
def listedOpcode (op : Nat) : Bool :=
  op ≤ 0x09 || (0x10 ≤ op && op ≤ 0x17) || (0x20 ≤ op && op ≤ 0x23) || (0x30 ≤ op && op ≤ 0x32) ||
    (0x40 ≤ op && op ≤ 0x45) || (0x50 ≤ op && op ≤ 0x53) || (0x60 ≤ op && op ≤ 0x61) ||
    (0x70 ≤ op && op ≤ 0x72)

/-- Instructions whose status becomes the thread's S (R325). -/
def setsS (op : Nat) : Bool := op == 0x07 || op == 0x08 || (0x20 ≤ op && listedOpcode op)

/-- A status stops its ring (R323). -/
def stops (status : Nat) : Bool :=
  (1 ≤ status && status ≤ 0x0F) || (0x40 ≤ status && status ≤ 0x4F)

/-! ## Registers and sources (R321, R325) -/

def Thread.reg (t : Thread) (k : Nat) : Nat := if k = 0 then 0 else tabGet (fun _ => 0) t.regs k

/-- A write of X0 is discarded. -/
def Thread.setReg (t : Thread) (k v : Nat) : Thread :=
  if k = 0 then t else { t with regs := tabSet (fun _ => 0) t.regs k (v % 2 ^ 64) }

def State.setReg (s : State) (r k v : Nat) : State := s.modThr r (fun t => t.setReg k v)

/-- A source selector is listed. -/
def srcOk (sel : Nat) : Bool := sel ≤ 20

/-- The 64-bit value of a source. -/
def State.src (s : State) (r sel : Nat) : Nat :=
  let t := s.thr r
  if sel ≤ 15 then t.reg sel
  else match sel with
    | 16 => t.s
    | 17 => (s.ring r).tail
    | 18 => s.shadow
    | 19 => s.shadowEpoch
    | 20 => r
    | _ => 0

/-- An address: a source plus a 32-bit immediate, as 64 bits. -/
def State.addrOf (s : State) (r sel imm : Nat) : Nat := (s.src r sel + imm) % 2 ^ 64

/-! ## The instruction in flight -/

def State.modCur (s : State) (r : Nat) (f : Cur → Cur) : State :=
  s.modThr r (fun t => { t with cur := t.cur.map f })

end Sys2Proof.Machine
end

