-- ==== Sys2Proof/Machine/OvdorBase.lean ====
section
/-! DEFINITION. How a thread takes its next instruction, runs it and ends it (R297, R322 to R339):
the one driver of every instruction. -/

namespace Sys2Proof.Machine

/-! ## The end of an instruction -/

/-- A completion record is written for an instruction that ends with a status (R338). -/
def State.recordWanted (s : State) (r : Nat) (c : Cur) (status : Nat) : Bool :=
  let x := s.ring r
  x.cplEn && (c.flagI || (x.kind == 0 && status != 0) || stops status)

/-- The completion record (R339). -/
def completionRecord (r : Nat) (c : Cur) (status result : Nat) : Rec :=
  { type := 1, status := status, tag := c.tag, retried := c.retried, from_ := r
    body := [BitVec.ofNat 32 c.progress, reg32 [place c.pos 0 17, place c.opcode 24 8],
      BitVec.ofNat 32 result] }

/-- The load that an instruction works on is island i's: it is a FRAME_LOAD whose FAR names the island. One
without that word, too short or not fetched so far, names none, and every load of its ring counts as its own
(DEDUCED, log 25). -/
def Cur.loads (c : Cur) (i : Nat) : Bool :=
  c.opcode == 0x42 && (decide (c.words.length < 3) || field (c.word 2) 10 6 == i)

/-- The ring's load of frames on island i. -/
def State.ownsLoad (s : State) (r i : Nat) : Bool := (s.isl i).frameLoad.any (fun f => f.ring == r)

/-- A FRAME_LOAD that does not end OK ends its load, when its ring owns it (R363, R308). -/
def State.endFrameLoad (s : State) (r : Nat) (c : Cur) (status : Nat) : State :=
  if status = 0 ∨ c.opcode ≠ 0x42 then s
  else overAll 48 (fun i s =>
    if c.loads i ∧ s.ownsLoad r i then s.abandoned i (if status = 0x10 then 3 else 1) status else s) s

/-- The thread's part of an instruction's end: S, and PC, which a stopping status leaves (R323, R325). -/
def State.retireThread (s : State) (r : Nat) (c : Cur) (status : Nat) : State :=
  s.modThr r (fun t => { t with
    cur := none
    s := if setsS c.opcode then status else t.s
    pc := if stops status then t.pc else c.next })

/-- An item of an ISSUE ring is done: RING_HEAD passes it (R315). The timer starts where the tail lies inside the
next one (R297). -/
def State.retireItem (s : State) (r slots : Nat) : State :=
  let s := (s.modRing r (fun x => { x with
    fetched := x.fetched.drop (4 * slots), done := (x.done + 1) % 2 ^ 32 })).setHead r ((s.ring r).head + slots)
  s.modRing r (fun x => { x with timer := x.timer || x.tailInside })

/-- The ring's part: the item, or RING_DONE_COUNT of a PROGRAM ring with I = 1 (R315). -/
def State.retireRing (s : State) (r : Nat) (c : Cur) : State :=
  if (s.ring r).kind = 0 then s.retireItem r (itemSlots (c.word 0))
  else if c.flagI then s.modRing r (fun x => { x with done := (x.done + 1) % 2 ^ 32 })
  else s

/-- The ring's vector with I = 1 (R279). -/
def State.retireNotice (s : State) (r : Nat) (c : Cur) : State :=
  if c.flagI then s.raise (ringTenant r) (ringLocal r) else s

/-- An instruction that a flush has ended is counted by it (R311). -/
def State.retireFlushed (s : State) (r status : Nat) : State :=
  if status = 0x10 then s.modRing r (fun x => { x with
    flush := x.flush.map (fun f => { f with partialDone := true }) })
  else s

/-- A stopping status is a ring fault (R306, R323); HALT halts its ring (R345). -/
def State.retireState (s : State) (r : Nat) (c : Cur) (status : Nat) : State :=
  let x := s.ring r
  if stops status then s.ringFault r 6 status
  else if c.opcode = 0x09 ∧ status = 0 ∧ x.kind = 2 ∧ x.state = .running then
    s.modRing r (fun x => { x with state := .halted })
  else s

/-- The end of an instruction, its record apart. -/
def State.retire (s : State) (r : Nat) (c : Cur) (status : Nat) : State :=
  (((((s.endFrameLoad r c status).retireThread r c status).retireRing r c).retireNotice r c).retireFlushed
    r status).retireState r c status

/-- A record that the instruction has begun and left is finished before its end (R302). Answers whether that
waits. -/
def State.finishLeft (s : State) (r : Nat) : Bool × State :=
  match (s.begunRing r).filter (fun d => (s.ring d).part.any (fun p => p.1.type != 1)) with
  | none => (false, s)
  | some d =>
    match s.finishPart d none with
    | (.waits, s) => (true, s.waitFor r (.record d))
    | (_, s) => (false, s)

/-- An instruction with a completion record ends once that is written, or lost. -/
def State.retireWith (s : State) (r dst : Nat) (c : Cur) (status : Nat) (item : Rec) : Bool × State :=
  let a := s.tryRecord dst item none
  if a.1 = .waits then (false, a.2.waitRecord r dst item.slots) else (true, a.2.retire r c status)

/-- An instruction whose outcome is known tries to end: its record is written, or it waits for it.
A record whose translation has faulted is lost, and the instruction ends with that status (log 24). -/
def State.tryRetire (s : State) (r : Nat) : Bool × State :=
  match (s.thr r).cur with
  | some c =>
    match c.fin with
    | none => (true, s)
    | some (status, result) =>
      let dst := s.cplRing r
      let item := completionRecord r c status result
      let (waits, s) := s.finishLeft r
      if waits then (false, s)
      else if c.reply = some (0x44, 1) then (true, (s.recordLost dst item).retire r c 0x44)
      -- a flush of the ring addressed has discarded the record (R309)
      else if c.reply = some (0, 2) ∨ !s.recordWanted r c status then (true, s.retire r c status)
      else s.retireWith r dst c status item
  | none => (true, s)

/-! ## The next instruction -/

/-- A word of program memory. -/
def State.progWord (s : State) (w : Nat) : Nat := (memWord 0 s.progMem (4 * w)).toNat

/-- A thread may fetch a word of program memory: BAD_TARGET or MEMORY_ERROR where it may not (R329,
R330). -/
def State.fetchFault (s : State) (t w : Nat) : Option Nat :=
  if 0x20000 ≤ w then some 4
  else if t ≠ 0 ∧ s.pageOwner (w / 1024) ≠ some t then some 4
  else if s.progBad.contains w then some 7
  else none

/-- An instruction of which word 0 cannot be fetched: its opcode and its tag are free, and its I, R and F are taken
as 0 (DESIGN CHOICE, log 61). -/
def unfetched (pc status v : Nat) : Cur :=
  { words := [reg32 [place v 0 12, place (v / 4096) 24 8]], pos := pc, next := pc, unread := some status }

/-- The status of a fetch whose words have these faults: BAD_TARGET comes before MEMORY_ERROR. -/
def fetchStatus (faults : List Nat) : Option Nat :=
  if faults.contains 4 then some 4 else if faults.contains 7 then some 7 else none

/-- The instruction that a PROGRAM thread fetches at its PC, with the status that ends it unexecuted. A word 2
that could not be fetched, and what follows it, is not there. The next PC after the last word of the memory, and the
index that CALL pushes there, is 0: PC has 17 bits (DESIGN CHOICE, log 59). -/
def State.fetchProgram (s : State) (r : Nat) : Cur × State :=
  let t := ringTenant r
  let pc := (s.thr r).pc
  match s.fetchFault t pc with
  | some st => (unfetched pc st (Config.freeValue s.draw.1), s.draw.2)
  | none =>
    let len := insnWords (s.progWord pc)
    let got := if (s.fetchFault t (pc + 2)).isSome then min len 2 else len
    ({ words := (List.range got).map (fun k => BitVec.ofNat 32 (s.progWord (pc + k)))
       pos := pc, next := (pc + len) % 2 ^ 17
       unread := fetchStatus (((List.range len).drop 1).filterMap (fun k => s.fetchFault t (pc + k))) }, s)

/-- A PROGRAM thread takes its next instruction. One that could not be fetched whole ends where the thread is
next granted a pair. -/
def State.loadProgram (s : State) (r : Nat) : State :=
  let a := s.fetchProgram r
  let s := a.2.modThr r (fun t => { t with cur := some a.1 })
  if a.1.unread.isSome then s.dropPair r else s

/-- An ISSUE thread takes the item at RING_HEAD (R297). -/
def State.loadItem (s : State) (r : Nat) : State :=
  let x := s.ring r
  let n := insnWords (wordAt x.fetched 0)
  (s.modRing r (fun x => { x with timer := false })).modThr r (fun t => { t with
    cur := some { words := x.fetched.take n, pos := x.head } })

/-- A thread that holds a pair and has no instruction takes its next one, waits for its fetch, or
gives the pair up (R297, R328 to R330). -/
def State.loadNext (s : State) (r : Nat) : State :=
  let x := s.ring r
  if x.state ≠ .running then s.dropPair r
  else if x.kind = 2 then s.loadProgram r
  else if x.itemFetched then s.loadItem r
  else if x.unfetched ≠ 0 then s.waitFor r .dma
  else (s.modRing r (fun x => { x with timer := x.timer || x.tailInside })).dropPair r

/-- A boundary (R332, R386): the thread stops there on the way into HOLD, gives its pair to a thread
that waits for one, or goes on. -/
def State.boundary (s : State) (r : Nat) : State :=
  if !s.executing then (s.dropPair r).modThr r (fun t => { t with paused := t.paused || s.holds })
  else if anyBelow 32 (fun q => q != r && s.ready q && (s.thr q).pair.isNone) then s.dropPair r
  else if (s.thr r).pair.isNone then s
  else if (s.thr r).cur.isSome then s
  else s.loadNext r

/-- An instruction ends with a status and a result. -/
def State.endInstr (s : State) (r status result : Nat) : State :=
  let a := (s.modCur r (fun c => { c with fin := some (status, result), reply := none, dest := none })).tryRetire r
  if a.1 then a.2.boundary r else a.2

/-- The instruction ends with CHARTER_DENIED, and ACCESS_DENIED is logged (R352). -/
def State.denyInsn (s : State) (r : Nat) (c : Cur) (a : Nat) : State :=
  (s.deniedAccess (.ring r) c.opcode a).endInstr r 0x21 0

/-- An instruction that has done all it has to ends OK, or with FLUSHED_PARTIAL where a flush has found
it in flight (R308). -/
def State.endOk (s : State) (r result : Nat) : State :=
  s.endInstr r (if (s.ring r).state = .flushing then 0x10 else 0) result

/-- A unit of a chunked instruction has been committed: the instruction ends with its last one, a flush
ends it here, or it goes on (R308, R380). -/
def State.unitDone (s : State) (r units : Nat) (last : Bool) : State :=
  let s := s.modCur r (fun c => { c with
    progress := c.progress + units, xl := none, staged := none, reply := none, dest := none })
  if last || (s.ring r).state == .flushing then s.endOk r 0 else s.boundary r

/-! ## Running an instruction -/

/-- A fence's zero-length read is needed (R278). -/
def State.fenceRead (s : State) (r : Nat) : Bool :=
  (s.ring r).hinted && (s.ring r).roLast.isSome

/-- The checks 2 to 4 of R322 in their order. -/
def formatCheck (c : Cur) (lengthOk fieldsOk kindOk : Bool) : Option Nat :=
  if !lengthOk then some 0x02
  else if !(c.headerOk && fieldsOk) then some 0x03
  else if !kindOk then some 0x06
  else none

/-- An instruction that starts behind a fence has not started (R336). -/
def Cur.behindFence (c : Cur) : Bool := !c.started && (c.flagF || c.opcode == 0x01)

/-- An instruction has to wait behind its fence before it starts (R336). -/
def State.fenceWaits (s : State) (r : Nat) (c : Cur) : Bool := c.behindFence && !c.fenced && s.fenceRead r

/-- The message of an earlier instruction of the thread has been neither issued nor set pending: that instruction
is not complete, and what a fence holds back stays (R335, R336). -/
def State.fenceHeld (s : State) (r : Nat) (c : Cur) : Bool :=
  c.behindFence && s.dma.msgs.contains (ringTenant r, ringLocal r)

/-- Thread r may run c now, which is of the row's opcode: it waits for nothing, and c was fetched whole and has
not ended. -/
def State.runsOn (s : State) (r : Nat) (opcode : Nat → Bool) (c : Cur) : Bool :=
  opcode c.opcode && (s.thr r).wait == .none && c.unread.isNone && c.fin.isNone && s.mayRun r

/-- One run of an instruction of a thread that holds a pair. An instruction with F starts behind its fence
(R336); then come the checks of R322, and then its body, which also runs it on after a wait. It stays as it
is while what it would do next is held (R16, R27). -/
def State.runOp (s : State) (r : Nat) (opcode : Nat → Bool) (check : Cur → Option Nat)
    (body : Cur → State → State) (held : Cur → State → Bool := fun _ _ => false) : State :=
  let t := s.thr r
  match t.cur with
  | none => s
  | some c =>
    if !(s.runsOn r opcode c && t.pair.isSome) then s
    else if c.started then (if held c s then s else body c s)
    else if s.fenceHeld r c then s
    else if s.fenceWaits r c then s.waitFor r .fence
    else match check c with
      | some status => s.endInstr r status 0
      | none => if held c s then s else body c (s.modCur r (fun c => { c with started := true }))

/-! ## Grants (R386) -/

/-- The next thread of a tenant that is ready without a pair, round-robin over its rings. -/
def State.nextThread (s : State) (t : Nat) : Option Nat :=
  let last := tabGet (fun _ => 3) s.ferry.lastRing t
  ((List.range 4).map (fun k => 4 * t + (last + 1 + k) % 4)).find? (fun r =>
    s.ready r && (s.thr r).pair.isNone)

/-- The tenant the loop of R386 serves, with the credits it then has. -/
def State.nextTenant (s : State) : Option (Nat × Nat) :=
  let order := (List.range 8).map (fun k => (s.ferry.lastTenant + 1 + k) % 8)
  let credit := fun t => tabGet (fun _ => 0) s.ferry.credit t
  let cands := order.filter (fun t => (s.nextThread t).isSome)
  cands.findSome? (fun t => (s.nextThread t).bind (fun r => if credit t = 0 then none else some (t, r)))

/-- Every tenant's credit is its weight: a new round (R386). -/
def State.newRound (s : State) : State :=
  s.modFerry (fun f => { f with credit := tabModAll (fun _ => 0) f.credit 8 (fun t _ => s.weight t) })

end Sys2Proof.Machine
end

