-- ==== Sys2Proof/Machine/Rings.lean ====
section
/-! DEFINITION. Ring registers, doorbells, flush and watermarks (11). -/

namespace Sys2Proof.Machine

/-- The host reaches the registers of a function: its requests come in, its memory space is enabled, it is
in D0, no FLR of it is in progress, and the device is not in RESET (R37, R231, R251, R254). -/
def State.reachable (s : State) (t : Nat) : Bool :=
  s.mode.mode != .reset && s.hostSends && (s.fn t).mse && !(s.fn t).d3hot && (s.fn t).flr == none

/-- Configuration requests to a function are answered (R246, R251). -/
def State.configOpen (s : State) (t : Nat) : Bool :=
  s.linkOpen && decide (s.link.readyAt ≤ s.coreNs) && (s.fn t).flr.isNone

/-- One that is not gets Configuration Request Retry Status (R246, R251). -/
def State.configRetry (s : State) (t : Nat) : State :=
  if s.linkOpen then s.emit (.retryStatus t) else s

/-- A write by the host to a register of function t; where the function decodes no memory it is an
Unsupported Request (R235). -/
def State.hostWriting (s : State) (t : Nat) (f : State → State) : State :=
  if s.hostSends && (!(s.fn t).mse || (s.fn t).d3hot) then s.aerBit t .refusedWrite
  else if s.reachable t then f s
  else s

/-! ## What waits for a translation (R270, R271) -/

/-- Where a flush's own record goes: its CPL ring, or a RETURN ring itself (R311). -/
def State.flushTarget (s : State) (r : Nat) : Option Nat :=
  if (s.ring r).kind = 1 then some r
  else if (s.ring r).cplEn then some (s.cplRing r)
  else none

/-- A ring has no read of a kind outstanding. -/
def Dma.noRead (d : Dma) (r : Nat) (k : ReadKind) : Bool := !d.reads.any (fun x => x.ring == r && x.kind == k)

/-- The access for which the thread of ring p waits for the translation of a page of ring r, `true` a write: its
chunk, its fetch, its fence or its record. -/
def State.threadNeeds (s : State) (p r page : Nat) : Option Bool :=
  let x := s.ring r
  match (s.thr p).wait, (s.thr p).cur with
  | .dma, some c =>
    if p = r ∧ c.xl = none ∧ pageOf ((c.a0 + c.progress) % 2 ^ 64) = page then some (c.opcode == 0x31) else none
  | .dma, none =>
    if p = r ∧ x.state = .running ∧ pageOf x.fetchSpan.1 = page ∧ s.dma.noRead r .fetch then some false else none
  | .fence, _ =>
    if (s.ring p).roLast.any (fun e => e.1 == r && pageOf e.2 == page) ∧ s.dma.noRead p .fence then some false
    else none
  | .record d, some c =>
    if d = r ∧ x.accepts ∧
        c.dest.any (fun e => e.1 == r && anyBelow e.2 (fun j => pageOf (x.slotAddr (x.tail + j)) == page)) then
      some true
    else none
  | _, _ => none

/-- The FLUSH_DONE record of ring q waits for the translation of a page of ring r. -/
def State.flushNeeds (s : State) (q r page : Nat) : Bool :=
  let x := s.ring r
  (s.ring q).flush.any (fun f => f.waits) && s.flushTarget q == some r && (q == r || x.accepts) &&
    pageOf (x.slotAddr x.tail) == page

/-- A slot of an abandoned record of ring r that is to be written over waits for its page (R309). -/
def State.mendNeeds (s : State) (r page : Nat) : Bool :=
  let x := s.ring r
  (x.state == .flushing || x.orphaned) &&
    x.part.any (fun p => decide (4 ≤ p.2) && pageOf (x.slotAddr (x.tail + p.2 / 4)) == page)

/-- Something waits for the translation of a page of a ring. -/
def State.waitsPage (s : State) (r page : Nat) : Bool :=
  s.mendNeeds r page || anyBelow 32 (fun p => (s.threadNeeds p r page).isSome || s.flushNeeds p r page)

/-- What a thread waits for may be issued in this mode: records where the mode executes, the rest while the thread
may run (R37, R38). -/
def State.waitMay (s : State) (p : Nat) : Bool :=
  match (s.thr p).wait with
  | .record _ => s.mode.mode.executes
  | _ => s.mayRun p

/-- Something that waits for a page of a ring may go on in this mode: its Translation Request may go out (R37). -/
def State.askMay (s : State) (r page : Nat) : Bool :=
  s.mode.mode.executes && s.mendNeeds r page ||
    anyBelow 32 (fun p => (s.threadNeeds p r page).isSome && s.waitMay p ||
      s.mode.mode.executes && s.flushNeeds p r page)

/-- The requests that wait are made, as far as they may go out; one whose page has come meanwhile, or whose ring
translates no more, is needed no more. One that something needs waits on with it where the mode holds that back
(R37). -/
def State.askWanted (s : State) : State :=
  overList s.dma.wanted (fun q s =>
    if s.lookup q.ring q.page q.write ≠ .miss then s
    else if q.needed && !s.askMay q.ring q.page then s.modDma (fun d => { d with wanted := d.wanted ++ [q] })
    else s.askPage q.ring q.page q.needed q.write)
    (s.modDma (fun d => { d with wanted := [] }))

/-- A Translation Request for which nothing waits any more is one ahead of the need (R271). -/
def State.unneed (s : State) : State :=
  s.modDma (fun d => { d with
    trans := d.trans.map (fun q => { q with needed := q.needed && s.waitsPage q.ring q.page })
    wanted := d.wanted.map (fun q => { q with needed := q.needed && s.waitsPage q.ring q.page }) })

/-! ## Giving up what a thread waits for (R380, R251) -/

/-- The island release that a thread waits for: it leaves the wait, and where no other thread shares
it and its leave has not come, the request is withdrawn. -/
def State.leaveRelease (s : State) (r i : Nat) : State :=
  match (s.isl i).release with
  | none => s
  | some rel =>
    let rings := rel.rings.filter (· != r)
    if rings = [] ∧ rel.mech = .instruction ∧ !rel.granted then
      (s.modIsl i (fun x => { x with release := none })).leaveWithdraw (isRelease i)
    else s.modIsl i (fun x => { x with release := some { rel with rings := rings } })

/-- A capture under way is dropped. -/
def State.dropCapture (s : State) (l : Nat) : State := s.setCapture l none

/-- The islands captured, bit i for island i. -/
def capturedMask (got : List (Nat × Option (BitVec 576))) : Nat :=
  maskOf 48 (fun i => got.any (fun e => e.1 == i && e.2.isSome))

/-- What CAPTURE writes (R366). -/
def captureBytes (stamp : Nat) (got : List (Nat × Option (BitVec 576))) : List Byte :=
  leBytes 8 stamp ++ leBytes 8 (capturedMask got) ++
    got.flatMap (fun e => leBytes 72 ((e.2.map BitVec.toNat).getD 0))

/-- The stamp of a capture: the device time it is taken, within 6 ns (R104). -/
def State.edgeStamp (s : State) (time : Nat) : Nat × State :=
  let (n, s) := s.draw
  ((time + 2 ^ 64 + Config.freeValue n % 13 - 6) % 2 ^ 64, s)

/-- The snapshot is taken: its bytes are staged, and the thread goes on. -/
def State.takeCapture (s : State) (r l stamp : Nat) (got : List (Nat × Option (BitVec 576))) : State :=
  ((s.dropCapture l).modCur r (fun c => { c with staged := some (captureBytes (stamp % 2 ^ 64) got) })).wakeThread r
    0 (capturedMask got)

/-- A frozen fabric can change no register: a capture that waits is taken at once, at the time it is
taken (R105). -/
def State.captureNow (s : State) (l : Nat) : State :=
  match s.captureOn l with
  | none => s
  | some c =>
    let (stamp, s) := s.edgeStamp (time64 s.tb.sec s.tb.nsec)
    s.takeCapture c.ring l stamp (s.captured l c.named)

/-- The fabric freezes, and the captures that wait are taken (R105); or it goes on, and the islands whose release
the freeze has kept waiting leave the sealed state (R40, R41, R182). -/
def State.freeze (s : State) (on : Bool) : State :=
  let was := s.mode.frozen
  let s := s.setFrozen on
  if on then overAll 16 (fun l s => s.captureNow l) s
  else if was then overAll 48 (fun i s => s.leaveSeal i) s
  else s

/-- A frame that a thread gives up keeps its place at the port; nobody is told (R368). -/
def State.orphanFrames (s : State) (r p : Nat) : State :=
  s.modPort p (fun x => { x with
    txq := x.txq.map (fun f => if f.ring = r then { f with ring := 32 } else f) })

/-- Pages whose translations have come for what a ring waits for serve it no more (R518). -/
def State.staleFresh (s : State) (r : Nat) : State := s.modRing r (fun x => { x with fresh := [] })

/-- A thread waits for nothing: with the wait goes the need of its translation. -/
def State.endWait (s : State) (r : Nat) : State :=
  let t := s.modThr r (fun t => { t with wait := .none })
  match (s.thr r).wait with
  | .dma | .fence | .record _ => t.unneed
  | _ => t

/-- What a thread waits for is withdrawn (R380); its reads that are open run on for nobody (R265). -/
def State.withdrawWait (s : State) (r : Nat) : State :=
  let s :=
    match (s.thr r).wait with
    | .leave => s.leaveWithdraw (· == Asker.program r)
    | .release i => s.leaveRelease r i
    | .capture l => s.dropCapture l
    | .dma | .fence => (s.abandonReads (fun x => x.ring == r)).staleFresh r
    | .record d => s.staleFresh d
    | .tx p => s.orphanFrames r p
    | _ => s
  s.endWait r

/-- A frame taken for a record that is not committed is lost (R370). -/
def State.loseTaken (s : State) (c : Cur) : State :=
  if c.taken.isSome then s.rejectFrames (c.op 1 0 12) 1 else s

/-- Accesses to user logic that a discarded thread asked for: one presented goes on with nobody to
answer, one that waits is gone. -/
def State.orphanAccesses (s : State) (r i : Nat) : State :=
  s.modIsl i (fun x => { x with ureg := { x.ureg with
    busy := x.ureg.busy.map (fun a => if a.who = .ring r then { a with who := .keeper } else a)
    waiting := x.ureg.waiting.filter (fun a => a.who != .ring r) } })

/-- A lease that was granted to an instruction that will not keep it is released (R380). -/
def State.dropGrant (s : State) (c : Cur) : State :=
  match c.reply with
  | some (0, h) => if c.opcode = 0x60 then s.leaveDrop h else s
  | _ => s

/-- The instruction in flight is dropped without a trace (R308). -/
def State.dropCur (s : State) (r : Nat) : State :=
  let s :=
    match (s.thr r).wait with
    | .fabric i => s.orphanAccesses r i
    | _ => s
  let s :=
    match (s.thr r).cur with
    | some c => s.dropGrant c
    | none => s
  ((s.withdrawWait r).modThr r (fun t => { t with cur := none })).dropPair r

/-! ## Enabling (R292) -/

/-- The page of ring memory that the first 64 slots occupy is translated ahead, as soon as a request may go out
(R37, R263, R270). -/
def State.translateStart (s : State) (r : Nat) : State :=
  if s.translates r && (s.ring r).kind != 2 then
    s.askPage r (s.ring r).base false ((s.ring r).kind == 1)
  else s

/-- RING_ENTRY names a word of program memory of the tenant (R292). -/
def State.entryOk (s : State) (r : Nat) : Bool :=
  let a := (s.ring r).entry
  let t := ringTenant r
  decide (0x3100000 ≤ a ∧ a < 0x3180000) &&
    (t == 0 || s.pageOwner ((a - 0x3100000) / 4096) == some t)

/-- ENABLE = 1 on a ring in DISABLED (R292, R326). In HOLD its thread stands at a boundary (R287). -/
def State.enableRing (s : State) (r : Nat) : State :=
  let s := s.modRing r (fun x => { x with
    enable := true, head := 0, tail := 0, fetched := [], part := none, partPages := [], timer := false
    flush := none, disableWanted := false, roLast := none, fresh := [] })
  let s := (s.modThr r (fun _ => { paused := s.holds })).waterline r
  let x := s.ring r
  if x.kind = 2 ∧ !s.entryOk r then s.ringFault r 5 0x21
  else
    let s := s.modRing r (fun x => { x with state := .running })
    let s := s.modThr r (fun t => { t with pc := field x.entry 2 17 })
    s.translateStart r

/-! ## Flush (R307 to R312) -/

/-- The record type a waiting thread produces: its completion, a RECEIVE or an EMIT record. -/
def State.waitingType (s : State) (r : Nat) : Nat :=
  match (s.thr r).cur with
  | some c => if c.fin.isSome then 1 else if c.opcode = 0x52 then 2 else 3
  | none => 1

/-- A thread has a record for a ring that has been neither written nor lost: it waits for it, or has been made
ready to write it and has not run. -/
def State.producesFor (s : State) (r dst : Nat) : Bool :=
  let t := s.thr r
  (t.wait == .record dst || t.wait == .none) &&
    t.cur.any (fun c => c.reply.isNone && c.dest.any (fun d => d.1 == dst))

/-- The flush ends: its state, its event and its vector (R308 to R311, R293, R315). R309 names no state for a
RETURN ring: it goes on as RUNNING (DESIGN CHOICE, log 57). -/
def State.flushEnds (s : State) (r : Nat) (f : Flush) : State :=
  let word3 := flag f.partialItem 0 + flag f.partialDone 1 + flag f.abandoned 2
  let s := s.modRing r (fun x => { x with
    flush := none, disableWanted := false, fresh := []
    state := if x.disableWanted then .disabled else if x.kind = 2 then .halted else .running })
  let s := s.event 0x0431 0 (ringTenant r)
    [(1, ringTenant r), (1, r), (2, 0), (4, f.discarded), (4, word3)]
  s.raise (ringTenant r) (ringLocal r)

/-- The FLUSH_DONE record of another ring waits to be written into a ring. -/
def State.flushWaitsFor (s : State) (r dst : Nat) : Bool :=
  r != dst && (s.ring r).flush.any (fun f => f.waits) && s.flushTarget r == some dst

/-- The record that stands begun in a ring is a thread's last of an instruction that has ended, its completion
record apart: nothing writes it on once the ring accepts no record. -/
def State.leftIn (s : State) (dst : Nat) : Option Rec :=
  match (s.ring dst).part with
  | some (p, _) => if p.type == 2 || p.type == 3 then
      (if (s.thr p.from_).cur.any (fun c => c.fin.isSome) then some p else none) else none
  | none => none

/-- Such a record is lost where its ring stops or is flushed, and its thread goes on (R305, R309). -/
def State.loseLeft (s : State) (dst : Nat) : State :=
  match s.leftIn dst with
  | some p =>
    (s.recordLost dst p).modThr p.from_ (fun t => if t.wait = .record dst then { t with wait := .none } else t)
  | none => s

/-- A poll whose record in hand has been lost goes on as though it had been written: a frame not taken yet leaves
its area, a frame counts with its last record, and the final record is not due again (R305, R370, R424). -/
def State.pollLost (s : State) (r : Nat) (c : Cur) : State :=
  let i := c.op 1 0 12
  let wrote := fun (s : State) (len frag : Nat) =>
    if frag + 1 = fragments len then s.modCur r (fun c => { c with progress := c.progress + 1, taken := none })
    else (s.rejectFrames i 1).modCur r (fun c => { c with taken := none })
  match c.taken, (s.partner i).frames with
  | some frame, _ => wrote s frame.2.1 c.frag
  | none, f :: rest => wrote (s.modPartner i (fun x => { x with frames := rest })) f.len 0
  | none, [] => s.modPartner i (fun x => { x with final := true })

/-- The frame in hand of a poll that ends here: one of which a record has still to come is lost (R312, R380,
R423). -/
def State.pollDrops (s : State) (r : Nat) (c : Cur) : State :=
  if c.lostRecord then s.pollLost r c else (s.loseTaken c).modCur r (fun c => { c with taken := none })

/-- Frames that a poll has delivered. -/
def State.delivered (s : State) (r : Nat) : Nat := ((s.thr r).cur.map Cur.progress).getD 0

/-- A poll that a flush ends before another record (R312, R380, R423). -/
def State.flushPoll (s : State) (r : Nat) (c : Cur) : State :=
  let s := (s.withdrawWait r).pollDrops r c
  (s.setReg r (c.op 1 24 4) (s.delivered r)).endInstr r 0x10 0

/-- The instruction in flight at a flush (R308, R346, R380). -/
def State.flushInFlight (s : State) (r : Nat) : State :=
  let t := s.thr r
  match t.cur with
  | none => s.withdrawWait r |>.dropPair r
  | some c =>
    let inChunk := c.xl.isSome || c.staged.isSome
    let committed := c.progress != 0 || c.once || s.recordBegun r || c.lostRecord || (c.opcode == 0x31 && c.xl.isSome) ||
      (match t.wait with | .tx _ => true | _ => false)
    let count := fun (s : State) => if (s.ring r).kind = 2 then s.modRing r (fun x => { x with
      flush := x.flush.map (fun f => { f with discarded := f.discarded + 1 }) }) else s
    if c.fin.isSome then s
    else if !c.started then count (s.dropCur r)
    else if c.flagR && !committed then count (s.dropCur r)
    -- a poll stands between two records; one that has been begun goes on
    else if c.opcode = 0x52 then (if s.recordBegun r then s else s.flushPoll r c)
    else
      match t.wait with
      -- a thread that T16 paused between two chunks ends there (R312)
      | .dma => if t.paused && !inChunk then (s.withdrawWait r).endInstr r 0x10 0 else s
      | .fabric _ | .fence => s
      | .record _ => s
      | .none =>
        -- a wait that has ended but has not run again ends as one that goes on (R346)
        if inChunk || (c.reply.isSome && c.opcode != 0x07 && c.opcode != 0x08) then s
        else s.endInstr r 0x10 0
      | _ => (s.withdrawWait r).endInstr r 0x10 0

/-- The record that a thread has in hand is lost: it goes on as though it had been written, and a flush that found
it in flight goes on with it (R305, R309). -/
def State.goesOn (s : State) (r : Nat) : State :=
  let s := s.wakeThread r 0 2
  if (s.ring r).state = .flushing then s.flushInFlight r else s

/-- The records that wait for a RETURN ring are discarded, their producers going on as though they
had been written (R305, R309). Answers how many, one that has been begun apart. -/
def State.discardWaiting (s : State) (dst : Nat) : Nat × State :=
  let left := (s.leftIn dst).map (fun p => p.from_)
  let waiting := (List.range 32).filter (fun r => s.producesFor r dst && left != some r)
  let flushes := (List.range 32).filter (fun r => s.flushWaitsFor r dst)
  let begun := fun r => (s.ring dst).part.bind (fun p => if p.1.from_ = r then some p.1.type else none)
  let lose := fun (r type : Nat) (s : State) =>
    s.recordLost dst { type := type, status := 0, tag := 0, from_ := r, body := [] }
  let s := overList waiting (fun r s => (lose r ((begun r).getD (s.waitingType r)) s).goesOn r) s
  let s := overList flushes (fun r s => (lose r 4 s).flushEnds r ((s.ring r).flush.getD {})) s
  (((waiting ++ flushes).filter (fun r => (begun r).isNone)).length, s)

/-- The record that stands begun in a ring is lost at once where the ring stops, and counted (R305, R309). What is
written of it stays for the ring's flush. -/
def State.loseBegun (s : State) (dst : Nat) : State :=
  match (s.ring dst).part with
  | none => s
  | some (p, _) =>
    if (s.leftIn dst).isSome then s.loseLeft dst
    else if s.flushWaitsFor p.from_ dst && p.type == 4 then
      (s.recordLost dst p).flushEnds p.from_ ((s.ring p.from_).flush.getD {})
    else if s.producesFor p.from_ dst then (s.recordLost dst p).goesOn p.from_
    else s

/-- The frame-instruction loads of a flushed ring are abandoned, but for one whose FRAME_LOAD is in flight:
that ends with its instruction (R176, R363). -/
def State.flushLoads (s : State) (r : Nat) : State :=
  let going := fun i => (s.thr r).cur.any (fun c => c.fin.isNone && c.loads i)
  overAll 48 (fun i s => if s.ownsLoad r i ∧ !going i then s.abandoned i 3 0x10 else s) s

/-- A flush starts (R307 to R310). -/
def State.startFlush (s : State) (r : Nat) : State :=
  let was := (s.ring r).state
  let s := s.modRing r (fun x => { x with
    state := .flushing, timer := false, flush := some {}, partPages := [], fresh := [] })
  let s := s.dropWanted r
  if (s.ring r).kind = 1 then
    let cut := (s.ring r).part.isSome && !(s.ring r).orphaned
    let (n, s) := s.discardWaiting r
    let s := (if was = .running then s.loseLeft r else s).unneed
    s.modRing r (fun x => { x with flush := some { discarded := n, abandoned := cut } })
  else (s.flushInFlight r).flushLoads r

/-- A write of FLUSH = 1 (R307). -/
def State.flushRing (s : State) (r : Nat) : State :=
  match (s.ring r).state with
  | .running | .stopped | .halted => s.startFlush r
  | _ => s

/-- A write of ENABLE = 0 (R293). -/
def State.disableRing (s : State) (r : Nat) : State :=
  let s := s.modRing r (fun x => { x with enable := false })
  match (s.ring r).state with
  | .running | .stopped | .halted =>
    (s.startFlush r).modRing r (fun x => { x with disableWanted := true })
  | .flushing => s.modRing r (fun x => { x with disableWanted := true })
  | .disabled => s

/-- A write of RING_CTRL (R291 to R293, R307). The setup fields are taken in DISABLED only. A KIND written to a
disabled ring leaves LEVEL as it is until the enable (DESIGN CHOICE, log 59). -/
def State.writeRingCtrl (s : State) (r v : Nat) : State :=
  let s := if (s.ring r).state = .disabled then
      s.modRing r (fun x => { x with
        kind := if field v 1 2 = 3 then x.kind else field v 1 2
        translated := bitAt v 3, hinted := bitAt v 4, timeoutSel := field v 5 2
        cpl := field v 8 2, cplEn := bitAt v 10 })
    else s
  if !bitAt v 0 then s.disableRing r
  else if (s.ring r).state = .disabled then s.enableRing r
  else if bitAt v 12 then s.flushRing r
  else s

/-- Complete items among `slots` slots from the one with a counter on, and whether the last is cut. `header`
gives an item's header word. -/
def countItems (header : Nat → Word) : Nat → Nat → Nat → Nat × Bool
  | 0, _, _ => (0, false)
  | n + 1, c, slots =>
    let k := itemSlots (header c).toNat
    if slots = 0 then (0, false)
    else if slots < k then (0, true)
    else
      let (m, cut) := countItems header n (c + k) (slots - k)
      (m + 1, cut)

/-- The header of an item of an ISSUE ring: as fetched, or as the host's memory holds it (log 23). -/
def Ring.headerAt (x : Ring) (time c : Nat) : Word :=
  let k := 4 * dist32 c x.head
  if k < x.fetched.length then BitVec.ofNat 32 (wordAt x.fetched k) else Config.hostWord time (x.slotAddr c)

/-- What a flush discards of an ISSUE ring: the complete items counted, and whether the tail lies
inside one (R308). -/
def State.countDiscarded (s : State) (r : Nat) : Nat × Bool :=
  let x := s.ring r
  countItems (x.headerAt s.coreNs) x.fill x.head x.fill

/-- The FLUSH_DONE record (R311). -/
def flushRecord (r : Nat) (f : Flush) (head : Nat) : Rec :=
  { type := 4, status := 0, tag := 0, from_ := r
    body := [BitVec.ofNat 32 f.discarded, BitVec.ofNat 32 head,
      reg32 [flag f.partialItem 0, flag f.partialDone 1, flag f.abandoned 2]] }

/-- A RETURN ring takes its own FLUSH_DONE record while it is FLUSHING (R309). -/
def State.tryFlushRecord (s : State) (r : Nat) (rec : Rec) : RecordTry × State :=
  match s.flushTarget r with
  | none => (.written, s)
  | some dst =>
    if dst = r then
      match (s.modRing r (fun x => { x with state := .running })).tryRecord r rec none with
      | (a, s) => (a, s.modRing r (fun x => { x with state := .flushing }))
    else s.tryRecord dst rec none

/-- FLUSH_DONE (R308 to R312): once the instruction in flight has ended, the rest of the flush; it
waits while its record does. HEAD of a RETURN ring is its tail before that record is written into it (DESIGN
CHOICE, log 57). -/
def State.flushDone (s : State) (r : Nat) : State :=
  let s := if (s.ring r).state = .flushing then State.mendAbandoned 9 s r else s
  let x := s.ring r
  if x.state ≠ .flushing ∨ (s.thr r).cur.isSome ∨ x.part.isSome then s
  else
    let (k, cut) := if x.kind = 0 then s.countDiscarded r else (0, false)
    let f := (x.flush).getD {}
    let f := { f with discarded := f.discarded + k, partialItem := f.partialItem || cut }
    let s := if x.kind = 0 then
        (s.modRing r (fun y => { y with fetched := [], lost := satAdd 0xFFFFFFFF y.lost k })).setHead r x.tail
      else s
    let s := s.modRing r (fun y => { y with flush := some f })
    let at_ := if x.kind = 0 then x.tail else if x.kind = 1 then (s.ring r).tail else 0
    match s.tryFlushRecord r (flushRecord r f at_) with
    | (.waits, s) => s.modRing r (fun y => { y with flush := y.flush.map (fun f => { f with waits := true }) })
    | (_, s) => s.flushEnds r f

/-! ## Doorbells (R295 to R299) -/

/-- The timer of R297 stops once the tail covers the item it runs for. -/
def State.settleTimer (s : State) (r : Nat) : State :=
  s.modRing r (fun x => { x with timer := x.timer && x.tailInside })

/-- A RING_TAIL write applied to a ring (R295, R299). -/
def State.applyTail (s : State) (r v : Nat) : State :=
  let x := s.ring r
  if x.kind = 2 then
    let s := s.modRing r (fun x => { x with tail := v })
    if x.state = .running then s.modThr r (fun t => { t with dbPend := true }) else s
  else if x.kind = 1 then s
  else if x.state = .running ∨ x.state = .stopped then
    if dist32 v x.head ≤ x.slots ∧ dist32 v x.tail ≤ x.slots then (s.setTail r v).settleTimer r
    else s.ringFault r 2 0
  else s

/-- A doorbell ends a WAIT_EVENT of its thread by its own command; here a RING_TAIL write is held by
PTU_DB_DELAY, behind the earlier ones of the ring (R516). -/
def State.writeTail (s : State) (r v : Nat) : State :=
  let delayed := s.mode.mode == .test && tabGet (fun _ => 0) s.ptu.dbDelay r != 0
  if delayed || s.ptuHeld.tails.any (fun p => p.1 == r) then
    s.modHeld (fun h => { h with items := h.items ++ [.tail r v] })
  else s.applyTail r v

/-- A RING_HEAD write (R304). -/
def State.writeHead (s : State) (r v : Nat) : State :=
  let x := s.ring r
  if x.kind ≠ 1 then s
  else if dist32 v x.head ≤ x.fill then (s.setHead r v).recordRetry r
  else (if x.state = .running then s.loseBegun r else s).ringFault r 3 0

/-- A RING_WM write (R313). -/
def State.writeWm (s : State) (r v : Nat) : State :=
  (s.modRing r (fun x => { x with wmHi := field v 0 16, wmLo := field v 16 16 })).waterline r

/-- A RING_WM_STATUS write: HI_SEEN and LO_SEEN W1C, ARM W1S, CLR_COUNT (R291). -/
def State.writeWmStatus (s : State) (r v : Nat) : State :=
  s.modRing r (fun x => { x with
    hiSeen := x.hiSeen && !bitAt v 1
    loSeen := x.loSeen && !bitAt v 2
    arm := x.arm || bitAt v 8
    wmCount := if bitAt v 9 then 0 else x.wmCount })

/-! ## Reset of a tenant's rings (R251, R312) -/

/-- The record that a thread of another tenant has begun in a ring. -/
def State.foreignPart (s : State) (r : Nat) : Option Rec :=
  match (s.ring r).part with
  | some (p, _) =>
    if (s.ring r).accepts && ringTenant p.from_ != ringTenant r &&
        (s.producesFor p.from_ r || (s.leftIn r).isSome) then some p else none
  | none => none

/-- The record that the thread of a ring has begun in another tenant's ring is lost as the thread is discarded, and
counted there; what of it is out is written over as a flush does it, before the next record (R305, R309). -/
def State.orphanRecord (s : State) (r : Nat) : State :=
  overAll 32 (fun d s =>
    match (s.ring d).part with
    | none => s
    | some (p, k) =>
      if (s.ring d).accepts && p.from_ == r && ringTenant d != ringTenant r then
        ((s.recordLost d p).modRing d (fun x => { x with
          part := some ({ p with from_ := 32 }, k), partPages := [] })).recordRetry d
      else s) s

/-- A ring and its thread are reset: the thread is discarded, its effects that were committed stay. A record that
another tenant's thread has begun there is lost; threads that wait to write one look again (R305). -/
def State.resetRing (s : State) (r : Nat) : State :=
  let foreign := s.foreignPart r
  let s := (s.orphanRecord r).dropCur r
  let s := (s.dropReads (fun x => x.ring == r)).dropWanted r
  let s := (s.modRing r (fun _ => {})).modThr r (fun _ => {})
  let s := match foreign with
    | some p =>
      let s := s.recordLost r p
      if s.producesFor p.from_ r then s.goesOn p.from_ else s
    | none => s
  s.recordRetry r

/-! ## Commands -/

/-- RING_ENABLE (R292): a RING_CTRL write with ENABLE = 1. -/
def execRingEnable (r : RingId) (v : Word) (s : State) : Host.Outcome State Fault Refusal :=
  answer (s.hostWriting (ringTenant r) (fun s => s.writeRingCtrl r (v ||| 1).toNat))

/-- RING_DISABLE (R293): a RING_CTRL write with ENABLE = 0. -/
def execRingDisable (r : RingId) (v : Word) (s : State) : Host.Outcome State Fault Refusal :=
  answer (s.hostWriting (ringTenant r) (fun s => s.writeRingCtrl r (v &&& 0xFFFFFFFE#32).toNat))

/-- RING_FLUSH (R307): a RING_CTRL write with FLUSH = 1. -/
def execRingFlush (r : RingId) (v : Word) (s : State) : Host.Outcome State Fault Refusal :=
  answer (s.hostWriting (ringTenant r) (fun s => s.writeRingCtrl r (v ||| 0x1000).toNat))

/-- FLUSH_DONE (R311). -/
def execFlushDone (r : RingId) (s : State) : Host.Outcome State Fault Refusal := answer (s.flushDone r)

/-- DOORBELL (R295): a RING_TAIL write to an ISSUE ring. -/
def execDoorbell (r : RingId) (v : Word) (s : State) : Host.Outcome State Fault Refusal :=
  answer (s.hostWriting (ringTenant r) (fun s =>
    if (s.ring r).kind = 0 then s.writeTail r v.toNat else s))

/-- PROGRAM_DOORBELL (R299): a RING_TAIL write to a PROGRAM ring. -/
def execProgramDoorbell (r : RingId) (v : Word) (s : State) : Host.Outcome State Fault Refusal :=
  answer (s.hostWriting (ringTenant r) (fun s =>
    if (s.ring r).kind = 2 then s.writeTail r v.toNat else s))

/-- RING_HEAD_WRITE (R304). -/
def execRingHeadWrite (r : RingId) (v : Word) (s : State) : Host.Outcome State Fault Refusal :=
  answer (s.hostWriting (ringTenant r) (fun s => s.writeHead r v.toNat))

/-- ISSUE_TIMEOUT (R297): the timer does not count where ferries do not execute (R287). -/
def execIssueTimeout (r : RingId) (s : State) : Host.Outcome State Fault Refusal :=
  let x := s.ring r
  answer (if x.timer && x.tailInside && x.state == .running && s.executing then s.ringFault r 1 0 else s)

/-- RING_WM_WRITE (R313). -/
def execRingWmWrite (r : RingId) (v : Word) (s : State) : Host.Outcome State Fault Refusal :=
  answer (s.hostWriting (ringTenant r) (fun s => s.writeWm r v.toNat))

/-- WM_ARM (R314): a RING_WM_STATUS write with ARM = 1. -/
def execWmArm (r : RingId) (v : Word) (s : State) : Host.Outcome State Fault Refusal :=
  answer (s.hostWriting (ringTenant r) (fun s => s.writeWmStatus r (v ||| 0x100).toNat))

/-- CLR_COUNT (R291): a RING_WM_STATUS write with CLR_COUNT = 1. -/
def execClrCount (r : RingId) (v : Word) (s : State) : Host.Outcome State Fault Refusal :=
  answer (s.hostWriting (ringTenant r) (fun s => s.writeWmStatus r (v ||| 0x200).toNat))

end Sys2Proof.Machine
end

