-- ==== Sys2Proof/Machine/Dma.lean ====
section
/-! DEFINITION. The DMA engine's commands (10): chunks, completions, the rate cap, translations,
invalidations, and MSI-X. -/

namespace Sys2Proof.Machine

/-! ## Chunks (R261, R270, R272, R276) -/

/-- The part of a transfer that lies in one 4 KiB page of host memory (R261). -/
def chunkLen (addr len : Nat) : Nat := min len (4096 - addr % 4096)

/-- The page a chunk's requests go to: `some none` untranslated, none while a translation is asked
for (R268 to R272). -/
def State.chunkPage (s : State) (r addr : Nat) (write parity testFail : Bool) :
    Option (Option Nat) × State :=
  match s.lookup r addr write with
  | .plain => (some none, s)
  | .miss => (none, s.askPage r addr true write)
  | .hit k e =>
    if parity then
      let s := s.atcParityError k e testFail
      if s.translates r then (none, s.askPage r addr true write) else (some none, s)
    else (some (some (e.target addr)), s.touch k r addr)

/-- Reads of one kind that a ring has out or gathered. -/
def State.readsOf (s : State) (r : Nat) (k : ReadKind) : List DmaRead :=
  s.dma.reads.filter (fun x => x.ring == r && x.kind == k)

/-- The fetch of an ISSUE ring's slots (R296). It asks for its own page alone: pages ahead are asked for by the
chunks of COPY_IN and COPY_OUT, not by a fetch or a record (DESIGN CHOICE, log 57). -/
def State.issueFetch (s : State) (r : Nat) (parity testFail : Bool) : State :=
  let (addr, len) := (s.ring r).fetchSpan
  if len = 0 ∨ s.readsOf r .fetch ≠ [] then s
  else
    match s.chunkPage r addr false parity testFail with
    | (none, s) => s
    | (some xl, s) => State.issueReads 64 s r .fetch addr len xl s.dma.invSeq

/-- The reads of a COPY_IN chunk, as far as they may go out. With the first of them the pages that follow the next
chunk's are asked for (R270). -/
def State.issueChunkReads (s : State) (r : Nat) (c : Cur) (parity testFail : Bool) : State :=
  let host := (c.a0 + c.progress) % 2 ^ 64
  let len := chunkLen host (c.len - c.progress)
  let out := ((s.readsOf r .data).map DmaRead.len).sum
  let (page, s) := match c.xl with
    | some xl => (some xl, s)
    | none => s.chunkPage r host false parity testFail
  match page with
  | none => s
  | some xl =>
    let before := s.dma.reads.length
    let born := if c.xl.isSome then c.xlAt else s.dma.invSeq
    let s := State.issueReads 64 s r .data (host + out) (len - out) xl born
    if before < s.dma.reads.length then
      let s := s.modCur r (fun c => { c with xl := some xl, xlAt := born })
      if c.xl.isNone then s.askAhead r (c.a0 + c.progress + len) (c.a0 + c.len) false else s
    else s

/-- The writes of a COPY_OUT chunk, as far as they may go out, translations ahead with the first of them; with the
last of them the chunk is committed. The charter is looked at again before the first of them (R397). -/
def State.issueChunkWrites (s : State) (r : Nat) (c : Cur) (parity testFail : Bool) : State :=
  let host := (c.a0 + c.progress) % 2 ^ 64
  let len := chunkLen host (c.len - c.progress)
  let left := c.staged.getD []
  if c.xl.isNone && !s.ownsRange (ringTenant r) (c.a1 + c.progress) len then
    ((s.endWait r).modCur r (fun c => { c with staged := none })).denyInsn r c (c.a1 + c.progress)
  else
  let (page, s) := match c.xl with
    | some xl => (some xl, s)
    | none => s.chunkPage r host true parity testFail
  match page with
  | none => s
  | some xl =>
    let ro := if (s.ring r).hinted && c.flagO && (s.fn (ringTenant r)).relaxed then some r else none
    let (rest, s) := State.issueWrites 64 s r (host + (len - left.length)) left xl ro
    let s := if c.xl.isNone && decide (rest.length < left.length) then
        s.askAhead r (c.a0 + c.progress + len) (c.a0 + c.len) true
      else s
    if rest = [] then (s.modThr r (fun t => { t with wait := .none })).unitDone r len (c.progress + len == c.len)
    else if rest.length < left.length then
      s.modCur r (fun c => { c with
        staged := some rest, xl := some xl, xlAt := if c.xl.isSome then c.xlAt else s.dma.invSeq })
    else s

/-- The zero-length read of a fence (R278), translated as the write it follows was. Of its page it asks for R, as a
read does (DESIGN CHOICE, log 57). -/
def State.issueFence (s : State) (r : Nat) (parity testFail : Bool) : State :=
  match (s.ring r).roLast with
  | none => s
  | some (dst, addr) =>
    if s.readsOf r .fence ≠ [] then s
    else if !s.readAllowed (ringTenant r) 0 then s.noteCap
    else
      match s.chunkPage dst addr false parity testFail with
      | (none, s) => s
      | (some xl, s) =>
        let t := ringTenant r
        let tag := s.freeTag t
        let x : DmaRead :=
          { fn := t, ring := r, tag := tag, kind := .fence, addr := addr, len := 0, born := s.dma.invSeq
            page := xl.map (fun _ => pageOf addr) }
        (s.modDma (fun d => { d with reads := d.reads ++ [x] })).emit
          (.read t (tag % 1024) (match xl with | some p => p + addr % 4096 | none => addr) 0 xl.isSome)

/-- DMA_CHUNK_ISSUE (R261, R263): what the ring's thread waits for is issued. The entry its lookup
meets may hold a parity error, and its storage may fail its test (R272). -/
def execDmaChunkIssue (r : RingId) (parity testFail : Bool) (s : State) :
    Host.Outcome State Fault Refusal :=
  let t := s.thr r
  answer (if !s.mayRun r then s
    else match t.wait with
      | .dma =>
        match t.cur with
        | none => if (s.ring r).state = .running then s.issueFetch r parity testFail else s
        | some c =>
          if c.opcode = 0x30 then s.issueChunkReads r c parity testFail
          else s.issueChunkWrites r c parity testFail
      | .fence => s.issueFence r parity testFail
      | _ => s)

/-! ## Completions (R265) -/

/-- A read has failed: its ring's other reads of the kind are given up, those that have arrived among them, and the
instruction, or the fetch, ends with the status (R265). Those open keep tag and space until their completions come,
which are expected ones (DESIGN CHOICE, log 61). -/
def State.readFails (s : State) (x : DmaRead) (status : Nat) : State :=
  let s := s.abandonReads (fun y => y.ring == x.ring && y.kind == x.kind)
  let s := s.dmaError x.ring status x.addr
  let ready := fun (s : State) => s.modThr x.ring (fun t => { t with wait := .none })
  match x.kind with
  | .gone => s
  | .fetch => (ready s).ringFault x.ring 4 status
  | .data | .fence => ((ready s).modCur x.ring (fun c => { c with staged := none })).endInstr x.ring status 0

/-- The data of a ring's reads of one kind, in address order, once all have arrived. -/
def State.gathered (s : State) (r : Nat) (k : ReadKind) : Option (List Byte) :=
  (s.readsOf r k).mapM DmaRead.got |>.map List.flatten

/-- The reads of a ring are taken out of the completion store. -/
def State.takeReads (s : State) (r : Nat) (k : ReadKind) : State :=
  s.modDma (fun d => { d with
    reads := d.reads.filter (fun x => !(x.ring == r && x.kind == k)) }.prune)

/-- What the arrival of a read's data completes. -/
def State.readArrived (s : State) (r : Nat) (k : ReadKind) : State :=
  match s.gathered r k with
  | none => s
  | some bytes =>
    let ready := fun (s : State) => s.modThr r (fun t => { t with wait := .none })
    match k with
    | .fetch =>
      let s := ready (s.takeReads r k)
      s.modRing r (fun x =>
        let y := { x with fetched := x.fetched ++ bytesWords bytes }
        { y with timer := y.timer || y.tailInside })
    | .data =>
      match (s.thr r).cur with
      | some c =>
        if bytes.length = chunkLen (c.a0 + c.progress) (c.len - c.progress) then
          ready ((s.takeReads r k).modCur r (fun c => { c with staged := some bytes }))
        else s
      | none => s
    | .fence =>
      let s := (s.takeReads r k).modRing r (fun x => { x with roLast := none })
      ready (s.modCur r (fun c => { c with fenced := true }))
    | .gone => s

/-- Payload bytes of a completion: those of an Unsupported Request and a Completer Abort have none. -/
def cplPayload (status : CplStatus) (data : List Byte) : Nat :=
  match status with
  | .ok | .poisoned => data.length
  | .unsupported | .abort => 0

/-- A read outstanding bears this tag, which is 1,024 × function + the tag. -/
def State.readOf (s : State) (tag : Nat) : Option DmaRead :=
  s.dma.reads.find? (fun x => x.tag == tag && x.got.isNone)

/-- A completion reaches the thread's side of the completion store, where its read is still outstanding. -/
def State.deliver (s : State) (tag : Nat) (status : CplStatus) (data : List Byte) : State :=
  match s.readOf tag with
  | some x =>
    let fails := fun (aer : AerError) (code : Nat) =>
      ((s.modDma (fun d => { d with reads := d.reads.erase x })).aerBit x.fn aer).readFails x code
    match status with
    | .ok =>
      if data.length ≠ x.len then s
      else
        let s := s.modTen x.fn (fun t => { t with rdBytes := (t.rdBytes + x.len) % 2 ^ 64 })
        if x.kind = .gone then s.modDma (fun d => { d with reads := d.reads.erase x }.prune)
        else
          (s.modDma (fun d => { d with
            reads := d.reads.map (fun y => if y == x then { y with got := some data } else y) })).readArrived
            x.ring x.kind
    | .unsupported => fails .unsupported 0x40
    | .abort => fails .abort 0x41
    | .poisoned => fails .poisoned 0x43
  | none => s

/-- A completion of this tag is held by the test unit. -/
def State.heldCpl (s : State) (tag : Nat) : Bool := s.ptuHeld.cpls.any (fun p => p.1 == tag)

/-- PTU_DMA_STRETCH of the function whose read this is (R517). -/
def State.stretches (s : State) (x : DmaRead) : Bool :=
  s.mode.mode == .test && tabGet (fun _ => 0) s.ptu.stretch x.fn != 0

/-- DMA_COMPLETION (R265, R267, R517): its payload is metered as it comes. One that answers no read outstanding, or
one whose completion is held already, is unexpected: it is dropped, and the function reports it. -/
def execDmaCompletion (tag : Nat) (status : CplStatus) (data : List Byte) (s : State) :
    Host.Outcome State Fault Refusal :=
  let got := s.meter (cplPayload status data)
  answer (match (if s.heldCpl tag then none else s.readOf tag) with
    | some x =>
      if s.stretches x then
        let code := match status with | .ok => 0 | .unsupported => 1 | .abort => 2 | .poisoned => 3
        got.modHeld (fun h => { h with items := h.items ++ [.cpl tag code data] })
      else got.deliver tag status data
    | none =>
      if s.link.up && decide (tag / 1024 < 8) then got.aerBit (tag / 1024) .unexpected else s)

/-- What the test unit held is let go (R514, R516, R517). -/
def State.letGo (s : State) (i : HeldItem) : State :=
  let s := s.modHeld (fun h => { h with items := h.items.erase i })
  match i with
  | .tail r v => s.applyTail r v
  | .cpl tag code data =>
    s.deliver tag (match code with | 0 => CplStatus.ok | 1 => .unsupported | 2 => .abort | _ => .poisoned) data

/-- DMA_COMPLETION_TIMEOUT (R265): never while Completion Timeout Disable is set, nor for a
completion that has arrived and is held (R517). -/
def execDmaCompletionTimeout (tag : Nat) (s : State) : Host.Outcome State Fault Refusal :=
  answer (match s.readOf tag with
    | none => s
    | some x =>
      if (s.fn x.fn).ctoDisable || s.heldCpl tag then s
      else
        ((s.modDma (fun d => { d with reads := d.reads.erase x })).aerBit x.fn .timeout).readFails x 0x42)

/-! ## The rate cap (R267) -/

/-- The device asks for the DMA-rate leave, with a timeout of 100 µs (R481). -/
def State.askRate (s : State) : State :=
  (s.modDma (fun d => { d with rate := .asked, capRun := 0 })).leaveAsk (s.deviceReq .dmaRate 100000)

/-- What the cap, a full queue or a mode held back may go again: completions, messages, translations, and the
records that wait. -/
def State.requestsResume (s : State) : State :=
  (s.cplsResume.wakeAll (fun w =>
    match w with | .record d => (s.ring d).hasSpace 1 | _ => false)).sendAllPending.askWanted

/-- DMA_RATE_WINDOW (R267): a 1 µs window ends. -/
def execDmaRateWindow (s : State) : Host.Outcome State Fault Refusal :=
  let d := s.dma
  let capped := decide (8000 ≤ d.winBytes) || d.delayed
  let quiet := if 6000 < d.winBytes then 0 else d.quietRun + 1
  let s := s.modDma (fun d => { d with
    winBytes := 0, delayed := false
    capRun := if capped then min 10 (d.capRun + 1) else 0
    quietRun := min 1000 quiet
    retryWindows := d.retryWindows - 1 })
  let s := s.requestsResume
  answer (match d.rate with
    | .none =>
      if d.retryWindows = 1 ∨ (d.retryWindows = 0 ∧ capped ∧ d.capRun + 1 ≥ 10) then s.askRate else s
    | .asked => s
    | .held =>
      if 1000 ≤ quiet then
        ((s.modDma (fun d => { d with rate := .none, capRun := 0 })).leaveFree (· == .dmaRate)).rateEvent 4
      else s)

/-! ## Translations (R271) -/

/-- The wait of a thread for a translation ends with its fault: a record is lost where its thread next runs
(log 24), a fetch stops its ring, and any other access ends its instruction. -/
def State.faultWait (s : State) (p : Nat) : State :=
  let ready := s.modThr p (fun t => { t with wait := .none })
  match (s.thr p).wait, (s.thr p).cur with
  | .record _, _ => s.wakeThread p 0x44 1
  | _, none => ready.ringFault p 4 0x44
  | _, some _ => (ready.modCur p (fun c => { c with staged := none })).endInstr p 0x44 0

/-- A translation that was needed has failed, or grants no more than `r` and `w`: what waits for it without its
permission ends (R271). Where nothing does, the fault is not reported. -/
def State.translationFails (s : State) (q : TransReq) (r w : Bool) : State :=
  let fails := (List.range 32).filter (fun p =>
    (s.threadNeeds p q.ring q.page).any (fun write => !(if write then w else r)))
  let flushes := (List.range 32).filter (fun p => !w && s.flushNeeds p q.ring q.page)
  let mends := !w && s.mendNeeds q.ring q.page
  if fails = [] ∧ flushes = [] ∧ !mends then s
  else
    let s := s.transFault q.ring q.page q.write
    -- slots that cannot be mended are left as they are (log 24)
    let s := if mends then s.modRing q.ring (fun x => { x with part := none }) else s
    let s := overList fails (fun p s => s.faultWait p) s
    overList flushes (fun p s =>
      (s.recordLost q.ring { type := 4, status := 0, tag := 0, from_ := p, body := [] }).flushEnds p
        ((s.ring p).flush.getD {})) s

/-- A translation that has come for something that waits for it under PTU_ATC_MISS serves it once (R518). -/
def State.noteFresh (s : State) (q : TransReq) : State :=
  if s.mode.mode = .test ∧ bitAt s.ptu.atcMiss q.fn ∧ s.waitsPage q.ring q.page then
    s.modRing q.ring (fun x => { x with fresh := q.page :: x.fresh.filter (· != q.page) })
  else s

/-- TRANSLATION_COMPLETION (R267, R269, R271, R273): `page` is the translated page, `size` the logarithm of the page
size. A translation without the permission asked for is not cached. -/
def execTranslationCompletion (id : Nat) (ok : Bool) (page size : Nat) (r w : Bool) (s : State) :
    Host.Outcome State Fault Refusal :=
  answer (match s.dma.trans.find? (fun q => q.id == id) with
    | none => if ok && s.link.up then s.meter 8 else s
    | some q =>
      let s := (if ok then s.meter 8 else s).modDma (fun d => { d with trans := d.trans.erase q })
      if q.stale then s.recordRetry q.ring
      else if !ok || (!r && !w) || !(if q.write then w else r) then
        if q.needed then s.translationFails q (ok && r) (ok && w) else s
      else
        let k := max (12 + (s.fn q.fn).stu) (min 30 size)
        let s := s.cache
          { fn := q.fn, page := q.page / 2 ^ k * 2 ^ k, size := k, tpage := page / 2 ^ k * 2 ^ k, r := r, w := w }
        (s.noteFresh q).recordRetry q.ring)

/-! ## Invalidation (R273 to R275) -/

/-- The entries of a function that overlap a range go, and matching Translation Requests will not be
cached (R273). -/
def State.invalidateRange (s : State) (t page bytes : Nat) : State :=
  s.modDma (fun d => { d with
    atc := d.atc.filter (fun p => match p.2 with
      | some e => !(e.fn == t && overlaps e.page (2 ^ e.size) page bytes)
      | none => false)
    trans := d.trans.map (fun q =>
      if q.fn == t && overlaps q.page 4096 page bytes then { q with stale := true } else q) })

/-- Requests of a function that have left X1 and are not answered. -/
def Dma.invsHeld (d : Dma) (t : Nat) : Nat :=
  (d.invs.filter (fun q => q.fn == t && !q.inX1 && !q.own)).length

/-- The range that an untranslated address with its S bit names (R273): with S = 1, at bit 11, the lowest
clear bit from bit 12 on gives its size; with S = 0 it is 4 KiB. -/
def invRange (addr : Nat) : Nat × Nat :=
  if bitAt addr 11 then
    let k := ((List.range 52).find? (fun k => !bitAt addr (12 + k))).getD 51
    let bytes := 2 ^ (13 + k)
    (addr / bytes * bytes % 2 ^ 64, bytes)
  else (pageOf addr, 4096)

/-- A function's Invalidate Requests in X1 leave it, the oldest first, while fewer than 32 are held (R274). -/
def State.admitInvs (s : State) (t : Nat) : State :=
  overList (s.dma.invs.filter (fun q => q.fn == t && q.inX1)) (fun q s =>
    if 32 ≤ s.dma.invsHeld t then s
    else
      (s.modDma (fun d => { d with
        invSeq := d.invSeq + 1
        invs := d.invs.map (fun x => if x == q then { x with inX1 := false, seq := d.invSeq + 1 } else x)
        })).invalidateRange t q.page q.bytes) s

/-- The function's requests that may leave X1 do; one that does not is told (R274). -/
def State.takeInvs (s : State) (t : Nat) : State :=
  let s := s.admitInvs t
  if s.dma.invs.any (fun q => q.fn == t && q.inX1) then
    ((s.modTen t (fun x => { x with invqOverflow := true })).event 0x0413 1 t [(1, t)]).raise 0 12
  else s

/-- INVALIDATE_REQUEST (R273, R274): a 33rd is held in X1, and so is one that comes in RESET. -/
def execInvalidateRequest (t : TenantId) (addr itag : Nat) (s : State) : Host.Outcome State Fault Refusal :=
  let (page, bytes) := invRange addr
  let q : InvReq := { fn := t, itag := itag, page := page, bytes := bytes, inX1 := true }
  answer (if !s.hostSends then s
    else
      let s := (s.meter 8).modDma (fun d => { d with invs := d.invs ++ [q] })
      if s.mode.mode = .reset then s else s.takeInvs t)

/-- A write chunk of a thread is in progress with the old translation. -/
def State.chunkMeets (s : State) (q : InvReq) (r : Nat) : Bool :=
  match (s.thr r).cur with
  | some c => c.opcode == 0x31 && (match c.xl with
      | some (some _) => decide (c.xlAt < q.seq) && overlaps (pageOf (c.a0 + c.progress)) 4096 q.page q.bytes
      | _ => false)
  | none => false

/-- A record of a ring has been begun with the old translation of one of its slots. -/
def Ring.partMeets (x : Ring) (q : InvReq) : Bool :=
  x.part.isSome && decide (x.partAt < q.seq) && anyBelow x.partPages.length (fun j =>
    (x.partPages.getD j none).isSome && overlaps (pageOf (x.slotAddr (x.tail + j))) 4096 q.page q.bytes)

/-- A write in progress with the old translation (R273). -/
def State.meetsWrite (s : State) (q : InvReq) : Bool :=
  anyBelow 32 (fun r => ringTenant r == q.fn && (s.chunkMeets q r || (s.ring r).partMeets q))

/-- INVALIDATE_READ_WAIT_END (R273): reads still open 56 µs after the request are discarded, and
their chunks are issued again. Itag 32 stands for the clearing of ATS Enable (R268). -/
def execInvalidateReadWaitEnd (t : TenantId) (itag : Nat) (s : State) :
    Host.Outcome State Fault Refusal :=
  answer (match s.dma.invs.find? (fun q =>
      q.fn == (t : Nat) && (if q.own then itag == 32 else q.itag == itag) && !q.inX1) with
    | none => s
    | some q =>
      let chunks := fun (x : DmaRead) => x.kind == .fetch || x.kind == .data
      let rings := (List.range 32).filter (fun r =>
        s.dma.reads.any (fun x => x.ring == r && x.kind != .gone && q.meetsRead x))
      let s := s.dropReads (fun x => rings.contains x.ring && chunks x || q.meetsRead x)
      overList rings (fun r s => s.modCur r (fun c => { c with xl := none })) s)

/-- INVALIDATION_COMPLETION (R273, R274): it enters X2 once no use in progress matches, and the next request
of the function that X1 holds leaves it. -/
def execInvalidationCompletion (t : TenantId) (itag : Nat) (s : State) :
    Host.Outcome State Fault Refusal :=
  answer (match s.dma.invs.find? (fun q => q.fn == (t : Nat) && q.itag == itag && !q.inX1 && !q.own) with
    | none => s
    | some q =>
      if s.dma.reads.any q.meetsRead || s.meetsWrite q || !s.link.up then s
      else if s.msixWaits || s.mode.mode = .reset then s.noteCap
      else
        let s := s.modDma (fun d => { d with invs := d.invs.erase q })
        let s := s.modTen t (fun x => { x with invalidations := (x.invalidations + 1) % 256 })
        (s.emit (.invalDone t itag)).admitInvs t)

/-- ATS_ENABLE_CLEAR (R268): handled as an invalidation of the whole address space, with nobody to answer.
Reads still open with the function's translations are kept 56 µs. -/
def State.clearAts (s : State) (t : Nat) : State :=
  let s := (s.modFn t (fun f => { f with atsEn := false })).invalidateRange t 0 (2 ^ 64)
  s.modDma (fun d =>
    let q : InvReq := { fn := t, itag := 32, page := 0, bytes := 2 ^ 64, own := true, seq := d.invSeq + 1 }
    { d with invSeq := d.invSeq + 1, invs := d.invs ++ [q] }.prune)

def execAtsEnableClear (t : TenantId) (s : State) : Host.Outcome State Fault Refusal :=
  answer (if s.configOpen t then s.clearAts t else s.configRetry t)

/-! ## MSI-X (R281) and Bus Master Enable (R238) -/

/-- VECTOR_UNBLOCK (R281): a vector's Mask is cleared; its pending message goes out unless something
else blocks it. -/
def execVectorUnblock (t : TenantId) (v : VectorId) (s : State) : Host.Outcome State Fault Refusal :=
  answer (s.hostWriting t (fun s =>
    (s.modMsx t v (fun m => { m with mask := false })).sendPending t))

/-- A write of Bus Master Enable (R238, R281). -/
def State.writeBme (s : State) (t : Nat) (v : Bool) : State :=
  let s := s.modFn t (fun f => { f with bme := v })
  if v then (overAll 4 (fun l s => s.recordRetry (4 * t + l)) s).sendPending t else s

/-- BUS_MASTER_ENABLE_WRITE (R238). -/
def execBusMasterEnableWrite (t : TenantId) (v : Bool) (s : State) : Host.Outcome State Fault Refusal :=
  answer (if s.configOpen t then s.writeBme t v else s.configRetry t)

/-! ## Reads by the host -/

/-- The words of zero data that a read of a length gets. -/
def zeroWords (len : Nat) : List Word := List.replicate ((len + 3) / 4) 0

/-- A read by the host that reaches a function goes on as `f` says; it gets zero in RESET and during an FLR
(R37, R251), and Unsupported Request where the function decodes no memory (R235). It stays with the host while
X1 or X4 reports full (R24, R27). -/
def State.readGate (s : State) (t len : Nat) (f : State → State) : State :=
  if !s.hostSends || s.forcedFull 4 then s
  else if !(s.fn t).mse || (s.fn t).d3hot then (s.aerBit t .refusedRead).emit (.unsupported t)
  else if s.mode.mode = .reset ∨ (s.fn t).flr ≠ none then s.emit (.cpl t (zeroWords len))
  else f s

/-- A read by the host of a register of function t of a length: what it gives. -/
def State.hostReading (s : State) (t len : Nat) (f : State → List Word × State) : State :=
  s.readGate t len (fun s =>
    let (w, s) := f s
    s.emit (.cpl t w))

/-- A read of a byte counter's low half latches its high half (R284). -/
def State.readBytesLo (s : State) (t : Nat) (writes : Bool) : Nat × State :=
  let x := s.ten t
  if writes then (lo32 x.wrBytes, s.modTen t (fun x => { x with wrHi := hi32 x.wrBytes }))
  else (lo32 x.rdBytes, s.modTen t (fun x => { x with rdHi := hi32 x.rdBytes }))

end Sys2Proof.Machine
end

