-- ==== Sys2Proof/Machine/LoadBase.lean ====
section
/-! DEFINITION. Writing and clearing frames (R108 to R110, R183, R219), and the end of a bitstream
load with an error (R130, R176). -/

namespace Sys2Proof.Machine

/-! ## Frames -/

/-- The count of a bank's presence restarts: it is absent from now on, and disabled without an
event (R219). -/
def State.restartBank (s : State) (b : Nat) : State :=
  let s := (s.modBank b (fun x => { cls := x.cls, valid := x.valid })).leaveWithdraw (· == Asker.bank b)
  (s.refreshPort (2 * b)).refreshPort (2 * b + 1)

/-- A frame of an I/O column has changed: the home ports see their setup and their bank anew (R405). -/
def State.ioChanged (s : State) (n : Nat) : State :=
  if n < 8064 ∧ 160 ≤ n % 168 then (s.refreshPort (2 * (n / 168))).refreshPort (2 * (n / 168) + 1) else s

/-- A frame has changed: synthesizers see their setup anew where it is a global one (R94, R110). -/
def State.synthChanged (s : State) (n : Nat) (before : State) : State :=
  if 8160 ≤ n then s.resynth before else s

/-- A global frame written after the first wake is held until the next one (R110). -/
def State.heldWrite (s : State) (n : Nat) : Bool := decide (8160 ≤ n) && s.mode.firstWake

/-- The frame engine writes a frame, data and check word together (R108, R110, R183). -/
def State.writeFrame (s : State) (n : Nat) (data : BitVec 2048) : State :=
  let old := s.frame n
  let logic := if s.heldWrite n then some (old.logic.getD old.data) else none
  ((s.setFrame n { data := data, check := checkWord (faddrOf n) data, logic := logic }).ioChanged n).synthChanged n s

/-- A frame counts as written by a completed load or a repair (R31 T12, R39). -/
def State.markFrame (s : State) (n : Nat) : State :=
  s.modLdr (fun l => { l with marks := l.marks ||| BitVec.ofNat 8192 (2 ^ n) })

/-- A frame that a load writes counts again once the load completes. -/
def State.unmarkFrame (s : State) (n : Nat) : State :=
  s.modLdr (fun l => { l with marks := l.marks &&& ~~~(BitVec.ofNat 8192 (2 ^ n)) })

/-- A load or a repair writes a frame: the home ports of a sealed island have stopped where it is an I/O column
frame (R173). -/
def State.stopPortsFor (s : State) (n : Nat) : State :=
  match frameIsland n with
  | some i => if 160 ≤ n % 168 ∧ (s.isl i).sealed then s.stopHomePorts i else s
  | none => s

/-- A frame of the load in progress is written: I/O minor 5 restarts its bank's count (R219), and the paths of
R177 make the island's SOURCE REPLACED. -/
def State.loadFrame (s : State) (n : Nat) (data : BitVec 2048) (replaces : Bool) : State :=
  let s := ((s.stopPortsFor n).writeFrame n data).unmarkFrame n
  match frameIsland n with
  | none => s
  | some i =>
    let s := if n % 168 = 165 then s.restartBank i else s
    if replaces then s.modIsl i (fun x => { x with replaced := true }) else s

/-- Every frame is cleared (R109). Global frames are held where R110 says so. -/
def State.clearFrames (s : State) : State :=
  let globals := (List.range 32).map (fun k => (8160 + k, (s.frame (8160 + k)).live))
  let before := s
  let s := { s with frames := [] }
  let s := s.modLdr (fun l => { l with marks := 0 })
  let s :=
    if s.mode.firstWake then
      overList globals (fun g s =>
        s.setFrame g.1 { clearedFrame g.1 with logic := some (BitVec.ofNat 2048 g.2) }) s
    else s.resynth before
  overAll 48 (fun b s => s.restartBank b) s

/-- What global frames hold moves to their logic latches (R110). -/
def State.globalsTake (s : State) : State :=
  overAll 32 (fun k s => s.setFrame (8160 + k) { s.frame (8160 + k) with logic := none }) s

/-- The finding of a frame as it stands (R112). -/
def State.findingOf (s : State) (n : Nat) : Nat × Finding :=
  let f := s.frame n
  secCheck (faddrOf n) f.data f.check

/-- A correctable finding corrected in place, with a fresh check word; a held global frame keeps its logic
latches (R112, R187, R110). -/
def State.fixFrame (s : State) (n : Nat) (f : Finding) : State :=
  let old := s.frame n
  let data := secCorrect f old.data
  ((s.setFrame n { old with data := data, check := checkWord (faddrOf n) data }).ioChanged n).synthChanged n s

/-- A rule has asked whether these frames pass their checks: a correctable error found is corrected (R112).
A frame that is not listed is a cleared one, and clean. Only the tide counts and logs findings (log 53). -/
def State.fixFrames (s : State) (p : Nat → Bool) : State :=
  overList ((s.frames.map Prod.fst).filter p) (fun n s =>
    let f := (s.findingOf n).2
    if f ≠ .clean ∧ f.passes then s.fixFrame n f else s) s

/-- Every strait and global frame has been written by a completed load and passes its check
(R31, guard of T12). -/
def State.straitsWritten (s : State) : Bool :=
  (List.range 128).all (fun k =>
    s.ldr.marks.getLsbD (8064 + k) && (s.findingOf (8064 + k)).2.passes)

/-- The I/O column of an island is valid (R39). -/
def State.ioValid (s : State) (i : Nat) : Bool :=
  (List.range 8).all (fun k =>
    s.ldr.marks.getLsbD (i * 168 + 160 + k) && (s.findingOf (i * 168 + 160 + k)).2.passes)

/-! ## A load's end -/

/-- Whether a load declares a frame (R120). -/
def Load.declares (l : Load) (n : Nat) : Bool := l.all || l.bitmap.getLsbD n

/-- The islands with a declared frame (R174). -/
def Load.islands (l : Load) : List Nat :=
  (List.range 48).filter (fun i => anyBelow 168 (fun k => l.declares (168 * i + k)))

/-- The frames declared (R120). -/
def Load.frames (l : Load) : BitVec 8192 := if l.all then BitVec.ofNat 8192 (2 ^ 8192 - 1) else l.bitmap

/-- An I/O column frame of the island is declared, or cleared by a START_FULL (R173). -/
def Load.declaresIo (l : Load) (i : Nat) : Bool :=
  l.full || anyBelow 8 (fun k => l.declares (168 * i + 160 + k))

/-- Islands whose bitstream load is open (R174). -/
def State.openIslands (s : State) : List Nat :=
  (List.range 48).filter (fun i => (s.isl i).loadState == .open && (s.isl i).frameLoad.isNone)

/-- FAR as an event shows it: all ones once it has advanced past the last frame. -/
def Load.farShown (l : Load) : Nat := if l.farEnd then 0xFFFF else l.far

/-- The words of this path are discarded from here on: of the host link until CLOSE (R166); of JTAG until ISC_DISABLE,
a reset of the TAP or a new ISC_ENABLE (DESIGN CHOICE, log 57). FORCE_HOST is spent with the load that ends (R160), one
refused at its first word among them, whatever load is in progress beside it (DESIGN CHOICE, log 57). -/
def State.discardPath (s : State) (p : Path) : State :=
  match p with
  | .host => s.modLdr (fun l => { l with hostDiscard := true, forceHost := false })
  | .jtag => s.modLdr (fun l => { l with jtagDiscard := true, forceHost := false })
  | _ => s

/-- A load on a path ends with an error: BITSTREAM_ERROR and the loader's status (R130, R160). -/
def State.loadError (s : State) (p : Path) (code off far : Nat) : State :=
  let s := s.discardPath p
  let s := s.modLdr (fun l => { l with lastError := code, lastPath := p.code })
  s.event 0x0210 2 scopeS
    [(1, code), (1, p.code), (1, s.ldr.chainIndex), (1, 0), (4, off), (2, far)]

/-- The islands that a load leaves INCOMPLETE where it fails: those it declares (R176), and every other one
that a START_FULL outside LOAD has sealed (R130), but for one that frame instructions are loading. -/
def State.failedIslands (s : State) : List Nat :=
  if s.fullLoading then (List.range 48).filter (fun i => (s.isl i).frameLoad.isNone) else s.openIslands

/-- The load in progress ends with an error at a word (R130, R176). -/
def State.failLoad (s : State) (code off : Nat) : State :=
  match s.ldr.load with
  | none => s
  | some l =>
    let opened := s.failedIslands
    let s := s.modLdr (fun x => { x with load := none })
    let s := s.loadError l.path code off l.farShown
    overList opened (fun i s => s.incomplete i) s

/-- The load in progress ends because its source has stopped, or is abandoned (R130). No word has failed: the
offset reported is that of the next word awaited (DESIGN CHOICE, log 53). -/
def State.stopLoad (s : State) (code : Nat) : State :=
  match s.ldr.load with
  | none => s
  | some l => s.failLoad code l.off

end Sys2Proof.Machine
end

