-- ==== Sys2Proof/Machine/Container.lean ====
section
/-! DEFINITION. The Quokin containers of the flash (R132 to R135): their headers, directories and
verification; the order of the copies (R140) and their compatibility (R141). -/

namespace Sys2Proof.Machine

/-! ## Flash contents (R138) -/

/-- An erased byte of the flash. -/
def erased : Byte := 0xFF#8

/-- Bytes and words of the flash at an address. -/
def Flash.bytes (f : Flash) (a n : Nat) : List Byte := memRead erased f.cells a n
def Flash.num (f : Flash) (a n : Nat) : Nat := leNat (f.bytes a n)
def Flash.word (f : Flash) (a : Nat) : Word := BitVec.ofNat 32 (f.num a 4)

/-- Where a copy starts: 1 is A, 2 is B (R140). -/
def copyBase (c : Nat) : Nat := if c = 2 then 0x01000000 else 0

/-! ## Header and directory (R132, R133) -/

/-- An entry of the section directory. -/
structure Section where
  type : Nat
  index : Nat
  level : Nat
  off : Nat
  slen : Nat
  scrc : Word
  steppings : Nat
  deriving DecidableEq, Repr

/-- The entry that 32 bytes spell. -/
def sectionOf (b : List Byte) : Section :=
  let num := fun o n => leNat ((b.drop o).take n)
  { type := num 0 1, index := num 1 1, level := num 2 2, off := num 4 4, slen := num 8 4
    scrc := BitVec.ofNat 32 (num 12 4), steppings := num 16 4 }

/-- Header fields of a copy. -/
def Flash.seqOf (f : Flash) (c : Nat) : Nat := f.num (copyBase c + 8) 4
def Flash.lengthOf (f : Flash) (c : Nat) : Nat := f.num (copyBase c + 12) 4
def Flash.stampOf (f : Flash) (c : Nat) : List Word := bytesWords (f.bytes (copyBase c + 16) 16)
def Flash.sectionsOf (f : Flash) (c : Nat) : Nat := f.num (copyBase c + 32) 2
def Flash.headerWords (f : Flash) (c : Nat) : List Word := bytesWords (f.bytes (copyBase c) 64)

/-- Directory entry k of a copy: its bytes and what they spell. -/
def Flash.entryBytes (f : Flash) (c k : Nat) : List Byte := f.bytes (copyBase c + 64 + 32 * k) 32
def Flash.entry (f : Flash) (c k : Nat) : Section := sectionOf (f.entryBytes c k)
def Flash.directory (f : Flash) (c : Nat) : List Section :=
  (List.range (f.sectionsOf c)).map (f.entry c)

/-- The personality section of a chain index, the firmware's and the microcode's. -/
def Flash.personality (f : Flash) (c k : Nat) : Section := f.entry c (2 + k)

/-- `header_ok` of R140. -/
def Flash.headerOk (f : Flash) (c : Nat) : Bool :=
  let b := copyBase c
  f.num b 4 == 0x4E5A514B && f.num (b + 4) 2 == 1 && f.num (b + 6) 2 == 64 &&
    crc32c (f.bytes b 60) == f.word (b + 60)

/-! ## Verification (R134, R135) -/

/-- The order, alignment, overlap and trailer rules of R134 over the entries left, from the end of
what comes before them. -/
def layoutOk (length : Nat) : Nat → List Section → Bool
  | at_, [] => at_ + 4 == length
  | at_, e :: es =>
    e.off % 256 == 0 && e.slen % 4 == 0 && decide (at_ ≤ e.off) && layoutOk length (e.off + e.slen) es

/-- One type 1, one type 2, then type 3 with INDEX 0 on. -/
def typesOk (d : List Section) : Bool :=
  d.map Section.type == [1, 2] ++ List.replicate (d.length - 2) 3 &&
    (d.drop 2).map Section.index == List.range (d.length - 2)

/-- The next packet of a register of R116, NOP packets passed over, within a number of words: its
payload's byte address; none where another packet stands there. -/
def Flash.packetAt (f : Flash) (reg count : Nat) : Nat → Nat → Nat → Option Nat
  | 0, _, _ => none
  | fuel + 1, a, stop =>
    if stop < a + 4 then none
    else
      let h := (f.word a).toNat
      let n := field h 0 16
      if field h 24 8 ≠ 0xC5 then none
      else if field h 16 8 = 0 then Flash.packetAt f reg count fuel (a + 4 + 4 * n) stop
      else if field h 16 8 = reg ∧ n = count ∧ a + 4 + 4 * n ≤ stop then some (a + 4)
      else none

/-- A personality section begins with sync, IDCHK and STAMP, its CHAIN_INDEX the entry's and its
stamp the header's. -/
def Flash.beginOk (f : Flash) (c : Nat) (e : Section) : Bool :=
  let a := copyBase c + e.off
  let stop := a + e.slen
  let fuel := e.slen / 4
  decide (4 ≤ e.slen) && f.word a == 0x6E1FA7D2#32 &&
    (match f.packetAt 1 2 fuel (a + 4) stop with
      | none => false
      | some p =>
        field (f.num (p + 4) 4) 0 3 == e.index &&
          (match f.packetAt 2 4 fuel (p + 8) stop with
            | none => false
            | some q => bytesWords (f.bytes q 16) == f.stampOf c))

/-- A section's CRC and, of a personality, its beginning. -/
def Flash.sectionOk (f : Flash) (c : Nat) (e : Section) : Bool :=
  crc32c (f.bytes (copyBase c + e.off) e.slen) == e.scrc && (e.type != 3 || f.beginOk c e)

/-- `verify` of R135. -/
def Flash.verify (f : Flash) (c : Nat) : Bool :=
  let n := f.sectionsOf c
  let len := f.lengthOf c
  f.headerOk c && decide (len ≤ 0x1000000) && decide (3 ≤ n ∧ n ≤ 10) &&
    layoutOk len (64 + 32 * n) (f.directory c) && typesOk (f.directory c) &&
    (f.directory c).all (f.sectionOk c) &&
    crc32c (f.bytes (copyBase c) (len - 4)) == f.word (copyBase c + len - 4)

/-- `order` of R140: the copies to try. -/
def Flash.copyOrder (f : Flash) : List Nat :=
  match f.headerOk 1, f.headerOk 2 with
  | true, false => [1]
  | false, true => [2]
  | false, false => []
  | true, true =>
    let d := dist32 (f.seqOf 2) (f.seqOf 1)
    if 1 ≤ d ∧ d ≤ 0x7FFFFFFF then [2, 1] else [1, 2]

/-! ## Compatibility (R141, R142) -/

/-- KIL and PML ranges of a stamp. -/
def kilMin (st : List Word) : Nat := field (wordAt st 0) 0 16
def kilMax (st : List Word) : Nat := field (wordAt st 0) 16 16
def pmlMin (st : List Word) : Nat := field (wordAt st 1) 0 16
def pmlMax (st : List Word) : Nat := field (wordAt st 1) 16 16

/-- Neither minimum exceeds its maximum (R119). -/
def stampOrdered (st : List Word) : Bool := decide (kilMin st ≤ kilMax st ∧ pmlMin st ≤ pmlMax st)

/-- KIL and PML lie in a stamp's ranges. -/
def stampRange (st : List Word) (kil pml : Nat) : Bool :=
  decide (kilMin st ≤ kil ∧ kil ≤ kilMax st ∧ pmlMin st ≤ pml ∧ pml ≤ pmlMax st)

/-- PML lies outside a stamp's range (R141). -/
def pmlOutside (st : List Word) (pml : Nat) : Bool := !decide (pmlMin st ≤ pml ∧ pml ≤ pmlMax st)

/-- The stepping code of A1 (R141). -/
def steppingCode : Nat := 1

/-- Why R141 refuses: 1 KIL, 2 PML, 3 stepping, as LOAD_INCOMPATIBLE has it; 0 compatible. -/
def compatReason (st : List Word) (kil pml steppings : Nat) : Nat :=
  if !decide (kilMin st ≤ kil ∧ kil ≤ kilMax st) then 1
  else if !decide (pmlMin st ≤ pml ∧ pml ≤ pmlMax st) then 2
  else if !bitAt steppings steppingCode then 3
  else 0

/-- KIL and PML of a copy, and why it is refused. -/
def Flash.kilOf (f : Flash) (c : Nat) : Nat := (f.entry c 0).level
def Flash.pmlOf (f : Flash) (c : Nat) : Nat := (f.entry c 1).level
def Flash.refusal (f : Flash) (c : Nat) : Nat :=
  compatReason (f.stampOf c) (f.kilOf c) (f.pmlOf c) (f.entry c 0).steppings

end Sys2Proof.Machine
end

