-- ==== Sys2Proof/Machine/TideBase.lean ====
section
/-! DEFINITION. Quarantine and the repair queue (R192 to R199): what the mode unit and the tide
share. -/

namespace Sys2Proof.Machine

/-- Vector 8 of function 0 (R202). -/
def State.tideNotice (s : State) : State := s.raise 0 8

/-- The islands that jobs name. -/
def RepairJob.isIsland : RepairJob → Nat → Bool
  | .island j, i => j == i
  | .chain _ _, _ => false

/-- A repair of the device's own, not one that another asks for. -/
def RepairJob.own : RepairJob → Bool
  | .island _ => true
  | .chain _ _ => false

/-- A repair or re-check of the island is under way (R186). -/
def State.repairing (s : State) (i : Nat) : Bool := s.tide.now.any (fun r => r.job.isIsland i)

/-- A repair of the island is in progress, not one that waits nor a re-check after a load (R198). -/
def State.repairOn (s : State) (i : Nat) : Bool := s.tide.now.any (fun r => r.job.isIsland i && !r.afterLoad)

/-- A repair of the island ends without success (R195): its result, REPAIR_FAILED, vector 8. -/
def State.repairFailed (s : State) (i n result : Nat) : State :=
  let s := s.modIsl i (fun x => { x with repair := result })
  (s.event 0x0306 2 (scopeO (s.islandOwner i)) [(1, i), (1, 0), (2, faddrOf n), (1, result)]).tideNotice

/-- A repair is put off until T13 (R199): it keeps its place among what waits (R193). -/
def State.deferRepair (s : State) (i n : Nat) : State :=
  (s.repairFailed i n 8).modTide (fun t => { t with queue := t.queue ++ [(.island i, n)] })

/-- The repairs of the device's own islands that wait, each with its first frame. -/
def Tide.ownRepairs (t : Tide) : List (Nat × Nat) :=
  t.queue.filterMap (fun q => match q.1 with
    | .island i => some (i, q.2)
    | .chain _ _ => none)

/-- A repair asked for waits for its turn, REPAIR reading 1 (R192, R193). -/
def State.queueRepair (s : State) (i n : Nat) : State :=
  (s.modIsl i (fun x => { x with repair := 1 })).modTide (fun t => { t with
    queue := t.queue ++ [(.island i, n)] })

/-- What the keeper works on for an island goes back to where it waited: the repair before all that arose after it,
the re-check after a load before the others. A request of another device goes on (R154). -/
def Tide.backToQueue (t : Tide) : Tide :=
  match t.now with
  | none => t
  | some r =>
    match r.job with
    | .chain _ _ => t
    | .island i =>
      if r.afterLoad then { t with now := none, rechecks := i :: t.rechecks }
      else { t with now := none, queue := (.island i, r.first) :: t.queue }

/-- The entry to HOLD: repairs under way or waiting are put off, and a load's re-check starts again
later (R198, R199). Requests of other devices are still answered (R154). -/
def State.deferRepairs (s : State) : State :=
  let s := s.modTide Tide.backToQueue
  overList s.tide.ownRepairs (fun q s => s.repairFailed q.1 q.2 8) s

/-- The repairs put off wait for their turn again, in the order in which they arose among all that waits (R193,
R199). -/
def State.resumeRepairs (s : State) : State :=
  overList s.tide.ownRepairs (fun q s => s.modIsl q.1 (fun x => { x with repair := 1 })) s

/-- What waits for the island at the keeper is dropped: its frames have passed a re-check (R192, R198). -/
def State.dropWaiting (s : State) (i : Nat) : State :=
  s.modTide (fun t => { t with
    queue := t.queue.filter (fun q => !q.1.isIsland i)
    rechecks := t.rechecks.filter (· != i) })

/-- An uncorrectable finding quarantines its island, unless it is quarantined already (R192). -/
def State.quarantine (s : State) (i n : Nat) : State :=
  if (s.isl i).quarantined then s
  else
    let s := s.sealIsland i .quarantine
    let s := s.modIsl i (fun x => { x with
      quarantined := true, healed := false, qframe := n, qcount := min 15 (x.qcount + 1)
      qtimes := (s.coreNs :: x.qtimes).take 3 })
    let s := if 160 ≤ n % 168 then s.stopHomePorts i else s
    let s := s.event 0x0304 2 (scopeO (s.islandOwner i))
      [(1, i), (1, 0), (2, faddrOf n), (1, (s.isl i).qcount)]
    let s := (s.faultBit 0).unitFault (s.islandOwner i) 9
    let s := if s.mode.mode = .hold ∨ s.entersHold then s.deferRepair i n else s.queueRepair i n
    s.degradeCause

end Sys2Proof.Machine
end

