-- ==== Sys2Proof/Machine/Load.lean ====
section
/-! DEFINITION. The bitstream loader (R115 to R131): one parser of words for every path, the packets,
the frame records, the start and the end of a load. -/

namespace Sys2Proof.Machine

/-! ## Packets (R115 to R117) -/

def syncWord : Word := 0x6E1FA7D2#32

/-- MARK, REG and COUNT of a header. -/
def hdrMark (w : Word) : Nat := field w.toNat 24 8
def hdrReg (w : Word) : Nat := field w.toNat 16 8
def hdrCount (w : Word) : Nat := field w.toNat 0 16

/-- A configuration register of R116. -/
def regOk (reg : Nat) : Bool := reg ≤ 0x07 || reg == 0x0F

/-- COUNT is one of those R116 gives the register. -/
def countOk (reg n : Nat) : Bool :=
  match reg with
  | 0x00 => true
  | 0x01 => n == 2
  | 0x02 => n == 4
  | 0x03 => n == 10 || n == 266
  | 0x07 => n % 65 == 0 && decide (65 ≤ n ∧ n ≤ 65520)
  | _ => n == 1

/-- A packet may stand here (R117). The place of a CMD is judged with its word. -/
def Load.orderOk (l : Load) (reg : Nat) : Bool :=
  match reg with
  | 0x00 | 0x04 => true
  | 0x01 => l.phase == .afterSync
  | 0x02 => l.phase == .afterId
  | 0x03 => l.phase == .afterStamp
  | 0x05 => l.phase == .body && !l.lockSeen
  | 0x07 => l.phase == .body && l.farSeen
  | _ => l.phase == .body

/-- The error of a header, none where it begins a packet: MARK, REG, COUNT, then the order. -/
def Load.headerError (l : Load) (w : Word) : Option Nat :=
  if hdrMark w ≠ 0xC5 then some 0x02
  else if !regOk (hdrReg w) then some 0x03
  else if !countOk (hdrReg w) (hdrCount w) then some 0x04
  else if !l.orderOk (hdrReg w) then some 0x05
  else none

def State.modLoad (s : State) (f : Load → Load) : State := s.modLdr (fun x => { x with load := x.load.map f })

/-- A header word is taken. -/
def State.feedHeader (s : State) (l : Load) (w : Word) : State :=
  match l.headerError w with
  | some code => s.failLoad code l.off
  | none => s.modLoad (fun l => { l with
      off := l.off + 1
      crc := crcMore l.crc (wordBytes w)
      part := if hdrCount w = 0 then [] else [w]
      records := if hdrReg w = 0x07 then hdrCount w / 65 else 0
      lockSeen := l.lockSeen || hdrReg w == 0x05 })

/-! ## IDCHK, STAMP, MANIFEST (R118 to R120) -/

/-- The packet being received ends. -/
def State.packetEnds (s : State) : State := s.modLoad (fun l => { l with part := [] })

/-- IDCHK; `off` is the offset of its last word. -/
def State.packetId (s : State) (p : List Word) (off : Nat) : State :=
  if field (wordAt p 0) 0 16 ≠ 0x4800 ∨ field (wordAt p 0) 16 8 ≠ 1 then s.failLoad 0x06 (off - 1)
  else if field (wordAt p 1) 0 3 ≠ s.ldr.chainIndex then s.failLoad 0x07 off
  else s.packetEnds.modLoad (fun l => { l with phase := .afterId })

/-- FORCE_HOST may be used now (R143). -/
def State.forceHostNow (s : State) : Bool :=
  s.ldr.forceHost && s.mode.benchEn && !s.locked .benchLock

/-- A stamp is accepted on a path (R119, R137, R142, R143). -/
def State.stampAccepted (s : State) (p : Path) (st : List Word) : Bool :=
  let range := stampRange st s.ldr.kil s.ldr.pml
  stampOrdered st && match p with
    | .flash | .chain => range || s.ldr.override
    | .host | .jtag => s.ldr.keeperUp && s.ldr.microUp && (range || s.forceHostNow)

/-- STAMP. The word that fails a refused one is taken to be its last (DESIGN CHOICE, log 53). -/
def State.packetStamp (s : State) (l : Load) (p : List Word) (off : Nat) : State :=
  if !s.stampAccepted l.path p then s.failLoad 0x08 off
  else
    let forced := !stampRange p s.ldr.kil s.ldr.pml ||
      (s.ldr.override && (l.path == Path.flash || l.path == Path.chain))
    s.packetEnds.modLoad (fun l => { l with phase := .afterStamp, stamp := p, forced := forced })

/-- The manifest's rules (R120). -/
def manifestOk (p : List Word) : Bool :=
  let all := bitAt (wordAt p 0) 0
  let bits := wordsNat (p.drop 10)
  if all then p.length == 10 && wordAt p 1 == 8192
  else p.length == 266 && decide (1 ≤ wordAt p 1) && wordAt p 1 == countBelow 8192 (bitAt bits)

/-- MANIFEST. The word that fails a refused one is taken to be its last (DESIGN CHOICE, log 53). -/
def State.packetManifest (s : State) (p : List Word) (off : Nat) : State :=
  if !manifestOk p then s.failLoad 0x09 off
  else s.packetEnds.modLoad (fun l => { l with
    phase := .afterManifest
    all := bitAt (wordAt p 0) 0
    count := wordAt p 1
    digest := wordsBytes ((p.drop 2).take 8)
    bitmap := BitVec.ofNat 8192 (wordsNat (p.drop 10)) })

/-! ## CMD (R122, R127 to R129) -/

/-- The paths and modes in which a START is accepted (R127). -/
def startMode (p : Path) (full : Bool) (m : Mode) : Bool :=
  match p with
  | .flash | .chain => full && m == .load
  | .host => m.serviceLike
  | .jtag => m.serviceLike || m == .hold

/-- No bitstream load may open on the island: frame instructions write it (R129), or a repair of it is in
progress (R198). -/
def State.loadBusy (s : State) (i : Nat) : Bool := (s.isl i).frameLoad.isSome || s.repairOn i

/-- An island's load opens (R174). -/
def State.openIsland (s : State) (i : Nat) : State := s.modIsl i (fun x => { x with loadState := .open })

/-- An island is sealed for a load, which stops its home ports where it declares an I/O column frame (R128,
R173); the clear of a START_FULL writes every frame of it. -/
def State.sealForLoad (s : State) (l : Load) (i : Nat) : State :=
  let was := (s.isl i).sealed
  let s := s.sealIsland i .load
  let s := if l.full ∨ (!was ∧ l.declaresIo i) then s.stopHomePorts i else s
  s.modIsl i (fun x => { x with replaced := x.replaced || l.full })

/-- START_FULL and START_PARTIAL; `off` is the offset of the command's word. Where several errors hold the
order is SCOPE_REFUSED, MANIFEST_INVALID, ISLAND_BUSY (DESIGN CHOICE, log 53). -/
def State.startLoad (s : State) (l : Load) (full : Bool) (off : Nat) : State :=
  let l := { l with full := full }
  if !startMode l.path full s.mode.mode then s.failLoad 0x0A off
  else if !full ∧ l.all then s.failLoad 0x09 off
  else
    let begun := (s.modLoad (fun l => { l with full := full, phase := .body })).packetEnds
    let opens := fun (s : State) => overList l.islands (fun i s => s.openIsland i) s
    if s.mode.mode = .load then opens begun
    else if l.islands.any (fun i => s.loadBusy i) then s.failLoad 0x16 off
    else
      let sealed := if full then List.range 48 else l.islands
      let s := opens (overList sealed (fun i s => s.sealForLoad l i) begun)
      if full then s.clearFrames.modMode (fun m => { m with globalWritten := true }) else s

/-- CMD: ABORT stands anywhere after sync; the others follow the manifest (R117). A value that is not listed
and stands out of order is taken for BAD_ORDER (DESIGN CHOICE, log 53). -/
def State.packetCmd (s : State) (l : Load) (v off : Nat) : State :=
  if field v 0 4 = 3 then s.failLoad 0x14 off
  else if l.phase ≠ .afterManifest then s.failLoad 0x05 (off - 1)
  else match field v 0 4 with
    | 1 => s.startLoad l true off
    | 2 => s.startLoad l false off
    | _ => s.failLoad 0x0A off

/-! ## LOCK, FAR, FDATA (R123 to R125) -/

/-- LOCK: the bits are held until the load completes. -/
def State.packetLock (s : State) (v : Nat) : State :=
  s.packetEnds.modLoad (fun l => { l with locks := BitVec.ofNat 7 v })

/-- FAR. One that names no frame leaves the address before it as the current FAR of the log and the status
(DESIGN CHOICE, log 53). -/
def State.packetFar (s : State) (v off : Nat) : State :=
  if denseOf (field v 0 16) = none then s.failLoad 0x0B off
  else s.packetEnds.modLoad (fun l => { l with far := field v 0 16, farSeen := true, farEnd := false })

/-- The CRC of a frame record: the FAR word, then the data (R125). -/
def recordCrc (far : Nat) (data : List Word) : Word := crc32c (leBytes 4 far ++ wordsBytes data)

/-- The checks of a record in their order (R125): its error, or its frame. -/
def Load.recordCheck (l : Load) (data : List Word) (crc : Word) : Nat ⊕ Nat :=
  match (if l.farEnd then none else denseOf l.far) with
  | none => .inl 0x0B
  | some n =>
    if l.last.any (fun k => n ≤ k) then .inl 0x0C
    else if !l.declares n then .inl 0x0D
    else if recordCrc l.far data ≠ crc then .inl 0x0E
    else .inr n

/-- A synthesizer's minor has been written and checked in LOAD: it starts to lock, under a lease the
keeper takes (R95, R484). -/
def State.synthCheck (s : State) (n : Nat) : State :=
  if s.mode.mode = .load ∧ 8161 ≤ n ∧ n ≤ 8164 then
    let c := n - 8161
    let on := s.synthEn c
    let s := s.synthUnlock c
    let s := if on then s.modClocks (fun k => { k with waiting := k.waiting ||| BitVec.ofNat 4 (2 ^ c) }) else s
    let reg := s.leave.source (.synth c)
    if on ∧ costOf reg ≠ 0 then (s.leaveTake (.synth c) (costOf reg) (durationOf reg)).2 else s
  else s

/-- A record that passes is written, and FAR advances (R125, R121). -/
def State.writeRecord (s : State) (l : Load) (n : Nat) (data : List Word) : State :=
  let bits := BitVec.ofNat 2048 (wordsNat data)
  let s := s.loadFrame n bits (l.path == .host || l.path == .jtag)
  let s := if 8160 ≤ n ∧ s.mode.mode ≠ .load then s.modMode (fun m => { m with globalWritten := true }) else s
  (s.modLoad (fun l => { l with
    last := some n
    written := l.written + 1
    sha := shaMore l.sha (leBytes 2 l.far ++ wordsBytes data)
    far := if n = 8191 then l.far else faddrOf (n + 1)
    farEnd := n == 8191 })).synthCheck n

/-- A whole record: `off` is the offset of its CRC word, at which every check is reported. -/
def State.packetRecord (s : State) (l : Load) (h : Word) (rec : List Word) (off : Nat) : State :=
  match l.recordCheck (rec.take 64) (rec.getD 64 0) with
  | .inl code => s.failLoad code off
  | .inr n =>
    (s.writeRecord l n (rec.take 64)).modLoad (fun l => { l with
      records := l.records - 1, part := if l.records = 1 then [] else [h] })

/-! ## END (R126) -/

/-- The personality in the frames, as the versions registers show it (R510). -/
def State.noteStamp (s : State) (l : Load) : State :=
  if l.full then
    let path := match l.path with | .host => 1 | .jtag => 2 | .flash | .chain => 0
    s.modLdr (fun x => { x with
      stampRegs := l.stamp, persPath := path, persPartial := false, persForced := l.forced })
  else s.modLdr (fun x => { x with persPartial := true })

/-- A load that used an override (R143). -/
def State.noteForced (s : State) (l : Load) : State :=
  if l.forced then
    let s := (s.modLdr (fun x => { x with forced := true })).modMode (fun m => { m with untested := true })
    (s.faultBit 10).event 0x0204 2 scopeG
      [(2, s.ldr.kil), (2, s.ldr.pml), (2, kilMin l.stamp), (2, kilMax l.stamp), (2, pmlMin l.stamp),
        (2, pmlMax l.stamp)]
  else s

/-- An island of a completed load (R175, R179, R198). -/
def State.islandComplete (s : State) (full : Bool) (i : Nat) : State :=
  let s := s.modIsl i (fun x => { x with loadState := .complete })
  let s := if (s.isl i).quarantined then s.modTide (fun t => { t with rechecks := t.rechecks ++ [i] }) else s
  if full then s else s.autoRelease i .loadDone

/-- The load is complete (R126, R123, R160). -/
def State.completeLoad (s : State) (l : Load) : State :=
  let opened := s.openIslands
  let s := s.setLocks l.locks.toNat 0
  let own := l.path == Path.flash || l.path == Path.chain
  let s := s.modLdr (fun x => { x with
    load := none, lastError := 0, lastPath := l.path.code, loads := (x.loads + 1) % 256
    marks := x.marks ||| l.frames
    ownDone := x.ownDone || own })
  let s := (s.noteStamp l).noteForced l
  (overList opened (fun i s => s.islandComplete l.full i) s).discardPath l.path

/-- END. -/
def State.packetEnd (s : State) (l : Load) (crc : Word) (off : Nat) : State :=
  if crc ≠ crcFinal l.crc then s.failLoad 0x0F off
  else if l.written ≠ l.count then s.failLoad 0x10 off
  else if shaFinal l.sha ≠ l.digest then s.failLoad 0x11 off
  else s.completeLoad l

/-! ## One word -/

/-- A packet's payload is whole. -/
def State.packet (s : State) (l : Load) (reg : Nat) (p : List Word) (off : Nat) : State :=
  match reg with
  | 0x01 => s.packetId p off
  | 0x02 => s.packetStamp l p off
  | 0x03 => s.packetManifest p off
  | 0x04 => s.packetCmd l (wordAt p 0) off
  | 0x05 => s.packetLock (wordAt p 0)
  | 0x06 => s.packetFar (wordAt p 0) off
  | 0x0F => s.packetEnd l (p.getD 0 0) off
  | _ => s.packetEnds

/-- A payload word is taken. The END word is not under its own CRC. -/
def State.feedPayload (s : State) (l : Load) (h : Word) (w : Word) : State :=
  let reg := hdrReg h
  let part := l.part ++ [w]
  let s := s.modLoad (fun l => { l with
    off := l.off + 1
    crc := if reg = 0x0F then l.crc else crcMore l.crc (wordBytes w)
    part := part })
  if reg = 0x07 then
    if part.length = 66 then s.packetRecord l h (part.drop 1) l.off else s
  else if part.length = hdrCount h + 1 then s.packet l reg (part.drop 1) l.off
  else s

/-- The next word of the load in progress. -/
def State.feedWord (s : State) (w : Word) : State :=
  match s.ldr.load with
  | none => s
  | some l =>
    match l.part with
    | [] => s.feedHeader l w
    | h :: _ => s.feedPayload l h w

/-- The path's lock bit refuses its bitstreams, or the TAP has not been enabled for it (R127, R162,
R169). -/
def State.pathLocked (s : State) (p : Path) : Bool :=
  match p with
  | .host => s.locked .hostLoadOff
  | .jtag => !s.jtag.isc || s.locked .jtagIspOff
  | .flash | .chain => false

/-- The first word of a bitstream on a path (R115, R127, R129). -/
def State.openLoad (s : State) (p : Path) (w : Word) : State :=
  if s.pathLocked p then s.loadError p 0x13 0 0
  else if s.ldr.load.isSome then s.loadError p 0x15 0 0
  else if w ≠ syncWord then s.loadError p 0x01 0 0
  else s.modLdr (fun l => { l with
    load := some { path := p }, hostWords := if p = Path.host then 1 else l.hostWords })

/-- A load on this path is in progress. -/
def State.loadOn (s : State) (p : Path) : Bool := s.ldr.load.any (fun l => l.path == p)

/-- Words of a path are discarded (R166, R169). -/
def State.discards (s : State) (p : Path) : Bool :=
  match p with
  | .host => s.ldr.hostDiscard
  | .jtag => s.ldr.jtagDiscard
  | _ => false

/-- A word that the host link or the TAP delivers to the loader (R166, R168). -/
def State.streamWord (s : State) (p : Path) (w : Word) : State :=
  if s.discards p then s
  else if s.loadOn p then
    let s := if p = Path.host then s.modLdr (fun l => { l with hostWords := (l.hostWords + 1) % 2 ^ 32 }) else s
    s.feedWord w
  else s.openLoad p w

/-- The loader stands at a frame boundary and waits there while X11 reports full (R24, R27). -/
def State.loaderHeld (s : State) (p : Path) : Bool :=
  s.forcedFull 11 && s.ldr.load.any (fun l =>
    l.path == p && l.part.length == 1 && l.part.all (fun h => hdrReg h == 0x07))

/-- One of these words would stand at a frame boundary where the loader waits. -/
def State.wordsHeld (p : Path) : List Word → State → Bool
  | [], _ => false
  | w :: ws, s => s.loaderHeld p || State.wordsHeld p ws (s.streamWord p w)

/-- The host link's words wait with their sender while one of them would have to wait for X11 (R24, R27, R166). -/
def State.hostWordsHeld (s : State) (ws : List Word) : Bool := s.forcedFull 11 && State.wordsHeld .host ws s

/-! ## X17 (R24, R169) -/

/-- A word of the TAP crosses X17, 8 words deep: while the loader waits at a frame boundary it stands there behind
the earlier ones. One that finds X17 full, or forced full, is discarded, which ends its load; where none is open it
is the load's first word, and LAST_ERROR reports the failure (R24, R27; DEDUCED, log 60). Words that ISC_PROGRAM does
not deliver do not come to X17: the first of them ends the load with PATH_LOCKED. -/
def State.tapWord (s : State) (w : Word) : State :=
  if s.discards .jtag then s
  else if !s.loadOn .jtag && s.pathLocked .jtag then s.streamWord .jtag w
  else if s.forcedFull 17 ∨ s.x17Full then
    (if s.loadOn .jtag then s.stopLoad 0x12 else s.loadError .jtag 0x12 0 0).setX17 []
  else if s.loaderHeld .jtag ∨ s.jtag.x17 ≠ [] then s.setX17 (s.jtag.x17 ++ [w])
  else s.streamWord .jtag w

/-- The words that wait in X17 go to the loader once X11 takes frames again. -/
def State.tapResumes (s : State) : State :=
  if s.forcedFull 11 then s
  else overList s.jtag.x17 (fun w s => s.streamWord .jtag w) (s.setX17 [])

end Sys2Proof.Machine
end

