-- ==== Sys2Proof/Machine/Hold.lean ====
section
/-! DEFINITION. The mode unit's transitions (R31 to R36): the clearing of test controls (R514), the
causes of HOLD, what a transition does where it ends, and the entry to WAKE (R157, R484). -/

namespace Sys2Proof.Machine

/-! ## Test controls (R514) -/

/-- What the test unit held back goes on in its original order (R514); the leave unit takes its requests up where
they stand in its queue. -/
def State.letHeld (s : State) : State :=
  let s := overList s.ptuHeld.items (fun i s => s.letGo i) s
  s.modLeave (fun l => { l with
    queue := l.queue.map (fun q => { q with held := false }), stale := true })

/-- A queue no longer reports full: what waited for it goes on, or looks again (R27, R514, R520). -/
def State.pressureOver (s : State) : State :=
  s.requestsResume.tapResumes.wakeAll (fun w => match w with | .txSpace _ => true | _ => false)

/-- Every test control returns to its reset value (R514), and PTU_QFULL_SEEN with them; an armed pair fault is withdrawn, and its RESULT
shows it but for PERST# and FLR, which reset the register (R9, R515). -/
def State.clearControls (s : State) (cause : Nat) : State :=
  if s.mode.mode ≠ .test then s
  else
    let result := if s.ptu.pfGo ∧ cause ≠ 2 ∧ cause ≠ 3 then 4 else 0
    let s := { s with ptu := { lastClear := cause, pfResult := result } }
    let s := s.letHeld.pressureOver
    let s := { s with ptu := { s.ptu with qSeen := s.qSeenAfter 0 } }
    s.event 0x0A03 0 scopeS [(1, cause)]

/-! ## HOLD causes (R31 T5 and T16, R34, R35, R39) -/

/-- Leases of the device that end at the entry to HOLD from LOAD or from a wake before its step 6: those of
synthesizers, and the wake's own, the latest of them (R484). -/
def State.dropWakeLeases (s : State) : State :=
  if s.mode.mode = .load ∨ (s.mode.mode = .wake ∧ s.mode.wakeStep < 6) then
    let s := s.leaveFree (fun w => match w with | .synth _ => true | _ => false)
    match s.mode.mode, s.leave.wakeLeases.getLast? with
    | .wake, some h => s.leaveDrop h
    | _, _ => s
  else s

/-- The accepted command whose transition is pre-empted is told (R34). -/
def State.preempt (s : State) : State :=
  s.modMode (fun m => { m with
    trans := none
    result := if m.trans.any Trans.cmd then 6 else m.result })

/-- Every island is sealed with HOLD; shore states go to the islands named (R39), whose banks count
as enabled for them where they are present (R220). The threads stop; one of a ring that is FLUSHING ends where it
stopped (R312). -/
def State.holdIslands (s : State) (shore : BitVec 48) : State :=
  let s := s.modMode (fun m => { m with holdShore := shore })
  let s := overAll 48 (fun i s => s.sealIsland i .hold) s
  let s := overAll 48 (fun b s =>
    s.modBank b (fun x => { x with enabled := s.bankPresent b && shore.getLsbD b })) s
  overAll 32 (fun r s => if (s.ring r).state = .flushing then s.flushInFlight r else s) s.pauseThreads

/-- T5 begins (R31): the loading of LOAD ends. DONE stays as it is: where it has been released R43 keeps it
so, although R37's cell has DONE driven low in a HOLD entered from LOAD (DEDUCED, log 52). -/
def State.beginT5 (s : State) (cause : Nat) : State :=
  let s := s.preempt.modMode (fun m => { m with holdCause := cause })
  let s := match s.ldr.load with
    | some l => if l.path = Path.flash ∨ l.path = Path.chain then s.stopLoad 0x12 else s
    | none => s
  let s := s.modLdr (fun l => { l with phase := .ended, forceBoot := false })
  s.startTrans 5 .hold

/-- T16 begins (R31). The test controls are cleared where it completes, as those of T15 are: the device is in TEST
till then (R513, R514; DEDUCED, log 22). -/
def State.beginT16 (s : State) (cause : Nat) : State :=
  let s := s.preempt.modMode (fun m => { m with holdCause := cause })
  let s := s.startTrans 16 .hold
  let shore := BitVec.ofNat 48 (maskOf 48 s.ioValid)
  let s := s.fixFrames (fun n => n < 8064 && 160 ≤ n % 168)
  (s.holdIslands shore).deferRepairs

/-- A HOLD cause arrives: where T1, T2, T5 or T16 is in progress, or in RESET, it changes nothing; in HOLD it
pre-empts a command's transition, and the device stays in HOLD with its first cause (R34, R35). -/
def State.holdCause (s : State) (cause : Nat) : State :=
  let busy := s.mode.trans.any (fun t => t.id == 1 || t.id == 2 || t.id == 5 || t.id == 16)
  if busy then s
  else match s.mode.mode with
    | .reset => s
    | .hold => if s.mode.trans.isSome then s.preempt.waitingCauses else s
    | .load => if cause ≤ 4 ∨ cause = 7 then s.beginT5 cause else s
    | _ => if 5 ≤ cause then s.beginT16 cause else s

/-! ## Waking (R157 step 2, R484) -/

/-- A T12 wake releases the island (R33, R179). -/
def State.wakeReleases (s : State) (i : Nat) : Bool := s.clearsAll .wake i && !(s.isl i).unfinished

/-- The cost of a wake's lease (R484). -/
def State.wakeCost (s : State) (t12 : Bool) (started : Nat) : Nat :=
  let isl := ((List.range 48).filter (fun i => !t12 || s.wakeReleases i)).map (fun i =>
    costOf (s.leave.irelReg i))
  let banks := countBelow 48 s.bankPresent
  isl.sum + banks * costOf (s.leave.kindReg 2) + started * costOf (s.leave.kindReg 3)

/-- Step 2 of waking (R157): held global fields take effect (R110), synthesizers whose setup is new
start, the wake lease is taken; in a T12 wake global set/reset is asserted and the island clocks stop.
FORCE_BOOT is spent with the LOAD that ends here (R160), and the loads of LOAD are before the last wake
(R174). -/
def State.wakeEntry (s : State) (t12 : Bool) : State :=
  let s := overAll 48 (fun b s => s.modBank b (fun x => { x with enabled := false })) (s.globalsTake.resynth s)
  let starts := fun c => t12 && s.synthEn c && !s.clocks.lock.getLsbD c
  let s := s.modClocks (fun c => { c with waiting := 0, lineHigh := 0, clockHigh := 0 })
  let s := (s.leaveTake .wake (s.wakeCost t12 (countBelow 4 starts)) 0).2
  let s := s.modMode (fun m => { m with
    wakeT12 := t12, wakeStep := 2, frozen := false, globalWritten := false
    wakeEntered := true, gsrOff := false, clocksOn := false })
  if t12 then s
  else overAll 48 (fun i s => s.modIsl i (fun x => { x with loadState := .none }))
    (s.modLdr (fun l => { l with forceBoot := false }))

/-! ## Banks that ask for their leave (R220) -/

/-- The device asks for a bank's enable leave; a bank whose lease is held is enabled under it (R483). -/
def State.askBank (s : State) (b : Nat) : State :=
  if s.bankPresent b && !(s.bank b).enabled && !(s.bank b).asking then
    if s.bankLease b then s.enableBank b
    else (s.modBank b (fun x => { x with asking := true, retry := false })).leaveAsk
      (s.deviceReq (.bank b) s.leave.defaultNs)
  else s

/-! ## The end of a transition -/

/-- The upstream side of a device behind another: two credits after T3 and each RESTART (R150). -/
def State.sendUp (s : State) (type : Nat) (words : List Word) : State :=
  let head := reg32 [0xA5, place type 8 4, place words.length 16 8, place s.chain.seqUp 24 8]
  let crc := crc32c (wordsBytes (head :: words))
  (s.emit (.chain false (head :: words ++ [crc]))).modChain (fun c => { c with
    seqUp := (c.seqUp + 1) % 256 })

/-- The entry to LOAD (R136, R139, R151, R156). -/
def State.loadEntry (s : State) : State :=
  let s := s.modLdr (fun l => { l with
    phase := if s.mode.chainFirst then .sfdp else .chained, timeoutNow := l.timeout })
  if s.mode.chainFirst then s else (s.sendUp 8 []).sendUp 8 []

/-- A unit retirement joins its class's routes (R507): the fault bit, the vector, T8. -/
def State.unitOut (s : State) (faultBit vector : Nat) : State :=
  ((s.faultBit faultBit).raise 0 vector).degradeCause

/-- A ferry pair is retired (R389, R391): `outcome` as FERRY_LAST_FAIL has it; without a thread the
event shows no ring and no opcode. Fewer than two pairs left are a HOLD cause (R36). -/
def State.retirePair (s : State) (p cause : Nat) (run : Option (Nat × Nat)) (outcome : Nat) : State :=
  let (r, op) := run.getD (0, 0)
  let s := s.modPair p (fun x => { x with
    retired := true, held := none, selftest := cause == 4, cause := cause })
  let s := s.modFerry (fun f => { f with
    lastFail := p + place r 8 5 + place op 16 8 + place outcome 24 4 })
  let shown := match run with | some (r, op) => [(1, r), (1, op)] | none => [(1, 0xFF), (1, 0xFF)]
  let s := s.event 0x0601 2 scopeG ([(1, p), (1, cause)] ++ shown ++ [(1, s.pairsInService)])
  let s := s.unitOut 1 11
  if s.pairsInService < 2 then s.holdCause 8 else s

/-- The pairs that failed their self-test at T3 are reported (R391). -/
def State.reportSelftest (s : State) : State :=
  overAll 8 (fun p s => if (s.pair p).selftest then s.retirePair p 4 none 4 else s) s

/-- What a transition does where it ends, by its number. `s` is still in the mode it leaves. The first wake after
which global frames are held is one that has completed, by T6 or T7 (DEDUCED from R110, log 55). -/
def State.transitionActs (s : State) (t : Trans) : State :=
  match t.id with
  | 3 => s.loadEntry
  | 4 => s.wakeEntry false
  | 5 => (s.holdIslands 0).dropWakeLeases
  | 6 | 7 =>
    let s := s.modMode (fun m => { m with
      wakeDone := true, firstWake := true, wakeStep := 0, wakeFaultKept := none })
    s.modTide (fun x => { x with enabled := true })
  | 10 => s.freeze t.freeze
  | 11 => s.freeze false
  | 12 => s.wakeEntry true
  | 13 =>
    -- DONE is released in SERVICE and from there on (R33, R37)
    let s := s.modMode (fun m => { m with doneLow := false })
    let s := overAll 32 (fun r s => s.modThr r (fun x => { x with paused := false })) s
    s.modLeave (fun l => { l with stale := true })
  | 14 => { s with ptu := { lastClear := s.ptu.lastClear, qSeen := s.qSeenAfter 0 } }
  | 15 => s.clearControls 1
  | 16 => (s.clearControls 4).dropWakeLeases
  | _ => s

/-- The release of an island at an entry to HOLD: its ISLAND_RELEASEs end with WRONG_MODE; its request stays queued
and its lease is kept (R365, R482). -/
def State.holdRelease (s : State) (i : Nat) : State :=
  match (s.isl i).release with
  | none => s
  | some rel =>
    (overList rel.rings (fun r s => s.wakeThread r 0x29 0) s).modIsl i (fun x => { x with
      release := some { rel with rings := [] } })

/-- What the entry to a mode brings with it (R42, R49, R220). -/
def State.modeEntered (s : State) (id : Nat) (m : Mode) : State :=
  match m with
  | .hold =>
    let s := s.modMode (fun x => { x with
      holdFault := true, wakeDone := false, globalWritten := false, wakeStep := 0, wakeFaultKept := none })
    let s := overAll 48 (fun i s => s.holdRelease i) s
    overAll 8 (fun t s => s.tenFault t 6 0 0) s
  | .run | .degraded =>
    let s := s.requestsResume
    let first := !s.mode.ranOnce
    let s := s.modMode (fun x => { x with holdFault := false, ranOnce := true })
    let s := if first then overAll 8 (fun t s => s.tenFault t 7 0 0) s else s
    overAll 48 (fun b s => s.askBank b) s
  | .service =>
    let s := overAll 48 (fun b s => s.askBank b) s.requestsResume
    if id = 13 then s.resumeRepairs else s
  | .test => overAll 48 (fun b s => s.askBank b) s
  | .load =>
    -- a timebase that starts without a reference is in holdover from here on (R427)
    -- and what X1 has held since RESET goes on (R274)
    overAll 8 (fun t s => s.takeInvs t) (if s.tb.holdover then s.faultBit 9 else s).reportSelftest
  | _ => s

/-- MODE_CHANGE (R32, R506). -/
def State.modeChange (s : State) (id : Nat) (old new : Mode) : State :=
  let began := match s.mode.resetBegan with | some m => m.code | none => 0xFF
  s.event 0x0101 (if new = .hold then 3 else 0) scopeG
    [(1, old.code), (1, new.code), (1, id), (1, s.mode.holdCause),
      (1, if id = 3 then s.supResetCause else 0), (1, if id = 3 then began else 0)]

/-- A transition in progress completes (R31, R32, R34, R45, R46, R48, R49). T1 and T2 end by
RESET_RELEASE. -/
def State.completeTransition (s : State) : State :=
  match s.mode.trans with
  | none => s
  | some t =>
    if t.id = 1 ∨ t.id = 2 then s
    else
      let old := s.mode.mode
      let s := s.transitionActs t
      let s := s.modMode (fun m => { m with
        mode := t.target, prev := old, changes := (m.changes + 1) % 256
        trans := none, unlock := false
        result := if t.cmd then 2 else m.result })
      let s := s.modeChange t.id old t.target
      let s := s.modeEntered t.id t.target
      let s := if bitAt s.mode.noticeEn (t.target.code - 1) then s.raise 0 9 else s
      let s := s.refreshPorts.waitingCauses
      if t.target = .wake ∧ s.pairsInService < 2 then s.holdCause 8 else s

end Sys2Proof.Machine
end

