-- ==== Sys2Proof/Machine/Timebase.lean ====
section
/-! DEFINITION. The timebase (R426 to R432): its registers, steps and sets, its reference, PPS. -/

namespace Sys2Proof.Machine

/-! ## Device time (R426, R428) -/

/-- Units of the internal fraction in a nanosecond. -/
def tbUnits : Nat := 2 ^ 28

/-- Device time moved by a signed number of internal units; it does not go below zero, and the
seconds have 48 bits. -/
def Timebase.move (t : Timebase) (units : Int) : Timebase :=
  let now := ((t.sec * 1000000000 + t.nsec) * tbUnits + t.frac : Nat)
  let new := ((now : Int) + units).toNat
  let ns := new / tbUnits
  { t with sec := ns / 1000000000 % 2 ^ 48, nsec := ns % 1000000000, frac := new % tbUnits }

/-- What a timebase cycle adds (R428, R524). -/
def State.tbStepUnits (s : State) : Nat :=
  s.tb.addend - (if s.mode.mode = .test then s.ptu.tbSlow else 0)

/-- Device time in whole nanoseconds. -/
def Timebase.ns (t : Timebase) : Nat := t.sec * 1000000000 + t.nsec

/-! ## Steps and sets (R429, R432) -/

/-- A command of TB_CTRL is refused: 1 step, 2 set. -/
def State.tbRefused (s : State) (cmd : Nat) : State :=
  (s.modTb (fun t => { t with stepRefused := true })).event 0x0533 1 scopeS [(1, cmd)]

/-- The sync instants of a port after a step of device time from old to new. -/
def Port.timeMoved (x : Port) (old new : Nat) : Port :=
  { x with syncs := x.syncs.map (fun y => { y with
      times := (y.times.headD 0 + new + 2 ^ 64 - old % 2 ^ 64) % 2 ^ 64 :: y.times }) }

/-- A new time is in force: the epoch, TB_STEP with the time it produces (R494), vector 7. -/
def State.tbApplied (s : State) (cmd old : Nat) : State :=
  let s := s.modTb (fun t => { t with epoch := (t.epoch + 1) % 2 ^ 16, stepped := true })
  let new := s.tb.ns
  let s := { s with ports := s.ports.map (fun (e : Nat × Port) => (e.1, e.2.timeMoved old new)) }
  let e : Event :=
    { code := 0x0530, sev := 0, tenant := scopeG
      payload := payload [(8, wrapInt 64 ((new : Int) - (old : Int))), (2, s.tb.epoch), (1, cmd)]
      time := some (time64 s.tb.sec s.tb.nsec, s.tb.epoch) }
  (s.modLog (fun l => { l with staged := l.staged ++ [e] })).raiseAll 7

/-- A step by TB_OFFSET (R429). -/
def State.tbStep (s : State) : State :=
  let old := s.tb.ns
  let new := (old : Int) + signed 64 s.tb.offset
  if new < 0 ∨ (2 ^ 48 * 1000000000 : Int) ≤ new then s.tbRefused 1
  else
    (s.modTb (fun t => { t with
      sec := new.toNat / 1000000000, nsec := new.toNat % 1000000000 })).tbApplied 1 old

/-- A set to TB_SET_SEC and TB_SET_NSEC (R429). -/
def State.tbSet (s : State) : State :=
  if 999999999 < s.tb.setNsec then s.tbRefused 2
  else (s.modTb (fun t => { t with sec := t.setSec, nsec := t.setNsec, frac := 0 })).tbApplied 2 s.tb.ns

/-- A write of TB_CTRL: with STEP also 1, only SET acts (R431). -/
def State.writeTbCtrl (s : State) (v : Nat) : State :=
  if bitAt v 1 then s.tbSet else if bitAt v 0 then s.tbStep else s

/-- A write of TB_ADDEND (R428). -/
def State.writeAddend (s : State) (v : Nat) : State :=
  if 0x3FF7CED9 ≤ v ∧ v ≤ 0x40083127 then s.modTb (fun t => { t with addend := v }) else s

/-- A write of TB_PPS_OUT: a reserved WIDTH leaves WIDTH unchanged (R430). -/
def State.writePpsOut (s : State) (v : Nat) : State :=
  let w := field v 12 20
  s.modTb (fun t => { t with
    ppsEn := bitAt v 0, ppsPol := bitAt v 1
    ppsWidth := if 1 ≤ w ∧ w ≤ 999999 then w else t.ppsWidth })

/-- A write at an offset of the timebase sub-block (R431). -/
def State.tbWrite (s : State) (off v : Nat) : State :=
  match off with
  | 0x00C => s.modTb (fun t => { t with
      refLost := t.refLost && !bitAt v 8, stepped := t.stepped && !bitAt v 9
      stepRefused := t.stepRefused && !bitAt v 10 })
  | 0x100 => s.writeAddend v
  | 0x104 => s.writeTbCtrl v
  | 0x108 => s.modTb (fun t => { t with offset := hi32 t.offset * 2 ^ 32 + v })
  | 0x10C => s.modTb (fun t => { t with offset := v * 2 ^ 32 + lo32 t.offset })
  | 0x110 => s.modTb (fun t => { t with setSec := hi32 t.setSec * 2 ^ 32 + v })
  | 0x114 => s.modTb (fun t => { t with setSec := v % 2 ^ 16 * 2 ^ 32 + lo32 t.setSec })
  | 0x118 => s.modTb (fun t => { t with setNsec := v % 2 ^ 30 })
  | 0x120 => s.writePpsOut v
  | 0x124 =>
    let n := v % 2 ^ 30
    if n ≤ 999999999 then s.modTb (fun t => { t with ppsOffset := n }) else s
  | _ => s

/-! ## Reads and their latches (R418, R431) -/

def State.tbLatch (s : State) (who : Requester) : TbLatch := tabGet (fun _ => {}) s.tb.latches (reqLatch who)

def State.setTbLatch (s : State) (who : Requester) (f : TbLatch → TbLatch) : State :=
  s.modTb (fun t => { t with latches := tabMod (fun _ => {}) t.latches (reqLatch who) f })

def State.readNowLo (s : State) (who : Requester) : Nat × State :=
  (lo32 s.shadow, s.setTbLatch who (fun l => { l with nowHi := hi32 s.shadow, epoch := s.shadowEpoch }))

def State.readTodLo (s : State) (who : Requester) : Nat × State :=
  (lo32 s.tb.shSec, s.setTbLatch who (fun l => { l with secHi := hi32 s.tb.shSec % 2 ^ 16, nsec := s.tb.shNsec }))

def State.readPpsInLo (s : State) (who : Requester) : Nat × State :=
  (lo32 s.tb.ppsStamp, s.setTbLatch who (fun l => { l with ppsHi := hi32 s.tb.ppsStamp }))

/-- TB_STATUS. -/
def State.tbStatus (s : State) : Nat :=
  place s.tb.ref 0 2 + flag s.tb.holdover 2 + flag s.tb.refLost 8 + flag s.tb.stepped 9 +
    flag s.tb.stepRefused 10

/-- A read at an offset of the timebase sub-block (R431). -/
def State.tbRead (s : State) (who : Requester) (off : Nat) : Nat × State :=
  match off with
  | 0x000 => s.readNowLo who
  | 0x004 => ((s.tbLatch who).nowHi, s)
  | 0x008 => ((s.tbLatch who).epoch, s)
  | 0x00C => (s.tbStatus, s)
  | 0x010 => s.readTodLo who
  | 0x014 => ((s.tbLatch who).secHi, s)
  | 0x018 => ((s.tbLatch who).nsec, s)
  | 0x020 => s.readPpsInLo who
  | 0x024 => ((s.tbLatch who).ppsHi, s)
  | 0x028 => (s.tb.ppsCount, s)
  | 0x100 => (s.tb.addend, s)
  | 0x108 => (lo32 s.tb.offset, s)
  | 0x10C => (hi32 s.tb.offset, s)
  | 0x110 => (lo32 s.tb.setSec, s)
  | 0x114 => (hi32 s.tb.setSec, s)
  | 0x118 => (s.tb.setNsec, s)
  | 0x120 => (flag s.tb.ppsEn 0 + flag s.tb.ppsPol 1 + place s.tb.ppsWidth 12 20, s)
  | 0x124 => (s.tb.ppsOffset, s)
  | _ => (0, s)

/-! ## The reference (R427, R432) -/

/-- TB_REF_LOST (R427): cause 1 no edge, 2 frequency. The switch to holdover moves device time by
less than 4 ns, which way and how far the rules leave open. -/
def execTbRefLost (frequency : Bool) (s : State) : Host.Outcome State Fault Refusal :=
  answer (if s.mode.mode = .reset ∨ s.tb.holdover then s
    else
      let (n, s) := s.draw
      let (m, s) := s.draw
      let d : Int := (Config.freeValue n % (4 * tbUnits) : Nat)
      let s := s.modTb (fun t => { (t.move (if Config.freeLevel m then d else -d)) with
        refLost := true, holdover := true })
      ((s.event 0x0531 2 scopeG [(1, if frequency then 2 else 1)]).faultBit 9).raiseAll 7)

/-- TB_REF_LOCKED (R427): relocked to the reference found in RESET. -/
def execTbRefLocked (s : State) : Host.Outcome State Fault Refusal :=
  answer (if s.mode.mode = .reset ∨ !s.tb.holdover ∨ s.tb.ref = 0 then s
    else
      let s := s.modTb (fun t => { t with holdover := false })
      (s.event 0x0532 0 scopeG [(1, s.tb.ref)]).raiseAll 7)

/-! ## PPS (R430) -/

/-- The level of PPS_OUT. EN cleared and set again within a pulse's WIDTH shows the rest of the pulse
(DESIGN CHOICE, log 59). -/
def State.ppsOut (s : State) : Bool := xor (s.tb.ppsEn && s.tb.pulse) s.tb.ppsPol

/-- A PPS_OUT pulse starts, where EN = 1 and a WIDTH has been written. -/
def State.startPulse (s : State) : State :=
  if s.mode.mode != .reset && s.tb.ppsEn && s.tb.ppsWidth != 0 then
    s.modTb (fun t => { t with pulse := true })
  else s

/-- PPS_SECOND (R430): device time counts across a whole second; with TB_PPS_OUT_OFFSET = 0 the pulse
starts with it. -/
def execPpsSecond (s : State) : Host.Outcome State Fault Refusal :=
  answer (if s.mode.mode = .reset then s
    else
      let s := overAll 32 (fun r s => s.modThr r (fun t => { t with ppsPend := true })) s
      if s.tb.ppsOffset = 0 then s.startPulse else s)

/-- PPS_OUT_RISE (R430): device time counts across a second and TB_PPS_OUT_OFFSET. -/
def execPpsOutRise (s : State) : Host.Outcome State Fault Refusal := answer s.startPulse

/-- PPS_OUT_PULSE_END (R430). -/
def execPpsOutPulseEnd (s : State) : Host.Outcome State Fault Refusal :=
  answer (s.modTb (fun t => { t with pulse := false }))

/-- PPS_IN_EDGE (R430, R433). -/
def execPpsInEdge (stamp : Nat) (s : State) : Host.Outcome State Fault Refusal :=
  answer (if s.mode.mode = .reset then s
    else s.modTb (fun t => { t with ppsStamp := stamp % 2 ^ 64, ppsCount := (t.ppsCount + 1) % 2 ^ 32 }))

/-! ## Registers with rows of their own -/

/-- TB_ADDEND_WRITE (R428). -/
def execTbAddendWrite (v : Word) (s : State) : Host.Outcome State Fault Refusal :=
  answer (s.supRow (fun s => s.writeAddend v.toNat))

/-- TB_STEP_CMD (R429). -/
def execTbStepCmd (s : State) : Host.Outcome State Fault Refusal := answer (s.supRow State.tbStep)

/-- TB_SET_CMD (R429). -/
def execTbSetCmd (s : State) : Host.Outcome State Fault Refusal := answer (s.supRow State.tbSet)

end Sys2Proof.Machine
end

