-- ==== Sys2Proof/Machine/Partners.lean ====
section
/-! DEFINITION. The partner table and the receive areas (R415 to R422, R425): an entry's words, its
checks, matching, storing, tallies, arming. -/

namespace Sys2Proof.Machine

/-! ## The harbour buffer (R425) -/

/-- Bytes written to the harbour buffer; a 64-bit word written whole loses an error it had. -/
def State.harbourWrite (s : State) (a : Nat) (bytes : List Byte) : State :=
  let keep := fun w => !(decide (a ≤ 8 * w) && decide (8 * w + 8 ≤ a + bytes.length))
  { s with
    harbour := memWrite 0 s.harbour a bytes
    harbourBad := s.harbourBad.filter keep
    harbourSoft := s.harbourSoft.filter keep }

/-- A read corrects the single-bit errors of the words it touches, and counts them. -/
def State.harbourCorrects (s : State) (a len : Nat) : State :=
  let n := (s.harbourSoft.filter (fun w => decide (8 * w < a + len) && decide (a < 8 * w + 8))).length
  if len = 0 then s else { s with bufCorrected := satAdd 0xFFFFFFFF s.bufCorrected n }

/-- Some word that a range of the harbour buffer touches cannot be corrected. -/
def State.harbourFails (s : State) (a len : Nat) : Bool :=
  len != 0 && s.harbourBad.any (fun w => decide (8 * w < a + len) && decide (a < 8 * w + 8))

/-! ## An entry (R415) -/

/-- Units of the area in use. -/
def Partner.used (x : Partner) : Nat := (x.frames.map Stored.units).sum

/-- First byte of the receive area. -/
def Partner.area (x : Partner) : Nat := x.segment * 65536 + x.areaBase * 64

/-- The VALID entries of a port. -/
def State.partnersOf (s : State) (p : Nat) : List (Nat × Partner) :=
  s.partners.filter (fun e => e.2.valid && e.2.port == p)

/-- Disarmed, as PORT_ARM DISARM does (R369). -/
def Partner.disarm (x : Partner) : Partner := { x with arm := 0, trigger := none }

/-- The frames stored are discarded and counted in REJECTED (R416, R398). -/
def Partner.discard (x : Partner) : Partner := { x.reject x.frames.length with frames := [] }

/-! ## The address check, CHK 5 (R416 and the protocols' sections) -/

/-- Bytes of an SPI word. -/
def Partner.spiBytes (x : Partner) : Nat := (field x.addr0 6 5 + 1 + 7) / 8

def canAddrOk (x : Partner) : Bool :=
  field x.addr2 0 2 != 3 &&
    (bitAt x.addr0 29 || (field x.addr0 11 18 == 0 && field x.addr1 11 18 == 0))

def State.sentAddrOk (s : State) (x : Partner) : Bool :=
  let slot := field x.addr0 0 2
  (if s.setup x.port 1 17 1 = 1 then
      s.setup x.port 2 (8 * slot) 8 != 0 && decide (100 ≤ s.setup x.port 3 0 20) &&
        decide (s.setup x.port 3 0 20 ≤ 1000000)
    else slot == 0) &&
    (bitAt x.addr0 2 || field x.addr1 0 16 == 0)

def State.psiAddrOk (s : State) (x : Partner) : Bool :=
  x.addr1 == 0 && x.addr2 == 0 && decide (x.addr0 < 8) && decide (x.addr0 < s.setup x.port 1 8 3)

def State.spiAddrOk (s : State) (i : Nat) (x : Partner) : Bool :=
  let len := field x.addr1 0 11
  let cs := field x.addr0 0 3
  s.sigBound x.port (3 + cs) && len != 0 && len % x.spiBytes == 0 &&
    decide (3 ≤ field x.addr0 6 5) && field x.addr2 0 20 != 0 &&
    decide (field x.addr2 0 20 ≤ 1000000) &&
    (s.partnersOf x.port).all (fun e =>
      e.1 == i || field e.2.addr0 0 3 != cs || bitAt e.2.addr0 11 == bitAt x.addr0 11)

def State.i3cAddrOk (s : State) (i : Nat) (x : Partner) : Bool :=
  let da := field x.addr0 0 7
  let legacy := bitAt x.addr0 7
  let others := (s.partnersOf x.port).filter (fun e => e.1 != i)
  decide (8 ≤ da) && decide (da ≤ if legacy then 0x77 else 0x3D) &&
    !(legacy && (bitAt x.addr0 15 || bitAt x.addr0 16)) && field x.addr2 16 11 != 0 &&
    others.all (fun e => field e.2.addr0 0 7 != da) && decide (others.length < 32)

/-- ADDR0 to ADDR2 are a valid address for the TYPE of the entry's port. -/
def State.addrOk (s : State) (i : Nat) (x : Partner) : Bool :=
  match s.portType x.port with
  | 1 => canAddrOk x
  | 2 => s.sentAddrOk x
  | 3 => s.psiAddrOk x
  | 4 => s.spiAddrOk i x
  | 5 => s.i3cAddrOk i x
  | _ => true

/-! ## Validity (R416, R397) -/

/-- The area of an entry overlaps the area of another VALID one. -/
def State.overlaps (s : State) (i : Nat) (x : Partner) : Bool :=
  s.partners.any (fun e =>
    e.1 != i && e.2.valid && e.2.segment == x.segment &&
      decide (x.areaBase < e.2.areaBase + e.2.areaSize) &&
      decide (e.2.areaBase < x.areaBase + x.areaSize))

/-- The check of an entry: its code, 0 for a pass. Tenant 0 counts as the owner of every unit that
exists; an entry that nobody owns fails the first check. -/
def State.partnerCheck (s : State) (i : Nat) : Nat :=
  let x := s.partner i
  match s.partnerOwner i with
  | none => 1
  | some o =>
    if !(decide (x.port < 96) && ownedBy (s.portOwner x.port) o) then 1
    else if !ownedBy (s.segOwner x.segment) o then 2
    else if x.areaSize = 0 ∨ 1024 < x.areaBase + x.areaSize then 3
    else if s.overlaps i x then 4
    else if !s.addrOk i x then 5
    else 0

/-- A partner made VALID while its I3C port is ACTIVE is to be addressed; one without VALID is not (R467). -/
def State.noteTarget (s : State) (i : Nat) : State :=
  let x := s.partner i
  if s.portType x.port = 5 then
    s.modPort x.port (fun y => { y with
      unaddressed := y.unaddressed.filter (· != i) ++
        (if x.valid && s.portActive x.port && !bitAt x.addr0 7 then [i] else []) })
  else s

/-- VALID is set from 0 to 1. The rules do not say whether the final record is due again after it: the model makes
it due (DESIGN CHOICE, log 59). -/
def State.validatePartner (s : State) (i : Nat) : State :=
  let chk := s.partnerCheck i
  (s.modPartner i (fun x =>
    if chk = 0 then { x with valid := true, chk := 0, pos := 0, frames := [], final := false }
    else { x with chk := chk })).noteTarget i

/-- VALID is cleared. An SPI port then misses one chip select less (R461). -/
def State.invalidatePartner (s : State) (i : Nat) : State :=
  ((s.modPartner i (fun x => { x.disarm.discard with valid := false })).noteTarget i).refreshPort (s.partner i).port

/-- Every VALID entry is checked again after a charter write (R397). -/
def State.recheckPartners (s : State) : State :=
  overList (s.partners.filter (fun e => e.2.valid)) (fun e s =>
    let chk := s.partnerCheck e.1
    if chk = 0 then s
    else
      let s := (s.invalidatePartner e.1).modPartner e.1 (fun x => { x with chk := chk })
      s.event 0x0511 1 (scopeO (s.partnerOwner e.1)) [(1, e.2.port), (1, 0), (2, e.1), (1, chk)]) s

/-! ## Writes and reads of an entry (R6, R15, R415, R418) -/

/-- A write of word 0 by a tenant. One that clears VALID with CLR_TALLY = 1 zeroes the tallies first, so that REJECTED
then counts the frames discarded (DESIGN CHOICE, log 59). -/
def State.writePartner0 (s : State) (t i v : Nat) : State :=
  let was := (s.partner i).valid
  let s := s.modPartner i (fun x => { x with
    port := if was ∨ 96 ≤ field v 0 7 then x.port else field v 0 7
    ring := if t = 0 then field v 12 2 else x.ring
    schedEn := bitAt v 20, schedRing := field v 21 2
    accepted := if bitAt v 19 then 0 else x.accepted
    rejected := if bitAt v 19 then 0 else x.rejected })
  if was ∧ !bitAt v 7 then s.invalidatePartner i
  else if !was ∧ bitAt v 7 then s.validatePartner i
  else s

/-- A write of a word by a tenant. DESIGN CHOICE: ADDR0 to ADDR2 take any value, and one that the TYPE's format
reserves or that is out of its range fails CHK 5 when VALID is set (log 36). -/
def State.writePartner (s : State) (t i word v : Nat) : State :=
  if word = 0 then s.writePartner0 t i v
  else if (s.partner i).valid then s
  else s.modPartner i (fun x =>
    match word with
    | 1 => { x with addr0 := v }
    | 2 => { x with addr1 := v }
    | 3 => { x with addr2 := v }
    | 4 => { x with segment := field v 0 7, areaBase := field v 8 10 }
    | 5 =>
      let n := field v 0 11
      { x with areaSize := if 1 ≤ n ∧ n ≤ 1024 then n else x.areaSize }
    | _ => x)

/-- Number of a requester's latch for a tally of an entry. -/
def tallyKey (who : Requester) (i : Nat) (rejected : Bool) : Nat :=
  64 * (2 * i + bnat rejected) + reqLatch who

/-- A read of a tally's low word latches its high half for the requester. -/
def State.readTally (s : State) (who : Requester) (i : Nat) (rejected : Bool) : Nat × State :=
  let x := s.partner i
  let v := if rejected then x.rejected else x.accepted
  (lo32 v, { s with
    tallyLatch := tabSet (fun _ => 0) s.tallyLatch (tallyKey who i rejected) (hi32 v) })

def State.tallyHi (s : State) (who : Requester) (i : Nat) (rejected : Bool) : Nat :=
  tabGet (fun _ => 0) s.tallyLatch (tallyKey who i rejected)

/-- OWNER of an entry: the value of CHTR_PARTNER_OWN. -/
def State.partnerOwnField (s : State) (i : Nat) : Nat :=
  field (s.charterShown (1024 + i / 8)) (4 * (i % 8)) 4

/-- A read of a word. -/
def State.readPartner (s : State) (who : Requester) (i word : Nat) : Nat × State :=
  let x := s.partner i
  match word with
  | 0 => (place x.port 0 7 + flag x.valid 7 + place (s.partnerOwnField i) 8 4 + place x.ring 12 2 +
      place x.arm 14 2 + place x.chk 16 3 + flag x.schedEn 20 + place x.schedRing 21 2, s)
  | 1 => (x.addr0, s)
  | 2 => (x.addr1, s)
  | 3 => (x.addr2, s)
  | 4 => (place x.segment 0 7 + place x.areaBase 8 10, s)
  | 5 => (x.areaSize, s)
  | 6 => (place x.frames.length 0 16 + place x.used 16 11, s)
  | 8 => s.readTally who i false
  | 9 => (s.tallyHi who i false, s)
  | 10 => s.readTally who i true
  | 11 => (s.tallyHi who i true, s)
  | 12 => (lo32 x.lastStamp, s)
  | 13 => (hi32 x.lastStamp, s)
  | 14 => (x.lastEpoch, s)
  | _ => (0, s)

/-! ## Matching (R417, R440, and the protocols' sections) -/

/-- Word k of a payload. -/
def payWord (b : List Byte) (k : Nat) : Nat := leNat ((b.drop (4 * k)).take 4)

/-- R448, of ID and IDE. -/
def canIdMatch (x : Partner) (b : List Byte) : Bool :=
  bitAt (payWord b 0) 29 == bitAt x.addr0 29 &&
    (field (payWord b 0) 0 29 ^^^ field x.addr0 0 29) &&& field x.addr1 0 29 == 0

/-- R448. -/
def canMatch (x : Partner) (b : List Byte) : Bool :=
  canIdMatch x b &&
    (match field x.addr2 0 2 with
      | 1 => !bitAt (payWord b 1) 4
      | 2 => bitAt (payWord b 1) 4
      | _ => true) &&
    (!bitAt (payWord b 0) 30 || bitAt x.addr2 2)

/-- R453. -/
def sentMatch (x : Partner) (f : RxFrame) : Bool :=
  f.slot == field x.addr0 0 2 && f.stream == field x.addr0 2 1 &&
    (f.stream == 0 ||
      (field (payWord f.payload 0) 0 8 ^^^ field x.addr1 0 8) &&& field x.addr1 8 8 == 0)

/-- Six bytes of a frame as a MAC address, byte 0 lowest (R472). -/
def macAt (b : List Byte) (k : Nat) : Nat := leNat ((b.drop k).take 6)

/-- Two bytes of a frame, big end first. -/
def be16At (b : List Byte) (k : Nat) : Nat := beNat ((b.drop k).take 2)

/-- EtherType, after a VLAN tag where one is present (R473). PRESUMED of IEEE 802.3: its first byte on the wire
is the high one, and so is the tag's (log 36). -/
def etherType (b : List Byte) : Nat := if be16At b 12 = 0x8100 then be16At b 16 else be16At b 12

/-- MAC address of a 10BASE-T1S partner. -/
def Partner.mac (x : Partner) : Nat := x.addr0 + 2 ^ 32 * field x.addr1 0 16

/-- R473, with the frame's address at a byte of it: source on receive, destination on transmit. -/
def t1sMatch (x : Partner) (b : List Byte) (at_ : Nat) : Bool :=
  (bitAt x.addr2 0 || macAt b at_ == x.mac) && (bitAt x.addr2 1 || etherType b == field x.addr1 16 16)

/-- A frame received by a port of a TYPE matches an entry. -/
def frameMatches (type : Nat) (f : RxFrame) (i : Nat) (x : Partner) : Bool :=
  match f.partner with
  | some j => j == i
  | none =>
    match type with
    | 1 => canMatch x f.payload
    | 2 => sentMatch x f
    | 3 => f.slot == field x.addr0 0 3
    | 5 => (match f.ibi with
        | some da => bitAt x.addr0 16 && field x.addr0 0 7 == da
        | none => false)
    | 6 => t1sMatch x f.payload 6
    | _ => false

/-- The lowest-numbered VALID entry of a port whose address matches. -/
def State.matchFrame (s : State) (p : Nat) (f : RxFrame) : Option Nat :=
  ((s.partnersOf p).find? (fun e => frameMatches (s.portType p) f e.1 e.2)).map Prod.fst

/-! ## Storing (R419 to R421) -/

/-- Units of a stored frame with a payload length. -/
def frameUnits (len : Nat) : Nat := (16 + len + 63) / 64

/-- The descriptor of a stored frame. -/
def descriptor (f : RxFrame) : List Byte :=
  leBytes 8 f.stamp ++ leBytes 2 f.payload.length ++ leBytes 2 f.epoch ++ leBytes 4 0

/-- Bytes written to consecutive units of an area, from its end on to its start. -/
def State.writeUnits : Nat → State → Partner → Nat → List Byte → State
  | 0, s, _, _, _ => s
  | n + 1, s, x, unit, bytes =>
    State.writeUnits n (s.harbourWrite (x.area + 64 * (unit % x.areaSize)) (bytes.take 64)) x (unit + 1)
      (bytes.drop 64)

/-- DB_PEND of a PROGRAM ring is set, if it is RUNNING (R299, R421). -/
def State.setDbPend (s : State) (r : Nat) : State :=
  let x := s.ring r
  if x.kind = 2 ∧ x.state = .running then s.modThr r (fun t => { t with dbPend := true }) else s

/-- The schedule ring of a partner is woken. -/
def State.schedule (s : State) (i : Nat) : State :=
  let x := s.partner i
  match s.partnerOwner i with
  | some o => if x.schedEn then s.setDbPend (4 * o + x.schedRing) else s
  | none => s

/-- Bytes that a port has written into a segment are kept for 100 µs (R257). -/
def State.noteInflow (s : State) (seg n : Nat) : State :=
  s.modLink (fun l => { l with
    inflow := l.inflow.filter (fun e => s.coreNs < e.1 + 100000) ++ [(s.coreNs, seg, n)] })

/-- A frame is stored for an entry with room for it: the first after validation from unit 0 on, and any other
behind the latest, in an area that has emptied too (DESIGN CHOICE, log 59). -/
def State.storeFrame (s : State) (i : Nat) (f : RxFrame) : State :=
  let x := s.partner i
  let s := s.noteInflow x.segment (16 + f.payload.length)
  let len := f.payload.length
  let units := frameUnits len
  let s := State.writeUnits units s x x.pos (descriptor f ++ f.payload)
  let item : Stored :=
    { unit := x.pos, units := units, len := len, stamp := f.stamp, epoch := f.epoch }
  (s.modPartner i (fun x => { x with
    pos := (x.pos + units) % x.areaSize, frames := x.frames ++ [item]
    accepted := satAdd tallyMax x.accepted 1, lastStamp := f.stamp, lastEpoch := f.epoch
    arm := if x.arm = 1 then 0 else x.arm })).schedule i

/-- A frame that an entry takes (R417). -/
def State.takeFrame (s : State) (p i : Nat) (f : RxFrame) : State :=
  let x := s.partner i
  let len := f.payload.length
  if x.arm = 0 then s.rejectFrames i 1
  else if x.areaSize < x.used + frameUnits len then
    (s.rejectFrames i 1).event 0x0510 1 (scopeO (s.partnerOwner i))
      [(1, p), (1, 0), (2, i), (2, x.used), (2, len)]
  else s.storeFrame i f

/-- A frame leaves X18 and is matched and handled (R417). One of a transfer for a partner is that partner's alone
(R440): where the entry is no longer VALID for the port it is not armed. -/
def State.deliverFrame (s : State) (p : Nat) (f : RxFrame) : State :=
  match f.partner, s.matchFrame p f with
  | _, some i => s.takeFrame p i f
  | some j, none => s.rejectFrames j 1
  | none, none => s.modPort p (fun x => { x with rxUnmatched := satInc32 x.rxUnmatched })

/-- The stored bytes of a frame: descriptor and payload, by its units. -/
def State.storedBytes (s : State) (x : Partner) (f : Stored) : List Byte :=
  ((List.range f.units).flatMap (fun k =>
    memRead 0 s.harbour (x.area + 64 * ((f.unit + k) % x.areaSize)) 64)).take (16 + f.len)

/-- The read of a stored frame corrects what it can (R425). -/
def State.storedCorrects (s : State) (x : Partner) (f : Stored) : State :=
  overAll f.units (fun k s => s.harbourCorrects (x.area + 64 * ((f.unit + k) % x.areaSize))
    (min 64 (16 + f.len - 64 * k))) s

/-- A stored frame's bytes touch a word with an uncorrectable error: the address of its 64-byte unit, which
HARBOUR_ECC then shows (R435; DESIGN CHOICE, log 59). -/
def State.storedFails (s : State) (x : Partner) (f : Stored) : Option Nat :=
  ((List.range f.units).map (fun k =>
    (x.area + 64 * ((f.unit + k) % x.areaSize), min 64 (16 + f.len - 64 * k)))).findSome?
      (fun e => if s.harbourFails e.1 e.2 then some e.1 else none)

/-! ## Commands -/

/-- PORT_FRAME_RECEIVED (R417): the oldest frame of X18 is matched. -/
def execPortFrameReceived (p : PortId) (s : State) : Host.Outcome State Fault Refusal :=
  answer (match (s.port p).rxq with
    | [] => s
    | f :: rest => (s.modPort p (fun x => { x with rxq := rest })).deliverFrame p f)

end Sys2Proof.Machine
end

