-- ==== Sys2Proof/Machine/Ferries.lean ====
section
/-! DEFINITION. Ferry pairs (R384 to R392, R403, R522): grants, failures and what becomes of the
instruction in flight, and the way every instruction runs on a pair. -/

namespace Sys2Proof.Machine

/-! ## The instruction in flight at a failure (R390) -/

/-- INSTRUCTION_RETRIED: 1 executed again, 2 resumed. -/
def State.noteRetry (s : State) (r outcome : Nat) (c : Cur) : State :=
  let t := ringTenant r
  let s := (s.modTen t (fun x => { x with retried := satInc32 x.retried })).tenFault t 4 (ringLocal r) 0
  s.event 0x0602 1 t [(1, t), (1, r), (1, c.opcode), (1, outcome), (4, c.pos % 2 ^ 17)]

/-- INSTRUCTION_PARTIAL. -/
def State.notePartial (s : State) (r : Nat) (c : Cur) : State :=
  let t := ringTenant r
  let s := (s.modTen t (fun x => { x with partialCount := satInc32 x.partialCount })).tenFault t 5
    (ringLocal r) 0x11
  s.event 0x0603 1 t [(1, t), (1, r), (1, c.opcode), (1, 0), (4, c.progress)]

/-- The uncommitted part of the instruction is gone: it starts again, or it goes on at its first
uncommitted unit. The outcome of a frame that a port has taken is kept. -/
def Cur.again (c : Cur) : Cur :=
  if c.progress = 0 ∧ !(c.opcode = 0x50 ∧ c.reply.isSome) then
    { words := c.words, pos := c.pos, next := c.next, unread := c.unread, retried := true, fenced := c.fenced }
  else
    { c with xl := none, staged := none, once := false, retried := true
             reply := if c.opcode = 0x50 then c.reply else none }

/-- An instruction ends PARTIAL; XD of a poll holds the frames it has delivered (R370, R390). -/
def State.endPartial (s : State) (r : Nat) (c : Cur) : Nat × State :=
  let s := s.modCur r (fun x => { x with
    progress := c.progress, xl := none, staged := none, taken := none, reply := none })
  let s := if c.opcode = 0x52 then s.setReg r (c.op 1 24 4) c.progress else s
  (3, (s.notePartial r c).endInstr r 0x11 0)

/-- An instruction that has begun a record: its writes are committed as one unit (R302), so they go on. An EMIT
has done all it has to; a poll counts the frame whose last record it is. -/
def State.surviveBegun (s : State) (r : Nat) (c : Cur) : Nat × State :=
  if c.opcode = 0x52 then
    match c.taken with
    | some frame =>
      if c.frag + 1 = fragments frame.2.1 then s.endPartial r { c with progress := c.progress + 1 }
      else (s.loseTaken c).endPartial r c
    | none => (s.modPartner (c.op 1 0 12) (fun x => { x with final := true })).endPartial r c
  else
    (2, (s.modCur r (fun c => { c with
      staged := none, fin := some (0, 0), reply := none, dest := none, retried := true })).noteRetry r 2 c)

/-- An instruction whose record in hand has been lost, which counts as written (R305): a poll ends PARTIAL, an EMIT
has done all it has to. -/
def State.surviveLost (s : State) (r : Nat) (c : Cur) : Nat × State :=
  if c.opcode = 0x52 then
    let s := s.pollLost r c
    s.endPartial r { c with progress := s.delivered r }
  else s.surviveBegun r c

/-- A thread's instruction after its pair has failed; one that has ended has only its record left. Answers: the
outcome as FERRY_LAST_FAIL codes it, none for one that a flush takes (R392, log 22). -/
def State.survive (s : State) (r : Nat) : Nat × State :=
  match (s.thr r).cur with
  | none => (4, s)
  | some c =>
    let s := s.withdrawWait r
    if c.fin.isSome then
      if (s.ring r).state = .flushing then (0, s)
      else (2, (s.modCur r (fun c => { c with retried := true })).noteRetry r 2 c)
    else if s.recordBegun r then (if (s.ring r).state = .flushing then (0, s) else s.surviveBegun r c)
    else if c.lostRecord then
      (if (s.ring r).state = .flushing then (0, s.flushInFlight r) else s.surviveLost r c)
    else
    let s := s.loseTaken c
    if (s.ring r).state = .flushing then
      let s := (s.dropGrant c).modCur r (fun c => { c with xl := none, staged := none, taken := none, reply := none })
      (0, s.flushInFlight r)
    else if c.once ∨ c.taken.isSome then s.endPartial r c
    else
      let outcome := if c.again.progress = 0 ∧ c.again.reply.isNone then 1 else 2
      (outcome, ((s.dropGrant c).modCur r Cur.again).noteRetry r outcome c)

/-! ## Failures (R388, R389, R392) -/

/-- An armed fault that would leave fewer than two pairs in service is refused (R522). -/
def State.disarmFew (s : State) : State :=
  s.modPtu (fun u => if u.pfGo ∧ s.pairsInService < 3 then { u with pfGo := false, pfResult := 3 } else u)

/-- A pair fails. Its thread is made ready, or stays paused in the entry to HOLD; its instruction ends as R390 and
R392 state. -/
def State.pairFails (s : State) (p cause : Nat) : State :=
  let x := s.pair p
  if x.retired ∨ s.mode.mode = .reset ∨ s.mode.mode = .load then s
  else
    let s := s.modPtu (fun u =>
      if u.pfGo ∧ u.pfPair = p then { u with pfGo := false, pfResult := 4 } else u)
    match x.held with
    | none => (s.retirePair p cause none 4).disarmFew
    | some r =>
      let op := ((s.thr r).cur.map Cur.opcode).getD 0xFF
      let fab := match (s.thr r).wait with
        | .fabric i => some i
        | _ => none
      let s := s.dropPair r
      let s := match fab with
        | some i => s.orphanAccesses r i
        | none => s
      let (outcome, s) := s.survive r
      let s := if s.executing then s else s.modThr r (fun t => { t with paused := t.paused || s.holds })
      (s.retirePair p cause (some (r, op)) outcome).disarmFew

/-! ## Running an instruction on a pair (R522) -/

/-- What an armed fault meets in the unit about to be released: nothing made once; an access made
once, with the state after it; or no release yet. -/
inductive Strike where
  | clean
  | made (s : State)
  | later

/-- An armed pair fault acts on the pair that the thread holds. -/
def State.struck (s : State) (r : Nat) : Option Nat :=
  match (s.thr r).pair with
  | some p => if s.mode.mode = .test ∧ s.ptu.pfGo ∧ s.ptu.pfPair = p then some p else none
  | none => none

/-- The armed fault is applied (R522). -/
def State.strikePair (s : State) (p : Nat) : State :=
  (s.modPtu (fun u => { u with pfGo := false, pfResult := 1 })).pairFails p 1

/-- One run of an instruction of a thread on its pair, under an armed fault where there is one. -/
def State.runInsn (s : State) (r : Nat) (opcode : Nat → Bool) (check : Cur → Option Nat)
    (body : Cur → State → State) (strike : Cur → State → Strike := fun _ _ => .clean)
    (held : Cur → State → Bool := fun _ _ => false) : State :=
  match s.struck r, (s.thr r).cur with
  | some p, some c =>
    if !s.runsOn r opcode c then s
    -- behind its fence, or held, it releases nothing yet
    else match (if s.fenceHeld r c || s.fenceWaits r c then Strike.later else if !c.started && (check c).isSome then .clean
        else if held c s then .later else strike c s) with
      | .clean => s.strikePair p
      | .made s => (s.modCur r (fun c => { c with once := true })).strikePair p
      | .later => s.runOp r opcode check body held
  | _, _ => s.runOp r opcode check body held

/-! ## Grants (R386) -/

/-- The completion record of a ring's thread has been begun: its unit is released (R302, R385). -/
def State.completionBegun (s : State) (r : Nat) : Bool :=
  (s.begunRing r).any (fun d => (s.ring d).part.any (fun p => p.1.type == 1))

/-- An instruction that has ended writes its completion record, a unit of its own that an armed fault meets
where it would be released (R302, R385, R522). -/
def State.takeEnd (s : State) (r : Nat) : State :=
  let a := s.tryRetire r
  match (s.struck r).filter (fun _ => !s.completionBegun r && (a.1 || a.2.completionBegun r)) with
  | some p => s.strikePair p
  | none => if a.1 then a.2.boundary r else a.2

/-- What a pair finds in the instruction of a thread it is granted to: one that has ended, or one that could not
be fetched whole, whose end an armed fault meets (R522). -/
def State.takeUp (s : State) (r : Nat) (c : Cur) : State :=
  if c.fin.isSome then s.takeEnd r
  else match c.unread with
    | some status =>
      match s.struck r with
      | some p => s.strikePair p
      | none => s.endInstr r status 0
    | none => s

/-- A pair is granted to a thread. -/
def State.grantPair (s : State) (p t r : Nat) : State :=
  let s := s.modFerry (fun f => { f with
    credit := tabMod (fun _ => 0) f.credit t (· - 1)
    lastTenant := t
    lastRing := tabSet (fun _ => 3) f.lastRing t (ringLocal r) })
  let s := (s.modPair p (fun x => { x with held := some r, ring := r })).modThr r
    (fun x => { x with pair := some p })
  match (s.thr r).cur with
  | none => s.loadNext r
  | some c => s.takeUp r c

/-- PAIR_GRANT (R386): a free pair, in service, to the next ready thread. -/
def State.servePair (s : State) (p : Nat) : State :=
  let x := s.pair p
  if x.retired || x.held.isSome then s
  else match s.nextTenant with
    | some (t, r) => s.grantPair p t r
    | none =>
      let s' := s.newRound
      match s'.nextTenant with
      | some (t, r) => s'.grantPair p t r
      | none => s

/-! ## Registers (R403) -/

/-- FERRY_STATUS. -/
def State.ferryStatus (s : State) : Nat :=
  maskOf 8 (fun p => !(s.pair p).retired) + 256 * maskOf 8 (fun p => (s.pair p).retired) +
    place s.pairsInService 16 4

/-- FERRY_PAIR_p. -/
def ferryPair (x : Pair) : Nat :=
  (if x.retired then 2 else if x.held.isSome then 1 else 0) + flag x.selftest 2 + place x.ring 8 5 +
    place x.cause 16 4

/-- A read of the ferry sub-block. -/
def State.ferryRead (s : State) (off : Nat) : Nat :=
  if off = 0x000 then s.ferryStatus
  else if off = 0x010 then s.ferry.lastFail
  else if 0x100 ≤ off ∧ off < 0x120 ∧ off % 4 = 0 then ferryPair (s.pair ((off - 0x100) / 4))
  else 0

/-! ## Commands -/

/-- PAIR_GRANT (R386). -/
def execPairGrant (p : PairId) (s : State) : Host.Outcome State Fault Refusal := answer (s.servePair p)

/-- PAIR_FAILURE (R388, R389): cause 1 MISMATCH or 2 BUFFER_ERROR. -/
def execPairFailure (p : PairId) (cause : Fin 16) (s : State) : Host.Outcome State Fault Refusal :=
  answer (if cause = 1 ∨ cause = 2 then s.pairFails p cause else s)

/-- PAIR_NO_RESULT (R388): cause 3. -/
def execPairNoResult (p : PairId) (s : State) : Host.Outcome State Fault Refusal :=
  answer (if (s.pair p).held.isSome then s.pairFails p 3 else s)

end Sys2Proof.Machine
end

