-- ==== Sys2Proof/Machine/Flags.lean ====
section
/-! DEFINITION. What the arithmetic instructions compute: a result and C over an operation width; Z and
N follow from the result (R347, R348). -/

namespace Sys2Proof.Machine

/-- Bits of an operation: 32 with W32 = 1 (R348). -/
def opWidth (w32 : Bool) : Nat := if w32 then 32 else 64

/-- The result of an operation, and C. -/
structure AluOut where
  value : Nat
  c : Bool
  deriving DecidableEq, Repr

/-- Word 2 sign-extended to 64 bits (R347). -/
def sext32 (v : Nat) : Nat := if bitAt v 31 then v + (2 ^ 64 - 2 ^ 32) else v

/-- ADD: C is the carry out of the top bit. -/
def aluAdd (w a b : Nat) : AluOut := { value := (a + b) % 2 ^ w, c := decide (2 ^ w ≤ a + b) }

/-- SUB and CMP: C is 1 when A < B unsigned. -/
def aluSub (w a b : Nat) : AluOut := { value := (a + 2 ^ w - b) % 2 ^ w, c := decide (a < b) }

/-- AND, OR, XOR: C is 0. -/
def aluAnd (_ a b : Nat) : AluOut := { value := a &&& b, c := false }
def aluOr (_ a b : Nat) : AluOut := { value := a ||| b, c := false }
def aluXor (_ a b : Nat) : AluOut := { value := a ^^^ b, c := false }

/-- The fill of an arithmetic shift right by k: the top bit, k times. -/
def asrFill (w a k : Nat) : Nat := if bitAt a (w - 1) then 2 ^ w - 2 ^ (w - k) else 0

/-- SHIFT by an amount below the width: SOP 0 LSL, 1 LSR, 2 ASR, 3 ROR. C is the last bit shifted out,
0 when the amount is 0. -/
def aluShift (w sop a k : Nat) : AluOut :=
  if k = 0 then { value := a % 2 ^ w, c := false }
  else match sop with
    | 0 => { value := a * 2 ^ k % 2 ^ w, c := bitAt a (w - k) }
    | 1 => { value := a / 2 ^ k, c := bitAt a (k - 1) }
    | 2 => { value := a / 2 ^ k + asrFill w a k, c := bitAt a (k - 1) }
    | _ => { value := a / 2 ^ k + a * 2 ^ (w - k) % 2 ^ w, c := bitAt a (k - 1) }

/-- Z: the result is 0. N: its top bit. -/
def AluOut.z (o : AluOut) : Bool := o.value == 0
def AluOut.n (o : AluOut) (w : Nat) : Bool := bitAt o.value (w - 1)

end Sys2Proof.Machine
end

