-- ==== Sys2Proof/Machine/Arithmetic.lean ====
section
/-! DEFINITION. The arithmetic instructions (R347, R348): LOAD_IMM, ADD, SUB, AND, OR, XOR, SHIFT, CMP. -/

namespace Sys2Proof.Machine

/-! ## Fields of operand word 1 (R347) -/

def Cur.imm (c : Cur) : Bool := bitAt (c.word 1) 14
def Cur.w32 (c : Cur) : Bool := bitAt (c.word 1) 15
def Cur.amt (c : Cur) : Nat := c.op 1 18 6

/-- The two sources are encodings of R321; with IMM = 1 the field SB is 0. -/
def Cur.aluSources (c : Cur) : Bool :=
  srcOk (c.op 1 4 5) && (if c.imm then c.op 1 9 5 == 0 else srcOk (c.op 1 9 5))

/-- The checks of ADD, SUB, AND, OR, XOR and, with XD = 0, of CMP. -/
def aluCheck (cmp : Bool) (c : Cur) : Option Nat :=
  formatCheck c (c.length == if c.imm then 2 else 1)
    (c.aluSources && c.op 1 16 16 == 0 && (!cmp || c.op 1 0 4 == 0)) true

/-- The checks of SHIFT. -/
def shiftCheck (c : Cur) : Option Nat :=
  formatCheck c (c.length == 1) (c.aluSources && c.op 1 24 8 == 0 && (c.imm || c.amt == 0)) true

/-- The checks of LOAD_IMM. -/
def loadImmCheck (c : Cur) : Option Nat :=
  formatCheck c (c.length == 2 || c.length == 3)
    (c.op 1 5 27 == 0 && (c.length == 2 || !bitAt (c.word 1) 4)) true

/-! ## Sources and results -/

/-- Source A, and source B or the immediate, as bits of the operation width. -/
def State.aluA (s : State) (r : Nat) (c : Cur) : Nat := s.src r (c.op 1 4 5) % 2 ^ opWidth c.w32
def State.aluB (s : State) (r : Nat) (c : Cur) : Nat :=
  (if c.imm then sext32 (c.word 2) else s.src r (c.op 1 9 5)) % 2 ^ opWidth c.w32

/-- The shift amount: bits [5:0] of AMT or source B, bits [4:0] with W32. -/
def State.shiftAmount (s : State) (r : Nat) (c : Cur) : Nat :=
  (if c.imm then c.amt else s.src r (c.op 1 9 5)) % opWidth c.w32

/-- The value of LOAD_IMM. -/
def Cur.immediate (c : Cur) : Nat :=
  if c.length = 3 then c.wide 2
  else if bitAt (c.word 1) 4 then sext32 (c.word 2) else c.word 2

/-- Z, C and N after an operation. -/
def Thread.setFlags (t : Thread) (w : Nat) (o : AluOut) : Thread :=
  { t with z := o.z, c := o.c, n := o.n w }

/-- An operation's result to XD, unless it is CMP, its flags, and the end of the instruction. -/
def State.aluEnds (s : State) (r : Nat) (c : Cur) (store : Bool) (o : AluOut) : State :=
  (s.modThr r (fun t =>
    let t := t.setFlags (opWidth c.w32) o
    if store then t.setReg (c.op 1 0 4) o.value else t)).endInstr r 0 0

/-- One of ADD, SUB, AND, OR, XOR and CMP. -/
def State.runAlu (s : State) (r opcode : Nat) (store : Bool) (f : Nat → Nat → Nat → AluOut) : State :=
  s.runInsn r (· == opcode) (aluCheck !store) (fun c s =>
    s.aluEnds r c store (f (opWidth c.w32) (s.aluA r c) (s.aluB r c)))

/-! ## Commands -/

/-- LOAD_IMM. -/
def execLoadImm (r : RingId) (s : State) : Host.Outcome State Fault Refusal :=
  answer (s.runInsn r (· == 0x10) loadImmCheck (fun c s =>
    (s.setReg r (c.op 1 0 4) c.immediate).endInstr r 0 0))

/-- ADD. -/
def execOvAdd (r : RingId) (s : State) : Host.Outcome State Fault Refusal :=
  answer (s.runAlu r 0x11 true aluAdd)

/-- SUB. -/
def execOvSub (r : RingId) (s : State) : Host.Outcome State Fault Refusal :=
  answer (s.runAlu r 0x12 true aluSub)

/-- AND. -/
def execOvAnd (r : RingId) (s : State) : Host.Outcome State Fault Refusal :=
  answer (s.runAlu r 0x13 true aluAnd)

/-- OR. -/
def execOvOr (r : RingId) (s : State) : Host.Outcome State Fault Refusal :=
  answer (s.runAlu r 0x14 true aluOr)

/-- XOR. -/
def execOvXor (r : RingId) (s : State) : Host.Outcome State Fault Refusal :=
  answer (s.runAlu r 0x15 true aluXor)

/-- SHIFT. -/
def execOvShift (r : RingId) (s : State) : Host.Outcome State Fault Refusal :=
  answer (s.runInsn r (· == 0x16) shiftCheck (fun c s =>
    s.aluEnds r c true (aluShift (opWidth c.w32) (c.op 1 16 2) (s.aluA r c) (s.shiftAmount r c))))

/-- CMP: SUB's flags, no result. -/
def execOvCmp (r : RingId) (s : State) : Host.Outcome State Fault Refusal :=
  answer (s.runAlu r 0x17 false aluSub)

end Sys2Proof.Machine
end

