-- ==== Sys2Proof/Machine/Wake.lean ====
section
/-! DEFINITION. Waking (R157, R33) and the clocks: synthesizers and global lines (R95 to R97, R182). -/

namespace Sys2Proof.Machine

/-! ## The wake's steps (R157) -/

/-- DONE_RISE (R157 step 1, R31 T4): the line is high once every device has released it. -/
def execDoneRise (s : State) : Host.Outcome State Fault Refusal :=
  answer (if s.mode.mode = .load ∧ s.mode.trans = none ∧ !s.mode.doneLow then s.startTrans 4 .wake else s)

/-- A step of the wake, after the one before it and while the wake goes on. -/
def State.wakeAt (s : State) (step : Nat) (f : State → State) : State :=
  if s.mode.mode = .wake ∧ s.mode.trans = none ∧ s.mode.wakeStep = step then
    f (s.modMode (fun m => { m with wakeStep := step + 1 }))
  else s

/-- A T12 wake reaches a sealed island (R33, R179): it is released, with what its own release still waited for
(R483), or it loses the reasons that the wake clears, and a completed load is before the last wake (R174). -/
def State.wakeIsland (s : State) (i : Nat) : State :=
  let x := s.isl i
  if !x.sealed then s
  else if s.wakeReleases i then
    (((s.endRelease i 0).leaveWithdraw (isRelease i)).leaveEnding (isRelease i)).unseal i .wake
  else (s.clearReasons i .wake).modIsl i (fun x =>
    { x with loadState := if x.unfinished then x.loadState else .none })

/-- Global set/reset is released: every register holds INIT and every causeway register 0 (R69, R98). -/
def State.gsrRelease (s : State) : State :=
  let s := (overAll 48 (fun i t => t.modIsl i (fun x => { x with user := s.initBits i, cause := 0 })) s).modMode
    (fun m => { m with gsrOff := true })
  overAll 48 (fun i t => t.modIsl i (fun x => { x with ptclk := s.ptLevels i })) s

/-- WAKE_GSR_RELEASE (R157 step 3). -/
def execWakeGsrRelease (s : State) : Host.Outcome State Fault Refusal :=
  answer (s.wakeAt 2 (fun s =>
    let s := s.gsrRelease
    if s.mode.wakeT12 then overAll 48 (fun i s => s.wakeIsland i) s else s))

/-- WAKE_BANK_OUTPUT_ENABLE (R157 step 4, R220). A request of an enabled bank that is still queued stays so: its
grant enables the bank once more (DESIGN CHOICE, log 57). A lease granted before has met its event (R479). -/
def execWakeBankOutputEnable (s : State) : Host.Outcome State Fault Refusal :=
  answer (s.wakeAt 3 (fun s =>
    (overAll 48 (fun b s =>
      if s.bankPresent b then
        (s.modBank b (fun x => { x with enabled := true, asking := false, retry := false })).leaveEnding
          (· == Asker.bank b)
      else if s.bankDeclared b then
        s.event 0x0141 2 (scopeO (s.islandOwner b)) [(1, b), (1, s.bankVcco b), (1, (s.bank b).cls)]
      else s) s).refreshPorts))

/-- WAKE_CLOCK_START (R157 step 5). -/
def execWakeClockStart (s : State) : Host.Outcome State Fault Refusal :=
  answer (s.wakeAt 4 (fun s => s.modMode (fun m => { m with clocksOn := true })))

/-- WAKE_COMPLETE (R157 step 6, R31 T6 and T7). -/
def execWakeComplete (s : State) : Host.Outcome State Fault Refusal :=
  answer (s.wakeAt 5 (fun s =>
    if s.anyQuarantine || s.unitRetired then s.startTrans 7 .degraded else s.startTrans 6 .run))

/-! ## Synthesizers (R95, R96) -/

def synthMask (c : Nat) : BitVec 4 := BitVec.ofNat 4 (2 ^ c)

/-- The lease of a synthesizer ends (R479, R484). -/
def State.synthLeaseEnds (s : State) (c : Nat) : State := s.leaveFree (· == Asker.synth c)

/-- The reference of a synthesizer in Hz (R94, R209): SYS_REFCLK, or a GCK ball; a reserved REF acts as 0. -/
def State.synthRef (s : State) (c : Nat) : Nat :=
  let ref := field (s.synthSetup c) 1 5
  if 1 ≤ ref ∧ ref ≤ 16 then Config.gckHz (ref - 1) else 25000000

/-- Output k's divider keeps its limits: off, or 4 to 255 with at most 300 MHz (R94). -/
def State.synthOutOk (s : State) (c k : Nat) : Bool :=
  let div := field (s.synthSetup c) 6 6 + 1
  let odiv := field (s.synthSetup c) (32 + 8 * k) 8
  odiv == 0 ||
    decide (4 ≤ odiv ∧ s.synthRef c * field (s.synthSetup c) 12 8 ≤ 300000000 * div * odiv)

/-- The setup keeps the limits of R94: outside them the synthesizer does not lock. -/
def State.synthSetupOk (s : State) (c : Nat) : Bool :=
  let ref := s.synthRef c
  let div := field (s.synthSetup c) 6 6 + 1
  let m := field (s.synthSetup c) 12 8
  decide (10000000 * div ≤ ref ∧ ref ≤ 50000000 * div ∧ 16 ≤ m ∧ m ≤ 240 ∧
    1200000000 * div ≤ ref * m ∧ ref * m ≤ 2400000000 * div) &&
    (List.range 4).all (fun k => s.synthOutOk c k)

/-- SYNTH_LOCK (R94 to R96): a setup outside its limits does not lock; a relock is logged. -/
def execSynthLock (c : SynthId) (s : State) : Host.Outcome State Fault Refusal :=
  answer (if s.mode.mode = .reset ∨ !s.synthEn c ∨ s.clocks.lock.getLsbD c ∨ !s.synthSetupOk c then s
    else
      let again := s.clocks.ran.getLsbD c
      let s := s.modClocks (fun k => { k with
        lock := k.lock ||| synthMask c, ran := k.ran ||| synthMask c
        waiting := k.waiting &&& ~~~synthMask c })
      let s := s.synthLeaseEnds c
      if again then s.event 0x0131 0 scopeG [(1, c)] else s)

/-- SYNTH_LOCK_WAIT_END (R95). -/
def execSynthLockWaitEnd (c : SynthId) (s : State) : Host.Outcome State Fault Refusal :=
  answer (if s.clocks.waiting.getLsbD c then
      let s := s.modClocks (fun k => { k with waiting := k.waiting &&& ~~~synthMask c })
      ((s.synthLeaseEnds c).event 0x0130 2 scopeG [(1, c), (1, 1)]).faultBit 8
    else s)

/-- SYNTH_LOSS_OF_LOCK (R96): its outputs go low after their high phase, and stay low. -/
def execSynthLossOfLock (c : SynthId) (s : State) : Host.Outcome State Fault Refusal :=
  answer (if s.clocks.lock.getLsbD c then
      let s := (s.synthLow c).modClocks (fun k => { k with
        lock := k.lock &&& ~~~synthMask c, loss := k.loss ||| synthMask c })
      (s.event 0x0130 2 scopeG [(1, c), (1, 0)]).faultBit 8
    else s)

/-! ## Global lines (R97, R182) -/

/-- LINE_INACTIVE (R97): no edge for 10 µs. -/
def execLineInactive (l : LineId) (s : State) : Host.Outcome State Fault Refusal :=
  answer (s.modClocks (fun c => { c with lineActive := c.lineActive &&& ~~~(BitVec.ofNat 16 (2 ^ l.val)) }))

/-- GLOBAL_LINE_RESTART (R182): edges again; registers of released islands on it leave reset. -/
def execGlobalLineRestart (l : LineId) (s : State) : Host.Outcome State Fault Refusal :=
  answer (if s.lineRuns l then
      let s := s.lineSeen l
      if s.clocksRun then
        overAll 48 (fun i s =>
          let keep := BitVec.ofNat 4 (maskOf 4 (fun j => s.iclkLine i j != l.val))
          s.modIsl i (fun x => { x with coldClocks := x.coldClocks &&& keep })) s
      else s
    else s)

end Sys2Proof.Machine
end

