-- ==== Sys2Proof/Machine/Banks.lean ====
section
/-! DEFINITION. Bank supplies (R219 to R221): the samples of a bank's VCCO and the retried enable. -/

namespace Sys2Proof.Machine

/-- A present bank has become absent: an enabled one is disabled and the loss logged (R219, R220). -/
def State.bankLost (s : State) (b cls : Nat) : State :=
  let was := (s.bank b).enabled
  let s := s.modBank b (fun x => { x with
    present := false, enabled := false, inRow := 0, outRow := 0, asking := false, retry := false })
  let s := s.leaveWithdraw (· == Asker.bank b)
  if was then
    let s := (s.refreshPort (2 * b)).refreshPort (2 * b + 1)
    (s.event 0x0140 2 (scopeO (s.islandOwner b)) [(1, b), (1, cls)]).faultBit 7
  else s

/-- A bank has become present: where ferries execute it asks for its leave (R220). -/
def State.bankFound (s : State) (b : Nat) : State :=
  let s := s.modBank b (fun x => { x with present := true, inRow := 0, outRow := 0 })
  if s.mode.mode.executes then s.askBank b else s

/-- The class of a bank's supply is seen: it is valid from 1.0 V until it falls below 0.95 V (R218, R528). -/
def State.seeSupply (s : State) (b cls : Nat) : State :=
  s.modBank b (fun x => { x with cls := cls, valid := cls != 0 || (x.valid && Config.vccoHolds s.coreNs b) })

/-- A sample of a bank's supply: present after 8 samples inside the window, absent after 4 outside
it (R219). An unused bank is never present: one that was present before its BANK_VCCO changed is disabled
without an event, and its samples are counted anew. A sample is of one class: where the windows of two overlap, 1.62 V to
1.65 V, it is inside the declared one only if that is the class it brings (DESIGN CHOICE, log 57). -/
def State.sampleBank (s : State) (b cls : Nat) : State :=
  let s := s.seeSupply b cls
  if !s.bankDeclared b then s.restartBank b
  else
    let x := s.bank b
    let inside := cls == s.bankVcco b
    if x.present then
      if inside then s.modBank b (fun x => { x with outRow := 0 })
      else if 3 ≤ x.outRow then s.bankLost b cls
      else s.modBank b (fun x => { x with outRow := x.outRow + 1 })
    else
      if !inside then s.modBank b (fun x => { x with inRow := 0 })
      else if 7 ≤ x.inRow then s.bankFound b
      else s.modBank b (fun x => { x with inRow := x.inRow + 1 })

/-- VCCO_SAMPLE (R219, R220). In RESET the supply's class alone is seen (R218). -/
def execVccoSample (b : IslandId) (cls : Fin 7) (s : State) : Host.Outcome State Fault Refusal :=
  answer (if s.mode.mode = .reset then s.seeSupply b cls else s.sampleBank b cls)

/-- BANK_ENABLE_RETRY (R220): a refused bank-enable leave is asked for again while the bank stays
present. -/
def execBankEnableRetry (b : IslandId) (s : State) : Host.Outcome State Fault Refusal :=
  answer (if (s.bank b).retry && s.bankPresent b && s.mode.mode.executes then s.askBank b else s)

end Sys2Proof.Machine
end

