-- ==== Sys2Proof/Machine/Boot.lean ====
section
/-! DEFINITION. Loading from the flash (R139 to R145) and the chain's transmitters (R147 to R150): the
choice of a copy, the order of its sections, and what ends an attempt. -/

namespace Sys2Proof.Machine

/-! ## Downstream frames (R148 to R150) -/

/-- A downstream frame, with the CREDIT that a device behind another returns for what it forwards. A
RESTART returns none, and counts the link anew (R153). -/
def State.sendDown (s : State) (type idx : Nat) (words : List Word) : State :=
  let head := reg32 [0xA5, place type 8 4, place idx 12 3, place words.length 16 8, place s.chain.seqDown 24 8]
  let crc := crc32c (wordsBytes (head :: words))
  let s := s.emit (.chain true (head :: words ++ [crc]))
  if type = 5 then s.modChain (fun c => { c with credits := 0, seqDown := 0, rxDown := 0 })
  else
    let s := s.modChain (fun c => { c with credits := c.credits - 1, seqDown := (c.seqDown + 1) % 256 })
    if s.mode.chainFirst then s else s.sendUp 8 []

/-- Frames that wait go out for as long as there are credits. -/
def State.pumpChain : Nat → State → State
  | 0, s => s
  | n + 1, s =>
    match s.chain.txq with
    | [] => s
    | (type, idx, words) :: rest =>
      if s.chain.credits = 0 then s
      else State.pumpChain n ((s.modChain (fun c => { c with txq := rest })).sendDown type idx words)

def State.pump (s : State) : State := State.pumpChain s.chain.txq.length s

/-- A frame for the next device. -/
def State.queueDown (s : State) (type idx : Nat) (words : List Word) : State :=
  s.modChain (fun c => { c with txq := c.txq ++ [(type, idx, words)] })

/-- A list in pieces of n. -/
def piecesOf (n : Nat) : Nat → List Word → List (List Word)
  | 0, _ => []
  | fuel + 1, ws => if ws = [] then [] else ws.take n :: piecesOf n fuel (ws.drop n)

/-- A section of the copy being tried, announced and forwarded (R149). -/
def State.queueSection (s : State) (k : Nat) : State :=
  if !s.chain.downPresent then s
  else
    let c := s.ldr.trying
    let e := s.flash.entry c k
    let s := s.queueDown 2 0 (bytesWords (s.flash.entryBytes c k))
    let words := bytesWords (s.flash.bytes (copyBase c + e.off) e.slen)
    (overList (piecesOf 64 words.length words) (fun w s => s.queueDown 3 0 w) s).pump

/-- Everything sent down has been credited (R152). -/
def Chain.credited (c : Chain) : Bool := c.txq.isEmpty && (!c.downPresent || decide (2 ≤ c.credits))

/-- VERIFIED has come from every device behind this one (R152). -/
def State.restVerified (s : State) : Bool :=
  (List.range 8).all (fun d =>
    !(decide (s.ldr.chainIndex < d ∧ d < s.ldr.devices)) || s.chain.verifiedSet.getLsbD d)

/-- The VERIFIED condition of R152. -/
def State.verifiedHolds (s : State) : Bool := s.ldr.ownDone && s.chain.credited && s.restVerified

/-! ## The golden table (R145) -/

/-- The records of a section, packet by packet: the address reached, FAR's dense index, the records
left in the packet, and the entries found. -/
def Flash.goldenScan (f : Flash) (base stop idx : Nat) :
    Nat → Nat → Option Nat → Nat → Tab (Option Golden) → Tab (Option Golden)
  | 0, _, _, _, t => t
  | fuel + 1, a, far, left, t =>
    if left ≠ 0 then
      match far with
      | none => t
      | some n =>
        let t := match frameIsland n with
          | some i =>
            if (tabGet (fun _ => none) t (8 * i + idx)).isSome then t
            else
              let e : Golden := { off := a - base, faddr := faddrOf n, words := 65 * left }
              tabPut t (8 * i + idx) (some e)
          | none => t
        Flash.goldenScan f base stop idx fuel (a + 260) (if n = 8191 then none else some (n + 1)) (left - 1) t
    else if stop < a + 4 then t
    else
      let h := (f.word a).toNat
      let n := field h 0 16
      match field h 16 8 with
      | 0x06 => Flash.goldenScan f base stop idx fuel (a + 8) (denseOf (f.num (a + 4) 2)) 0 t
      | 0x07 => Flash.goldenScan f base stop idx fuel (a + 4) far (n / 65) t
      | 0x0F => t
      | _ => Flash.goldenScan f base stop idx fuel (a + 4 + 4 * n) far 0 t

/-- The entries of a personality section join the table. -/
def State.noteGolden (s : State) (k : Nat) : State :=
  let c := s.ldr.trying
  let e := s.flash.personality c k
  let a := copyBase c + e.off
  s.modLdr (fun l => { l with
    golden := s.flash.goldenScan (copyBase c) (a + e.slen) k e.slen (a + 4) none 0 l.golden })

/-! ## Attempts (R140, R144) -/

/-- FORCE_BOOT may be used now (R143). -/
def State.forceBootNow (s : State) : Bool :=
  s.ldr.forceBoot && s.mode.benchEn && !s.locked .benchLock

/-- BEGIN for the next device (R149). -/
def State.beginWords (s : State) (c a : Nat) : List Word :=
  s.flash.headerWords c ++
    [reg32 [place (s.flash.sectionsOf c - 2) 0 4, place c 4 2, place a 6 2, flag s.forceBootNow 8]]

/-- An attempt with a copy starts: its firmware is read and forwarded. A downstream device that has
sent a CREDIT is present (R150). -/
def State.startStream (s : State) (c a : Nat) : State :=
  let s := s.modLdr (fun l => { l with
    trying := c, attempt := a, phase := .firmware, devices := s.flash.sectionsOf c - 2
    override := s.flash.refusal c != 0 })
  let s := s.modChain (fun k => { k with downPresent := k.downPresent || decide (0 < k.credits) })
  if s.chain.downPresent then (s.queueDown 1 1 (s.beginWords c a)).queueSection 0 else s

/-- The copies are used up: INCOMPATIBLE where some copy verified and none was compatible, else
NO_COPY (R140). -/
def State.selectionEnds (s : State) : State :=
  let l := s.ldr
  if (l.verifiedA || l.verifiedB) ∧ l.compatSeen = 0 then
    let (kil, pml, why) := l.incompat
    (s.event 0x0203 3 scopeG
      [(1, flag l.verifiedA 0 + flag l.verifiedB 1), (1, 0), (2, kil), (2, pml), (1, why)]).holdCause 2
  else s.holdCause 1

/-- The copy being tried or verified is passed over (R140). -/
def State.nextCopy (s : State) : State :=
  let s := s.modLdr (fun l => { l with left := l.left.drop 1, phase := .verify })
  if s.ldr.left = [] then s.selectionEnds else s

/-- A copy that does not verify, or is not compatible, is passed over before any attempt: the move to the
other one is logged; its attempt and load error, which no rule gives, are free (log 14). -/
def State.passOver (s : State) (c : Nat) : State :=
  if s.ldr.left.drop 1 = [] then s.nextCopy
  else
    let (n, s) := s.draw
    let v := Config.freeValue n
    (s.event 0x0202 1 scopeG [(1, c), (1, field v 0 8), (1, field v 8 8), (1, 0)]).nextCopy

/-- The load of the device's own section ends TRUNCATED (R130). -/
def State.stopOwn (s : State) : State :=
  if s.loadOn .flash || s.loadOn .chain then s.stopLoad 0x12 else s

/-- Configuration memory is cleared as at T3, and the keeper runs its ROM (R140, R153). That the keeper and the
ports of the first device go back to their ROM too is DEDUCED from R144 and R153 (log 55). No copy is in use until
one has loaded (R140). -/
def State.clearAgain (s : State) : State :=
  let s := s.stopOwn.clearFrames
  let s := s.modLdr (fun l => { l with
    golden := [], ownDone := false, copy := 0, containerSeq := 0, override := false, keeperUp := false, microUp := false, kil := 0, pml := 0, pmlRefused := false })
  let s := s.modClocks (fun k => { k with lock := 0, ran := 0, waiting := 0 })
  let s := s.leaveFree (fun w => match w with | .synth _ => true | _ => false)
  s.modChain (fun c => { c with verifiedSet := 0 })

/-- A stream has failed (R140): the load error, the chain index of the failing device, whether a
chain framing error is the cause, and whether a downstream device is incompatible. -/
def State.attemptFails (s : State) (err idx : Nat) (link incompat : Bool) : State :=
  let c := s.ldr.trying
  let a := s.ldr.attempt
  let levels := (s.flash.kilOf c, s.flash.pmlOf c, 4)
  let s := s.clearAgain
  let s := s.modLdr (fun l => { l with
    fallback := true
    compatSeen := if incompat then l.compatSeen - 1 else l.compatSeen
    incompat := if incompat then levels else l.incompat })
  let s := s.modChain (fun k => { k with txq := if k.downPresent then [(5, 0, [])] else [] })
  let s := s.pump
  let fallback := s.event 0x0202 1 scopeG [(1, c), (1, a), (1, err), (1, idx)]
  if link ∧ a = 1 then fallback.startStream c 2
  else if s.ldr.left.drop 1 = [] then s.nextCopy
  else fallback.nextCopy

/-- The copy that has loaded becomes the copy in use (R140). -/
def State.settleCopy (s : State) : State :=
  let c := s.ldr.trying
  if s.mode.mode = .load ∧ s.mode.chainFirst ∧ s.ldr.phase = .done ∧ s.ldr.copy = 0 ∧ s.verifiedHolds then
    let s := s.modLdr (fun l => { l with copy := c, containerSeq := s.flash.seqOf c })
    s.event 0x0201 0 scopeG
      [(1, c), (1, s.ldr.attempt), (2, 0), (4, s.flash.seqOf c), (2, s.ldr.kil), (2, s.ldr.pml)]
  else s

/-- The own section is complete: the others are forwarded, then STREAM_END (R144, step 5). -/
def State.forwardRest (s : State) : State :=
  let s := (s.modLdr (fun l => { l with phase := .done })).noteGolden 0
  let s :=
    if s.chain.downPresent then
      let s := overAll (s.ldr.devices - 1) (fun k s => (s.queueSection (3 + k)).noteGolden (k + 1)) s
      (s.queueDown 4 0 []).pump
    else s
  s.settleCopy

/-! ## The rows of the selection -/

/-- The fastest read mode that the tables describe (R139), as READ_MODE has it. -/
def readModeOf (modes : BitVec 4) : Nat :=
  if modes.getLsbD 3 then 3 else if modes.getLsbD 2 then 2 else if modes.getLsbD 1 then 1 else 0

/-- FLASH_SFDP_DISCOVERY (R139, R140). -/
def execFlashSfdpDiscovery (sigOk : Bool) (density : Nat) (erase64 : Bool) (modes : BitVec 4)
    (suspends : Bool) (s : State) : Host.Outcome State Fault Refusal :=
  answer (if s.mode.mode ≠ .load ∨ s.ldr.phase ≠ .sfdp then s
    else
      let reason := if !sigOk then 1 else if density < 0x2000000 then 2 else if !erase64 then 3 else 0
      if reason ≠ 0 then
        (s.event 0x0205 3 scopeG [(1, reason), (3, 0), (4, density)]).holdCause 1
      else
        let s := s.modFlash (fun f => { f with readMode := readModeOf modes, found := true, suspends := suspends })
        let s := s.modLdr (fun l => { l with phase := .verify, left := s.flash.copyOrder })
        if s.ldr.left = [] then s.selectionEnds else s)

/-- CONTAINER_VERIFY (R135, R140, R141). -/
def execContainerVerify (s : State) : Host.Outcome State Fault Refusal :=
  answer (match s.ldr.left with
    | c :: _ =>
      if s.mode.mode ≠ .load ∨ s.ldr.phase ≠ .verify then s
      else if !s.flash.verify c then s.passOver c
      else
        let why := s.flash.refusal c
        let s := s.modLdr (fun l => { l with
          verifiedA := l.verifiedA || c == 1
          verifiedB := l.verifiedB || c == 2
          incompat := if why = 0 then l.incompat else (s.flash.kilOf c, s.flash.pmlOf c, why) })
        if why ≠ 0 ∧ !s.forceBootNow then s.passOver c
        else (s.modLdr (fun l => { l with compatSeen := l.compatSeen + 1 })).startStream c 1
    | [] => s)

/-- A firmware or microcode section has been read and forwarded whole: its SCRC is checked again. A failure is
reported as TRUNCATED (DESIGN CHOICE, log 55). -/
def State.sectionRead (s : State) (k : Nat) (next : State → State) : State :=
  let c := s.ldr.trying
  let e := s.flash.entry c k
  if !s.chain.txq.isEmpty then s
  else if crc32c (s.flash.bytes (copyBase c + e.off) e.slen) ≠ e.scrc then s.attemptFails 0x12 0 false false
  else next s

/-- FIRMWARE_SECTION_LOADED (R144, step 2). -/
def execFirmwareSectionLoaded (s : State) : Host.Outcome State Fault Refusal :=
  answer (if s.mode.mode ≠ .load ∨ s.ldr.phase ≠ .firmware then s
    else s.sectionRead 0 (fun s =>
      (s.modLdr (fun l => { l with
        kil := s.flash.kilOf l.trying, keeperUp := true, phase := .microcode })).queueSection 1))

/-- MICROCODE_SECTION_LOADED (R144, step 3). -/
def execMicrocodeSectionLoaded (s : State) : Host.Outcome State Fault Refusal :=
  answer (if s.mode.mode ≠ .load ∨ s.ldr.phase ≠ .microcode then s
    else s.sectionRead 1 (fun s =>
      s.modLdr (fun l => { l with
        pml := s.flash.pmlOf l.trying
        pmlRefused := pmlOutside (s.flash.stampOf l.trying) (s.flash.pmlOf l.trying), microUp := true, phase := .ownSection })))

/-! ## The own section (R144, step 4) -/

/-- Where the words of the own section stand: the next one's number. -/
def State.ownPos (s : State) : Nat :=
  match s.ldr.load with
  | some l => if l.path = Path.flash then l.off else 0
  | none => 0

/-- What a word of the own section leaves: the load goes on, has completed, or has ended with an
error; a section that is used up ends it TRUNCATED (R130). -/
def State.afterOwn (s : State) (slen : Nat) : State :=
  let s := if s.loadOn .flash && 4 * s.ownPos == slen then s.stopLoad 0x12 else s
  if s.loadOn .flash then s
  else if s.ldr.ownDone then s.forwardRest
  else s.attemptFails s.ldr.lastError 0 false false

/-- A word of the own section: the one that stands next in the flash. -/
def State.flashWord (s : State) (w : Word) : State :=
  let e := s.flash.personality s.ldr.trying 0
  if s.mode.mode ≠ .load ∨ s.ldr.phase ≠ .ownSection ∨
      w ≠ s.flash.word (copyBase s.ldr.trying + e.off + 4 * s.ownPos) then s
  else
    (if s.loadOn .flash then s.feedWord w else s.openLoad .flash w).afterOwn e.slen

end Sys2Proof.Machine
end

