-- ==== Sys2Proof/Machine/Chain.lean ====
section
/-! DEFINITION. The Gojan chain (R146 to R155): receiving its frames, a device behind another, STATUS,
RESTART, and the release of DONE. -/

namespace Sys2Proof.Machine

/-! ## Framing (R148) -/

/-- WORDS that R149 gives a type. -/
def chainWordsOk (type n : Nat) : Bool :=
  match type with
  | 0x1 => n == 17
  | 0x2 => n == 8
  | 0x3 => decide (1 ≤ n ∧ n ≤ 64)
  | 0x6 => n == 66
  | 0x9 | 0xA => n == 1
  | _ => n == 0

/-- The types a direction carries (R149). -/
def chainTypeOk (down : Bool) (type : Nat) : Bool :=
  if down then 1 ≤ type && type ≤ 6 else 8 ≤ type && type ≤ 0xA

def frameType (frame : List Word) : Nat := field (wordAt frame 0) 8 4
def frameIndex (frame : List Word) : Nat := field (wordAt frame 0) 12 3
def framePayload (frame : List Word) : List Word := (frame.drop 1).take (frame.length - 2)

/-- A framing error's kind, as CHAIN_ERROR has it: SOF, CRC, SEQ, TYPE, WORDS, overflow, looked at in
this order; none for a good frame. -/
def frameError (down : Bool) (seq : Nat) (frame : List Word) (overflow : Bool) : Option Nat :=
  let h := wordAt frame 0
  let body := frame.take (frame.length - 1)
  if field h 0 8 ≠ 0xA5 then some 1
  else if frame.length < 2 ∨ crc32c (wordsBytes body) ≠ frame.getD (frame.length - 1) 0 then some 2
  else if field h 24 8 ≠ seq then some 3
  else if !chainTypeOk down (field h 8 4) then some 4
  else if !chainWordsOk (field h 8 4) (field h 16 8) ∨ frame.length ≠ field h 16 8 + 2 then some 5
  else if overflow then some 6
  else none

/-! ## STATUS (R152) -/

/-- The device's own STATUS: 1 VERIFIED, 2 FAILED, 3 INCOMPATIBLE, 4 NO_SECTION. -/
def State.sendStatus (s : State) (state err : Nat) (link : Bool) : State :=
  s.sendUp 9 [reg32 [place s.ldr.chainIndex 0 3, place state 4 4, place err 8 5, flag link 16]]

/-- A STATUS after which the device stops forwarding and keeps DONE low; the buffers of the frames it
no longer forwards empty (R150). -/
def State.reportAndStop (s : State) (state err : Nat) (link : Bool) : State :=
  if s.chain.stopped then s
  else
    let held := s.chain.txq
    let s := (s.sendStatus state err link).modChain (fun c => { c with stopped := true, txq := [] })
    overList held (fun _ s => s.sendUp 8 []) s

/-- The device behind another reports VERIFIED once its condition holds. -/
def State.settleVerified (s : State) : State :=
  if s.mode.mode = .load ∧ !s.mode.chainFirst ∧ !s.chain.stopped ∧ !s.chain.statusSent ∧
      s.chain.streamEnd ∧ s.verifiedHolds then
    (s.sendStatus 1 0 false).modChain (fun c => { c with statusSent := true })
  else s

/-- The first device is in the middle of an attempt. -/
def State.attempting (s : State) : Bool :=
  s.mode.mode == .load && s.mode.chainFirst &&
    (match s.ldr.phase with | .firmware | .microcode | .ownSection | .done => true | _ => false)

/-- A repair that waits for REPAIR_DATA ends with NO_ANSWER (R194, R195). -/
def State.noAnswer (s : State) : State :=
  match s.tide.now with
  | some r =>
    match r.job, r.phase with
    | .island i, .answer => (s.modTide (fun t => { t with now := none })).repairFailed i r.frame 5
    | _, _ => s
  | none => s

/-- A framing error (R148): side 0 upstream, 1 downstream. Outside LOAD one on either link ends a repair that waits
for its answer (DESIGN CHOICE, log 61). -/
def State.chainError (s : State) (side kind type : Nat) : State :=
  let s := s.event 0x0206 2 scopeG [(1, s.ldr.chainIndex), (1, side), (1, kind), (1, type)]
  if s.attempting then s.attemptFails 0x12 0 true false
  else if s.mode.mode = .load ∧ !s.mode.chainFirst then s.stopOwn.reportAndStop 2 0x12 true
  else s.noAnswer

/-! ## Receiving -/

/-- A framing error of a received frame is logged and acted on; an overflow has found X16 full (R148, R24). -/
def State.badFrame (s : State) (side kind : Nat) (frame : List Word) : State :=
  (if kind = 6 then s.noteFull 16 else s).chainError side kind (frameType frame)

/-- A downstream frame reaches a device behind another: `f` is what a good frame of the type does with
its payload. -/
def State.fromAbove (s : State) (type : Nat) (frame : List Word) (overflow : Bool)
    (f : List Word → State → State) : State :=
  if s.mode.mode = .reset ∨ s.mode.chainFirst then s
  else
    let next := s.modChain (fun c => { c with rxUp := (c.rxUp + 1) % 256 })
    match frameError true s.chain.rxUp frame overflow with
    | some kind =>
      let s := next.badFrame 0 kind frame
      -- the buffer of the bad frame empties; one that overflowed X16 had none (R150)
      if kind = 6 then s else s.sendUp 8 []
    | none => if frameType frame ≠ type then s else f (framePayload frame) next

/-- An upstream frame arrives from the next device. -/
def State.fromBelow (s : State) (type : Nat) (frame : List Word) (overflow : Bool)
    (f : List Word → State → State) : State :=
  if s.mode.mode = .reset then s
  else
    let next := s.modChain (fun c => { c with rxDown := (c.rxDown + 1) % 256 })
    match frameError false s.chain.rxDown frame overflow with
    | some kind => next.badFrame 1 kind frame
    | none => if frameType frame ≠ type then s else f (framePayload frame) next

/-- A buffer has emptied (R150). -/
def State.giveCredit (s : State) : State := s.sendUp 8 []

/-- A frame for the next device, which is credited when it leaves; without one it is credited at
once. -/
def State.forward (s : State) (type idx : Nat) (words : List Word) : State :=
  if s.chain.downPresent ∧ s.ldr.chainIndex < 7 then (s.queueDown type idx words).pump else s.giveCredit

/-- A frame of the stream in LOAD: once the device has stopped, frames are discarded. -/
def State.inStream (s : State) (f : State → State) : State :=
  if s.mode.mode ≠ .load then s.giveCredit
  else if s.chain.stopped then s.giveCredit
  else f s

/-- BEGIN (R149, R151). -/
def State.onBegin (s : State) (index : Nat) (p : List Word) : State :=
  if s.chain.begun then s.giveCredit
  else
    let v := wordAt p 16
    let s := s.modLdr (fun l => { l with chainIndex := index, devices := field v 0 4 })
    let s := s.modChain (fun c => { c with
      begun := true, stamp := (p.drop 4).take 4, copy := field v 4 2, attempt := field v 6 2
      forced := bitAt v 8, downPresent := c.downPresent || decide (0 < c.credits) })
    s.forward 1 (index + 1) p

/-- The bench override that a FORCED stream allows here (R143). -/
def State.chainOverride (s : State) : Bool :=
  s.chain.forced && s.mode.benchEn && !s.locked .benchLock

/-- SECTION (R149, R151): with the type 2 entry the device checks R141. -/
def State.onSection (s : State) (p : List Word) : State :=
  let e := sectionOf (wordsBytes p)
  let s := s.modChain (fun c => { c with
    section_ := some (e.type, e.index, e.level, e.slen / 4, e.scrc, crcInit)
    fwLevel := if e.type = 1 then e.level else c.fwLevel
    steppings := if e.type = 1 then e.steppings else c.steppings })
  if e.type = 3 ∧ e.index = s.ldr.chainIndex then (s.modChain (fun c => { c with ownSeen := true })).giveCredit
  else if e.type = 2 ∧ compatReason s.chain.stamp s.chain.fwLevel e.level s.chain.steppings ≠ 0 then
    if s.chainOverride then (s.modLdr (fun l => { l with override := true })).forward 2 0 p
    else (s.giveCredit).reportAndStop 3 0 false
  else s.forward 2 0 p

/-- Words of the own section enter the frames (R151). -/
def State.ownWords (s : State) (words : List Word) : State :=
  overList words (fun w s =>
    if s.chain.stopped || s.ldr.ownDone then s
    else
      let s := if s.loadOn .chain then s.feedWord w else s.openLoad .chain w
      if s.loadOn .chain || s.ldr.ownDone then s else s.reportAndStop 2 s.ldr.lastError false) s

/-- A section has been received whole: the own one must have ended, the others start what they hold. -/
def State.sectionEnds (s : State) (type index level : Nat) (good : Bool) : State :=
  if type = 3 then
    if index = s.ldr.chainIndex ∧ s.loadOn .chain then (s.stopLoad 0x12).reportAndStop 2 0x12 false else s
  else if !good then s.reportAndStop 2 0x12 false
  else if type = 1 then s.modLdr (fun l => { l with kil := level, keeperUp := true })
  else s.modLdr (fun l => { l with
    pml := level, pmlRefused := pmlOutside s.chain.stamp level, microUp := true })

/-- DATA (R151): consumed or forwarded. -/
def State.onData (s : State) (p : List Word) : State :=
  match s.chain.section_ with
  | none => s.forward 3 0 p
  | some (type, index, level, left, scrc, crc) =>
    let crc := crcMore crc (wordsBytes p)
    let rest := left - p.length
    let s := s.modChain (fun c => { c with section_ := some (type, index, level, rest, scrc, crc) })
    let s := if type = 3 ∧ index = s.ldr.chainIndex then (s.ownWords p).giveCredit else s.forward 3 0 p
    let s := if rest = 0 then s.sectionEnds type index level (crcFinal crc == scrc) else s
    s.settleVerified

/-- STREAM_END (R151). One that comes before the own section's length is used up leaves that load open, until the
chain timeout's T5 ends it TRUNCATED; a new SECTION before then does the same (DESIGN CHOICE, log 57: R130 names the
section's length alone, R152 speaks of a load that has ended). -/
def State.onStreamEnd (s : State) : State :=
  let s := s.modChain (fun c => { c with streamEnd := true })
  let s := s.modLdr (fun l => { l with noSection := !s.chain.ownSeen })
  let s := s.forward 4 0 []
  (if s.chain.ownSeen then s else s.reportAndStop 4 0 false).settleVerified

/-- RESTART (R153): it follows a failed stream, so FALLBACK reads 1 from here on (R160). -/
def State.onRestart (s : State) : State :=
  let s := s.clearAgain.modLdr (fun l => { l with chainIndex := 0, devices := 0, fallback := true })
  let s := s.modChain (fun c =>
    let down := c.downPresent || decide (0 < c.credits)
    { downPresent := down, credits := c.credits, seqDown := c.seqDown, rxDown := c.rxDown
      txq := if down then [(5, 0, [])] else [] })
  s.giveCredit.giveCredit.pump

/-! ## Rows -/

/-- BEGIN (R151). -/
def execChainBegin (frame : List Word) (overflow : Bool) (s : State) : Host.Outcome State Fault Refusal :=
  answer (s.fromAbove 1 frame overflow (fun p s => s.inStream (fun s => s.onBegin (frameIndex frame) p)))

/-- SECTION (R149). -/
def execChainSection (frame : List Word) (overflow : Bool) (s : State) : Host.Outcome State Fault Refusal :=
  answer (s.fromAbove 2 frame overflow (fun p s => s.inStream (fun s => s.onSection p)))

/-- DATA (R151). -/
def execChainData (frame : List Word) (overflow : Bool) (s : State) : Host.Outcome State Fault Refusal :=
  answer (s.fromAbove 3 frame overflow (fun p s => s.inStream (fun s => s.onData p)))

/-- STREAM_END (R151). -/
def execChainStreamEnd (frame : List Word) (overflow : Bool) (s : State) :
    Host.Outcome State Fault Refusal :=
  answer (s.fromAbove 4 frame overflow (fun _ s => s.inStream State.onStreamEnd))

/-- RESTART (R153). In a mode other than LOAD, HOLD among them, it does nothing: it is not passed on, resets no SEQ
counter and returns no credit (DESIGN CHOICE, log 57). -/
def execChainRestart (frame : List Word) (overflow : Bool) (s : State) :
    Host.Outcome State Fault Refusal :=
  answer (s.fromAbove 5 frame overflow (fun _ s => if s.mode.mode = .load then s.onRestart else s))

/-- CREDIT (R150). -/
def execChainCredit (frame : List Word) (overflow : Bool) (s : State) : Host.Outcome State Fault Refusal :=
  answer (s.fromBelow 8 frame overflow (fun _ s =>
    (s.modChain (fun c => { c with credits := c.credits + 1 })).pump.settleCopy.settleVerified))

/-- A STATUS at the first device (R152). -/
def State.statusAtFirst (s : State) (device state err : Nat) (link : Bool) : State :=
  if !s.attempting then s
  else match state with
    | 1 => (s.modChain (fun c => { c with
        verifiedSet := c.verifiedSet ||| BitVec.ofNat 8 (2 ^ device) })).settleCopy
    | 2 => s.attemptFails err device link false
    | 3 => s.attemptFails err device link true
    | 4 => s.attemptFails err device link false
    | _ => s

/-- STATUS (R152). -/
def execChainStatus (frame : List Word) (overflow : Bool) (s : State) : Host.Outcome State Fault Refusal :=
  answer (s.fromBelow 9 frame overflow (fun p s =>
    let v := wordAt p 0
    let device := field v 0 3
    if s.mode.chainFirst then s.statusAtFirst device (field v 4 4) (field v 8 5) (bitAt v 16)
    else
      let s := s.sendUp 9 p
      if field v 4 4 = 1 then
        (s.modChain (fun c => { c with
          verifiedSet := c.verifiedSet ||| BitVec.ofNat 8 (2 ^ device) })).settleVerified
      else s))

/-- DONE is released (R155): the own section complete, no synthesizer waited for, and the VERIFIED
condition; in the first device that makes it the last. A device that has reported a failure keeps it low (R152). -/
def State.doneReady (s : State) : Bool :=
  s.mode.mode == .load && s.mode.trans.isNone && s.mode.doneLow && s.ldr.ownDone && !s.chain.stopped &&
    s.clocks.waiting == 0 && (if s.mode.chainFirst then s.ldr.copy != 0 else s.chain.statusSent)

/-- DONE_RELEASE (R155). -/
def execDoneRelease (s : State) : Host.Outcome State Fault Refusal :=
  answer (if s.doneReady then s.modMode (fun m => { m with doneLow := false, doneReleased := true }) else s)

/-- CHAIN_TIMEOUT (R156): the count has expired with DONE still low, by this device or another. Once DONE
has risen, T4 is in progress and there is no timeout. -/
def execChainTimeout (s : State) : Host.Outcome State Fault Refusal :=
  answer (if s.mode.mode = .load ∧ s.mode.trans = none then s.holdCause (if s.ldr.noSection then 3 else 4) else s)

end Sys2Proof.Machine
end

