-- ==== Sys2Proof/Machine/Wire.lean ====
section
/-! DEFINITION. What a port decodes from its signals (R449 to R460, R469): the frames of CAN, SENT and PSI5, and
the check codes of SENT and PSI5. What the standards that R451 and R457 name say is PRESUMED (log 56). -/

namespace Sys2Proof.Machine

/-! ## Check codes -/

/-- Bits of a number from its highest of `n` on. -/
def bitsDown (n v : Nat) : List Bool := (List.range n).map (fun k => bitAt v (n - 1 - k))

/-- The number of bits from the highest on. -/
def bitsNat (l : List Bool) : Nat := l.foldl (fun a b => 2 * a + bnat b) 0

/-- A check register of `n` bits with a polynomial, the message shifted through it and then as many zeros as
`tail` says. -/
def wireCheck (n poly seed : Nat) (message : List Bool) (tail : Nat) : Nat :=
  (message ++ List.replicate tail false).foldl (fun c b =>
    (2 * c % 2 ^ n + bnat b) ^^^ (if bitAt c (n - 1) then poly else 0)) seed

/-! ## CAN (R449) -/

/-- Data bytes of a DLC (ISO 11898-1). -/
def dlcBytes (dlc : Nat) (fd : Bool) : Nat :=
  if dlc ≤ 8 then dlc
  else if !fd then 8
  else match dlc with
    | 9 => 12 | 10 => 16 | 11 => 20 | 12 => 24 | 13 => 32 | 14 => 48
    | _ => 64

/-- The receive payload of a CAN frame. A base identifier has 11 bits, and CAN FD has no remote frames. -/
def canPayload (c : CanFrame) : List Byte :=
  let remote := c.rtr && !c.fdf
  let n := if remote then 0 else dlcBytes (c.dlc % 16) c.fdf
  leBytes 4 (c.id % (if c.ide then 2 ^ 29 else 2 ^ 11) + flag c.ide 29 + flag remote 30) ++
    leBytes 4 (c.dlc % 16 + flag c.fdf 4 + flag (c.brs && c.fdf) 5 + flag (c.esi && c.fdf) 6) ++
    (c.data ++ List.replicate n 0).take n

/-! ## SENT (R452 to R455) -/

/-- Ticks of a pulse, to the nearest, against a calibration pulse of 56. -/
def sentTicks (calibration pulse : Nat) : Nat := (112 * pulse + calibration) / (2 * calibration)

/-- The CRC of data nibbles: as SAE J2716 recommends, or its legacy form. -/
def sentCrc (legacy : Bool) (nibbles : List Nat) : Nat :=
  wireCheck 4 0xD 5 (nibbles.flatMap (bitsDown 4)) (if legacy then 0 else 4)

/-- A calibration pulse is within 20 % of 56 nominal ticks, and within 1.5625 % of the one before. -/
def State.sentCalibrated (s : State) (p calibration : Nat) : Bool :=
  let nominal := 5600 * s.setup p 1 0 10
  let off := fun a b : Nat => (a - b) + (b - a)
  decide (0 < calibration ∧ 5 * off calibration nominal ≤ nominal) &&
    (s.port p).lastCal.all (fun was => decide (64 * off calibration was ≤ was))

/-- The nibbles of a frame: status, data, CRC; none where the frame is refused. A pause pulse is no nibble. -/
def State.sentNibbles (s : State) (p calibration : Nat) (pulses : List Nat) : Option (List Nat) :=
  let n := s.setup p 1 10 3
  let ticks := (pulses.take (n + 2)).map (sentTicks calibration)
  let nibbles := ticks.map (· - 12)
  if s.sentCalibrated p calibration && pulses.length == n + 2 + s.setup p 1 13 1 &&
      ticks.all (fun t => decide (12 ≤ t ∧ t ≤ 27)) &&
      sentCrc (s.setup p 1 14 1 == 1) ((nibbles.drop 1).take n) == nibbles.getD (n + 1) 0
  then some nibbles else none

/-- The measured tick in ns, to the nearest. -/
def sentTickNs (calibration : Nat) : Nat := (calibration + 28) / 56

/-- The payload of a fast-channel frame. -/
def sentFast (calibration : Nat) (nibbles : List Nat) : List Byte :=
  let n := nibbles.length - 2
  leBytes 4 (nibbles.getD 0 0 + place n 4 3 + place (nibbles.getD (n + 1) 0) 8 4) ++
    leBytes 4 (((List.range n).map (fun k => place (nibbles.getD (k + 1) 0) (4 * k) 4)).sum) ++
    leBytes 4 (sentTickNs calibration % 2 ^ 17)

/-- Frames of a serial message: 16 for SERIAL short, 18 for enhanced; the reserved encoding acts as none. -/
def serialFrames (code : Nat) : Nat := match code with | 1 => 16 | 2 => 18 | _ => 0

/-- The frames are those of one serial message, by bit 3 of their status nibbles. -/
def serialWhole (code : Nat) (l : List SentBits) : Bool :=
  let b := l.map SentBits.b3
  match code with
  | 1 => l.length == 16 && b.getD 0 false && (b.drop 1).all (!·)
  | 2 => l.length == 18 && (b.take 6).all (·) && !b.getD 6 false && !b.getD 12 false && !b.getD 17 false
  | _ => false

/-- The payload of a serial message, none where its CRC fails. -/
def serialPayload (code : Nat) (l : List SentBits) : Option (List Byte) :=
  let b2 := l.map SentBits.b2
  let b3 := l.map SentBits.b3
  let at_ := fun (b : List Bool) lo n => bitsNat ((b.drop lo).take n)
  let message := fun (id data : Nat) (enhanced config : Bool) =>
    some (leBytes 4 (id + flag enhanced 8 + flag config 9) ++ leBytes 4 data)
  if code = 1 then
    if sentCrc false [at_ b2 0 4, at_ b2 4 4, at_ b2 8 4] = at_ b2 12 4 then
      message (at_ b2 0 4) (at_ b2 4 8) false false
    else none
  else
    let config := b3.getD 7 false
    let bits := (l.drop 6).flatMap (fun x => [x.b2, x.b3])
    if wireCheck 6 0x19 0x15 bits 6 ≠ at_ b2 0 6 then none
    else if config then message (at_ b3 8 4) (2 ^ 12 * at_ b3 13 4 + at_ b2 6 12) true true
    else message (2 ^ 4 * at_ b3 8 4 + at_ b3 13 4) (at_ b2 6 12) true false

/-! ## PSI5 (R457 to R460) -/

/-- The parity bit, even, or the CRC of data bits in the order of their transmission. -/
def psiCheck (crc : Bool) (data bits : Nat) : Nat :=
  let l := (List.range bits).map (bitAt data)
  if crc then wireCheck 3 3 7 l 3 else l.countP (·) % 2

/-- A frame's check and its number of bits are as the setup has them. -/
def State.psiPasses (s : State) (p data bits check : Nat) : Bool :=
  bits == s.setup p 1 2 5 && check == psiCheck (s.setup p 1 7 1 == 1) data bits

/-- Nanoseconds from a sync instant to a time stamped `steps` steps of device time ago, none where the instant
came after it. -/
def SyncInstant.past (x : SyncInstant) (steps stamp : Nat) : Option Nat :=
  x.times[steps]?.bind (fun t =>
    let d := (stamp + 2 ^ 64 - t % 2 ^ 64) % 2 ^ 64
    if d < 2 ^ 63 then some d else none)

/-- The latest sync instant before a frame's first start bit, 0 for the port's latest, and the time between. -/
def State.psiSync (s : State) (p : Nat) (f : WireFrame) : Option (Nat × Nat) :=
  let l := (s.port p).syncs
  (List.range l.length).findSome? (fun j =>
    l[j]?.bind (fun x => (x.past f.stepsSince (f.stamp % 2 ^ 64)).map (fun d => (j, d))))

/-- The window in which a frame's first start bit falls (R458, R459): its sync instant, 0 for the latest, and its
slot; slot 0 in the asynchronous mode. -/
def State.psiWindow (s : State) (p : Nat) (f : WireFrame) : Option (Nat × Nat) :=
  if s.setup p 1 1 1 = 0 then some (0, 0)
  else (s.psiSync p f).bind (fun (j, past) =>
    let slots := s.setup p 1 8 3
    let ends := fun k => 1000 * (if k + 1 < slots then s.psiStart p (k + 1) else s.setup p 1 11 20)
    ((List.range slots).find? (fun k => decide (1000 * s.psiStart p k ≤ past ∧ past < ends k))).map (fun k => (j, k)))

end Sys2Proof.Machine
end

