-- ==== Sys2Proof/Machine/Ports.lean ====
section
/-! DEFINITION. Harbour ports at work (15, 16): frames that end at the pins, X18 and X19, arming and
the transfers a port starts, transmission and its outcome, retirement, RUN. -/

namespace Sys2Proof.Machine

/-! ## Frames that end at a port (R24 X18, R417, R519) -/

/-- X18 of a port has no room for a frame (R24, R27). -/
def State.rxFull (s : State) (p len : Nat) : Bool :=
  let x := s.port p
  decide (64 ≤ x.rxq.length) || decide (64 < x.x18 + granules len) ||
    (s.forcedFull 18 && s.ptu.qPort == p)

/-- A frame without a protocol error: counted, and into X18 or discarded whole. X18 reports full once it holds its
depth (R515). -/
def State.goodFrame (s : State) (p : Nat) (f : RxFrame) : State :=
  let s := s.modPort p (fun x => { x with rxGood := satInc32 x.rxGood })
  let len := f.payload.length
  if s.rxFull p len then
    ((s.noteFull 18).modPort p (fun x => { x with rxOverflow := satInc32 x.rxOverflow })).event 0x0520 1
      (scopeO (s.portOwner p)) [(1, p), (3, 0), (2, len)]
  else
    let s := s.modPort p (fun x => { x with rxq := x.rxq ++ [f] })
    if (s.port p).x18Full then s.noteFull 18 else s

/-- HP_RX_ERRORS. -/
def State.rxError (s : State) (p : Nat) : State :=
  s.modPort p (fun x => { x with rxErrors := satInc32 x.rxErrors })

/-- REJECTED of the VALID partner of a port that has a property, if there is one. -/
def State.rejectOf (s : State) (p : Nat) (is : Partner → Bool) : State :=
  match (s.partnersOf p).find? (fun e => is e.2) with
  | some e => s.rejectFrames e.1 1
  | none => s

/-- The test unit corrupts the next frame of a port (R519). -/
def State.corrupts (s : State) (p : Nat) : Bool :=
  s.mode.mode == .test && s.portType p != 4 && tabGet (fun _ => 0) s.ptu.rxCorrupt p != 0

/-- COUNT goes down by a frame that is corrupted. -/
def State.corruptDone (s : State) (p : Nat) : State :=
  s.modPtu (fun u => { u with
    rxCorrupt := tabMod (fun _ => 0) u.rxCorrupt p (fun v => if v % 65536 = 0 then v else v - 1) })

/-- The epoch of a stamp that was taken a number of steps and sets ago (R434). -/
def State.epochAt (s : State) (steps : Nat) : Nat := (s.tb.epoch + 2 ^ 16 - steps % 2 ^ 16) % 2 ^ 16

/-- The stamp and its epoch (R434). -/
def State.rxFrame (s : State) (f : WireFrame) (payload : List Byte) : RxFrame :=
  { payload := payload, stamp := f.stamp % 2 ^ 64, epoch := s.epochAt f.stepsSince }

/-- What the receive error counter of a CAN port becomes (R450, ISO 11898-1): an error adds 1, and 8 for each
run of dominant bits after its flag; a good frame takes 1 off or, from above 127, sets a value of 119 to 127. -/
def canRec (bad : Bool) (eights free v : Nat) : Nat :=
  if bad then min 255 (v + 1 + 8 * eights) else if 127 < v then 119 + free % 9 else v - 1

/-- A frame ends at a CAN port. One with FDF = 1 on a port without FD_EN is a form error. -/
def State.canFrame (s : State) (p : Nat) (f : WireFrame) (c : CanFrame) (hit : Bool) : State :=
  let fd := c.fdf && s.setup p 3 0 1 == 0
  let bad := c.error != 0 || fd
  let (n, s) := s.draw
  let s := s.modPort p (fun x => { x with
    rec_ := canRec bad c.eights (Config.freeValue n) x.rec_
    lastError := if c.error ≠ 0 then c.error % 8 else if fd then 4 else x.lastError })
  if bad || hit then s.rxError p else s.goodFrame p (s.rxFrame f (canPayload c))

/-! ### Transfers that follow one another (R442) -/

/-- The words of an SPI payload: bits above a word's width are zero (R462). -/
def Partner.spiWords (x : Partner) (b : List Byte) : List Byte :=
  b.mapIdx (fun k v => BitVec.ofNat 8 (v.toNat % 2 ^ min 8 (field x.addr0 6 5 + 1 - 8 * (k % x.spiBytes))))

/-- The bytes an SPI port drives, where MOSI is bound (R461). -/
def State.spiSends (s : State) (p i : Nat) (b : List Byte) : List Byte :=
  if s.sigBound p 1 then (s.partner i).spiWords b else []

/-- The request pulse of a SENT partner's slot: SPC_W_s ticks (R452, R456). -/
def State.spcPulse (s : State) (p i : Nat) : State :=
  let slot := field (s.partner i).addr0 0 2
  let width := 100 * s.setup p 1 0 10 * s.setup p 2 (8 * slot) 8
  (s.emit (.pulse p 1 width)).modPort p (fun x => { x with
    requested := some slot, follow := some slot, pulseEnd := s.coreNs + width })

/-- A transfer of a partner starts: a SENT request pulse, the armed transfer of an SPI partner, FILL bytes, or
the address byte of an I3C private read. -/
def State.beginTransfer (s : State) (p i : Nat) : State :=
  let x := s.partner i
  if s.portType p = 2 then s.spcPulse p i
  else
    let bytes := if s.portType p = 4 then
        s.spiSends p i (List.replicate (field x.addr1 0 11) (BitVec.ofNat 8 (field x.addr1 16 8)))
      else [BitVec.ofNat 8 (2 * field x.addr0 0 7 + 1)]
    (s.emit (.portTx p bytes)).modPort p (fun x => { x with busy := some i })

/-- A transfer that has begun has not ended; the frames of PORT_XMIT that only wait are none. -/
def Port.occupied (x : Port) : Bool := x.busy.isSome || x.starting || x.requested.isSome || x.clocked

/-- A transfer that is due starts, or waits for the one in progress. -/
def State.dueTransfer (s : State) (p i : Nat) : State :=
  if (s.port p).transferring then s.modPort p (fun x => { x with due := x.due ++ [i] }) else s.beginTransfer p i

/-- A transfer has ended: the next one due starts, where its partner is still armed, before a frame of PORT_XMIT that
waits (R442). -/
def State.nextDue (s : State) (p : Nat) : State :=
  if (s.port p).occupied then s
  else
    let still := (s.port p).due.filter (fun i =>
      (s.partner i).valid && (s.partner i).port == p && (s.partner i).arm != 0)
    let s := s.modPort p (fun x => { x with due := still.drop 1 })
    match still with
    | [] => s
    | i :: _ => s.beginTransfer p i

/-- The bytes of a transfer have ended: an armed one ends with them, and the next one due starts; a frame being
sent ends with its outcome. -/
def State.transferEnds (s : State) (p : Nat) : State :=
  if (s.port p).busy.isSome then (s.modPort p (fun x => { x with busy := none })).nextDue p
  else s.modPort p (fun x => { x with clocked := true })

/-! ### SENT (R452 to R456) -/

/-- The status bits of a good frame go into its slot's serial channel; with the last frame of a message the
message is stored, or counted where its CRC fails. -/
def State.sentSerial (s : State) (p slot : Nat) (bits : SentBits) : State :=
  let code := s.setup p 1 15 2
  let n := serialFrames code
  let all := tabGet (fun _ => []) (s.port p).serial slot ++ [bits]
  let l := all.drop (all.length - n)
  let keep := fun (s : State) (l : List SentBits) =>
    s.modPort p (fun x => { x with serial := tabSet (fun _ => []) x.serial slot l })
  if n = 0 then s
  else if !serialWhole code l then keep s l
  else
    let s := keep s []
    let first := l.head?.getD bits
    match serialPayload code l with
    | none => s.rxError p
    | some payload =>
      s.goodFrame p { payload := payload, stamp := first.stamp, epoch := first.epoch, slot := slot, stream := 1 }

/-- A frame ends at a SENT port: it follows the request pulse of a slot, and without SPC every frame is in slot
0. One that follows no pulse is in no partner's slot. -/
def State.sentFrame (s : State) (p : Nat) (f : WireFrame) (calibration : Nat) (pulses : List Nat) (hit : Bool) :
    State :=
  let slot := if s.setup p 1 17 1 = 1 then (s.port p).follow.getD 4 else 0
  let nibbles := if hit then none else s.sentNibbles p calibration pulses
  let s := s.modPort p (fun x => { x with requested := none, follow := none, lastCal := some calibration })
  let s := match nibbles with
    | none =>
      ((s.modPort p (fun x => { x with serial := tabSet (fun _ => []) x.serial slot [] })).rxError p).rejectOf p
        (fun x => field x.addr0 0 2 == slot && !bitAt x.addr0 2)
    | some l =>
      let g := s.rxFrame f (sentFast calibration l)
      let s := s.modPort p (fun x => { x with lastTick := sentTickNs calibration % 2 ^ 17 })
      (s.goodFrame p { g with slot := slot }).sentSerial p slot
        { b3 := bitAt (l.getD 0 0) 3, b2 := bitAt (l.getD 0 0) 2, stamp := g.stamp, epoch := g.epoch }
  s.nextDue p

/-! ### PSI5 (R457 to R460) -/

/-- The payload of a PSI5 frame (R459): SYNC_COUNT as at the sync instant of its window (DEDUCED, log 58). -/
def State.psiPayload (s : State) (p j slot data : Nat) : List Byte :=
  let sync := if s.setup p 1 1 1 = 1 then ((s.port p).syncCount + 2 ^ 16 - j % 2 ^ 16) % 2 ^ 16 else 0
  leBytes 4 (field data 0 28) ++
    leBytes 4 (place (s.setup p 1 2 5) 0 5 + place slot 5 3 + place sync 8 16)

/-- A frame has begun in window k of a port's sync instant j. -/
def Port.windowHad (x : Port) (j k : Nat) : Bool := bitAt ((x.syncs[j]?.map SyncInstant.had).getD 0) k
def Port.noteWindow (x : Port) (j k : Nat) : Port :=
  { x with syncs := x.syncs.modify j (fun y => { y with had := y.had ||| 2 ^ k }) }

/-- A frame ends at a PSI5 port (R459, R460). SLOT_SEEN is of the windows after the latest sync instant. -/
def State.psiFrame (s : State) (p : Nat) (f : WireFrame) (data : Nat) (good : Bool) : State :=
  match s.psiWindow p f with
  | none => s.rxError p
  | some (j, k) =>
    let second := s.setup p 1 1 1 == 1 && (s.port p).windowHad j k
    let s := s.modPort p (fun x => x.noteWindow j k)
    if !good ∨ second then
      (s.rxError p).rejectOf p (fun x => field x.addr0 0 3 == k)
    else
      let s := s.modPort p (fun x => { x with slotSeen := if j = 0 then x.slotSeen ||| 2 ^ k else x.slotSeen })
      s.goodFrame p { s.rxFrame f (s.psiPayload p j k data) with slot := k }

/-! ### SPI, I3C and 10BASE-T1S -/

/-- The transfer whose bytes are to come: its partner, its length, and whether it answers a CCC. An armed one
(R463, R468), or that of the frame being sent. -/
def State.transferOf (s : State) (p : Nat) : Option (Nat × Nat × Bool) :=
  let x := s.port p
  let spi := s.portType p == 4
  match x.busy, x.txq with
  | some i, _ =>
    let y := s.partner i
    some (i, if spi then field y.addr1 0 11 else field y.addr2 16 11, false)
  | none, f :: _ =>
    let h := payWord f.bytes 0
    if x.clocked then none
    else if spi then some (f.partner, f.bytes.length, false)
    else if bitAt h 0 then some (f.partner, field h 16 11, bitAt h 1)
    else none
  | none, [] => none

/-- The bytes of a transfer end at an SPI port (R461 to R463): as many as the transfer has. -/
def State.spiFrame (s : State) (p : Nat) (f : WireFrame) (data : List Byte) (i len : Nat) : State :=
  let all := (data ++ List.replicate len 0).take len
  let b := if s.sigBound p 2 then (s.partner i).spiWords all else all.map (fun _ => 0)
  (s.goodFrame p { s.rxFrame f b with partner := some i }).transferEnds p

/-- The payload of an I3C read of a length (R469). -/
def i3cPayload (data : List Byte) (len : Nat) (ccc : Bool) : List Byte :=
  leBytes 4 (flag (decide (data.length < len)) 9 + flag ccc 10) ++ data.take len

/-- The data of a read ends at an I3C port (R468 to R470). -/
def State.i3cFrame (s : State) (p : Nat) (f : WireFrame) (data : List Byte) (bad : Bool) (i len : Nat) (ccc : Bool) :
    State :=
  if bad then ((s.rxError p).rejectFrames i 1).transferEnds p
  else (s.goodFrame p { s.rxFrame f (i3cPayload data len ccc) with partner := some i }).transferEnds p

/-- A 10BASE-T1S port accepts a destination (R472). -/
def State.t1sAccepts (s : State) (p : Nat) (b : List Byte) : Bool :=
  let dest := macAt b 0
  dest == s.setup p 1 0 32 + 2 ^ 32 * s.setup p 2 0 16 || dest == 2 ^ 48 - 1 ||
    (s.setup p 2 17 1 == 1 && bitAt dest 0)

/-- A frame without its FCS has a length of R471: 64 to 1,518 bytes, or 1,522 with a VLAN tag. -/
def t1sLength (b : List Byte) : Bool :=
  decide (60 ≤ b.length ∧ b.length ≤ if be16At b 12 = 0x8100 then 1518 else 1514)

/-- One bit, one byte and a whole frame of the IEEE 802.3 frame check sequence. -/
def fcsBit (c : Word) : Word := if c.getLsbD 0 then (c >>> 1) ^^^ 0xEDB88320#32 else c >>> 1
def fcsByte (c : Word) (b : Byte) : Word :=
  (List.range 8).foldl (fun c _ => fcsBit c) (c ^^^ b.setWidth 32)
def fcs (b : List Byte) : Word := ~~~(b.foldl fcsByte 0xFFFFFFFF#32)

/-- A frame ends at a 10BASE-T1S port (R472, R474). -/
def State.t1sFrame (s : State) (p : Nat) (f : WireFrame) (bytes : List Byte) (bad : Bool) : State :=
  let body := bytes.take (bytes.length - 4)
  if bad || !t1sLength body || bytes.drop (bytes.length - 4) != wordBytes (fcs body) then s.rxError p
  else s.goodFrame p (s.rxFrame f body)

/-- A frame that an ACTIVE port receives: of its protocol, while it takes part in its bus, addressed to it, or of
a transfer in progress. -/
def State.portReceives (s : State) (p : Nat) (f : WireFrame) : Bool :=
  s.portActive p && match s.portType p, f.content with
    | 1, .can _ => !(s.port p).busOff
    | 2, .sent _ _ => true
    | 3, .psi _ _ _ _ => true
    | 4, .spi _ => (s.transferOf p).isSome
    | 5, .i3c _ _ => (s.transferOf p).isSome
    | 6, .t1s b _ => decide (b.length < 6) || s.t1sAccepts p b
    | _, _ => false

/-- A frame ends at a port's pins. -/
def State.frameEnds (s : State) (p : Nat) (f : WireFrame) : State :=
  if !s.portReceives p f then s
  else
    let hit := s.corrupts p
    let s := if hit then s.corruptDone p else s
    match f.content with
    | .can c => s.canFrame p f c hit
    | .sent calibration pulses => s.sentFrame p f calibration pulses hit
    | .psi data bits check violation => s.psiFrame p f data (!violation && !hit && s.psiPasses p data bits check)
    | .spi data =>
      match s.transferOf p with
      | some (i, len, _) => s.spiFrame p f data i len
      | none => s
    | .i3c data error =>
      match s.transferOf p with
      | some (i, len, ccc) => s.i3cFrame p f data (error || hit) i len ccc
      | none => s
    | .t1s bytes error => s.t1sFrame p f bytes (error || hit)

/-! ## Transfers that a port starts (R369, R442, R456, R460, R463, R468) -/

/-- The sync instants that a frame still on its way may have begun after: the latest, and those before one that is
younger than the longest frame, 300 µs (R457). -/
def keepSyncs (now : Nat) : List SyncInstant → List SyncInstant
  | [] => []
  | x :: rest => x :: (if now ≤ x.at_ + 300000 then keepSyncs now rest else [])

/-- A sync instant of a PSI5 port: SYNC_OUT is high for 4 µs (R457). -/
def State.syncPulse (s : State) (p : Nat) : State :=
  (s.emit (.pulse p 1 4000)).modPort p (fun x => { x with
    syncCount := (x.syncCount + 1) % 2 ^ 16, slotSeen := 0, pulseEnd := s.coreNs + 4000
    syncs := { times := [time64 s.tb.sec s.tb.nsec], at_ := s.coreNs } :: keepSyncs s.coreNs x.syncs })

/-- The CONTINUOUS arming of another partner drives the port's sequence of sync pulses, which serves them
all. -/
def State.sequenceRuns (s : State) (p i : Nat) : Bool :=
  s.portType p == 3 && (s.partnersOf p).any (fun e => e.1 != i && e.2.arm == 2 && e.2.trigger.isNone)

/-- The transaction of an armed partner starts, where its protocol has one. -/
def State.startTransfer (s : State) (p i : Nat) : State :=
  match s.portType p with
  | 2 => if s.setup p 1 17 1 = 1 then s.dueTransfer p i else s
  | 3 => if s.setup p 1 1 1 = 1 ∧ !s.sequenceRuns p i then s.syncPulse p else s
  | 4 | 5 => s.dueTransfer p i
  | _ => s

/-- A port that starts transactions. -/
def State.startsTransfers (s : State) (p : Nat) : Bool :=
  match s.portType p with
  | 2 => s.setup p 1 17 1 == 1
  | 3 => s.setup p 1 1 1 == 1
  | 4 | 5 => true
  | _ => false

/-- PORT_ARM takes effect: the arming, and the start at once or at a trigger time (R369). A transfer that an earlier
arming has left due goes with that arming (R442). -/
def State.armPartner (s : State) (i action : Nat) (trigger : Option Nat) : State :=
  let p := (s.partner i).port
  let s := s.modPort p (fun x => { x with due := x.due.filter (· != i) })
  if action = 0 then s.modPartner i Partner.disarm
  else
    let timed := if s.startsTransfers p then trigger else none
    let s := s.modPartner i (fun x => { x with arm := action, trigger := timed })
    if timed.isSome then s else s.startTransfer p i

/-- A periodic transaction of a CONTINUOUS arming is due on an ACTIVE port. -/
def State.periodic (s : State) (type i : Nat) : Bool :=
  let x := s.partner i
  x.valid && x.arm == 2 && x.trigger.isNone && s.portActive x.port && s.portType x.port == type

/-! ## Transmission (R24 X19, R368, R441) -/

/-- X19 of a port takes a frame: one longer than the queue enters it empty. -/
def State.txRoom (s : State) (p len : Nat) : Bool :=
  let x := s.port p
  (decide (x.txq.length ≤ 1) || decide (x.x19 + len ≤ 1024)) &&
    !(s.forcedFull 19 && s.ptu.qPort == p)

/-- The reason for which a payload is refused before anything is driven (R441, R449). -/
def State.canTxCheck (s : State) (p : Nat) (x : Partner) (b : List Byte) : Option Nat :=
  let w0 := payWord b 0
  let w1 := payWord b 1
  let dlc := field w1 0 4
  let fdf := bitAt w1 4
  let rtr := bitAt w0 30
  if s.setup p 3 1 1 = 1 then some 1
  else if b.length < 8 then some 2
  else if ((bitAt w1 5 || decide (8 < dlc)) && !fdf) || (fdf && s.setup p 3 0 1 == 0) || (fdf && rtr) then
    some 2
  else if b.length ≠ 8 + (if rtr then 0 else dlcBytes dlc fdf) then some 2
  else if !bitAt w0 29 ∧ 0x7FF < field w0 0 29 then some 2
  else if !canIdMatch x b then some 3
  else if (s.port p).busOff then some 5
  else none

/-- R468. A broadcast CCC code is below 0x80. -/
def i3cTxCheck (x : Partner) (b : List Byte) : Option Nat :=
  let h := payWord b 0
  let after := bitAt h 0
  let ccc := bitAt h 1
  if b.length < 4 then some 2
  else if b.length = 4 ∧ (!after || ccc) then some 2
  else if ccc ∧ (bitAt x.addr0 7 || (b.getD 4 0).toNat < 0x80) then some 2
  else if after ∧ field h 16 11 = 0 then some 2
  else none

/-- R474. -/
def t1sTxCheck (x : Partner) (b : List Byte) : Option Nat :=
  if b.length < 14 ∨ 1518 < b.length then some 2
  else if !t1sMatch x b 0 then some 3
  else none

/-- Reasons 1 to 3 of R441, and 5 of a port in bus-off. -/
def State.txCheck (s : State) (p i : Nat) (b : List Byte) : Option Nat :=
  let x := s.partner i
  match s.portType p with
  | 1 => s.canTxCheck p x b
  | 4 => if b.length % x.spiBytes = 0 then none else some 2
  | 5 => i3cTxCheck x b
  | 6 => t1sTxCheck x b
  | _ => some 1

/-- HP_TX_FAILED. -/
def State.txFails (s : State) (p n : Nat) : State :=
  s.modPort p (fun x => { x with txFailed := satAdd 0xFFFFFFFF x.txFailed n })

/-- Threads that wait for X19 or for the start sequence look again. -/
def State.txWake (s : State) (p : Nat) : State := s.wakeAll (fun w => w == .txSpace p)

/-- An address byte of I3C: the address, and whether a read follows. -/
def i3cAddress (a : Nat) (read : Bool) : Byte := BitVec.ofNat 8 (2 * a + bnat read)

/-- The broadcast address of I3C. -/
def i3cBroadcast : Nat := 0x7E

/-- The bytes of a PORT_XMIT to a target (R468): a private write and the address byte of the read after it; or a
direct CCC, its code broadcast, with its data to the target or, for one that is read, as defining bytes. -/
def i3cBytes (da : Nat) (b : List Byte) : List Byte :=
  let read := bitAt (payWord b 0) 0
  let data := b.drop 4
  let after := if read then [i3cAddress da true] else []
  if bitAt (payWord b 0) 1 then
    i3cAddress i3cBroadcast false :: data.take 1 ++
      (if read then data.drop 1 else i3cAddress da false :: data.drop 1) ++ after
  else (if data = [] then [] else i3cAddress da false :: data) ++ after

/-- The bytes a port drives for a frame (R461, R468, R474); ESI of a CAN payload is ignored (R449). -/
def State.txBytes (s : State) (p : Nat) (f : TxFrame) : List Byte :=
  match s.portType p with
  | 4 => s.spiSends p f.partner f.bytes
  | 5 => i3cBytes (field (s.partner f.partner).addr0 0 7) f.bytes
  | 6 =>
    let own := leBytes 4 (s.setup p 1 0 32) ++ leBytes 2 (s.setup p 2 0 16)
    let b := f.bytes.take 6 ++ own ++ f.bytes.drop 12
    let b := b ++ List.replicate (60 - b.length) 0
    b ++ wordBytes (fcs b)
  | 1 => f.bytes.mapIdx (fun k b => if k = 4 then b &&& 0xBF#8 else b)
  | _ => f.bytes

/-- The frame being sent ends: its thread is told, and the next one moves up. -/
def State.txEnds (s : State) (p status value : Nat) : State :=
  match (s.port p).txq with
  | [] => s
  | f :: rest =>
    (((s.modPort p (fun x => { x with txq := rest, clocked := false })).wakeThread f.ring status value).txWake
      p).nextDue p

/-- A transmit error counter after an attempt that met an error (ISO 11898-1): 8 more, but for an ACK error of a
passive transmitter that sees no dominant bit after it and for a stuff error during arbitration; and 8 for each
run of dominant bits after the error flag. -/
def canTec (v : Nat) (e : CanError) : Nat :=
  v + 8 * e.eights +
    (if (e.exempt && e.kind == 2) || (e.kind == 5 && decide (127 < v) && e.eights == 0) then 0 else 8)

/-- Bus-off: every frame handed to the port ends, and the event (R450). -/
def State.busOff (s : State) (p : Nat) : State :=
  let n := (s.port p).txq.length
  let s := s.modPort p (fun x => { x with
    tec := 255, busOff := true, offSince := s.coreNs, recovering := s.setup p 3 2 1 == 1 })
  ((s.failTx p 5).event 0x0540 2 (scopeO (s.portOwner p))
    [(1, p), (3, 0), (1, 255), (1, 0), (2, min n 65535)]).txWake p

/-- The outcomes a TYPE's port can report of a frame it has begun to send: none while an armed transfer is in
progress (R442). A CAN frame is retried RETX times after errors; an I3C address that is not acknowledged is
retried once (R470); a 10BASE-T1S frame has at most 16 attempts (R474). -/
def State.outcomeOk (s : State) (p : Nat) (o : WireOutcome) : Bool :=
  (s.port p).busy.isNone && match s.portType p with
  | 1 =>
    let retx := s.setup p 3 3 4
    let more := retx == 15 || decide (o.errors.length ≤ retx)
    o.reason == 0 && more || o.reason == 4 && more && s.setup p 3 7 9 != 0 ||
      o.reason == 7 && retx != 15 && o.errors.length == retx + 1
  | 4 => o.reason == 0
  | 5 => (o.reason == 0 || o.reason == 7) && decide (o.nacks ≤ 1) || o.reason == 6 && o.nacks == 2
  | 6 =>
    o.reason == 0 && decide (o.collisions < 16) || o.reason == 8 && o.collisions == 16 ||
      o.reason == 9 && decide (1 ≤ o.collisions ∧ o.collisions ≤ 16)
  | _ => false

/-- The address byte of each attempt that an I3C target does not acknowledge is put out (R470). -/
def State.nackedTries (s : State) (p : Nat) (f : TxFrame) (o : WireOutcome) : State :=
  if s.portType p = 5 then
    overAll o.nacks (fun _ s => s.emit (.portTx p ((s.txBytes p f).take 1))) s
  else s

/-- A frame has been sent: the bytes go out, the thread gets the stamp. -/
def State.txSent (s : State) (p : Nat) (f : TxFrame) (stamp : Nat) : State :=
  ((s.emit (.portTx p (s.txBytes p f))).modPort p (fun x => { x with
    txGood := satInc32 x.txGood })).txEnds p 0 (stamp % 2 ^ 64)

/-- The outcome of the frame being sent (R368, R441, R449, R450, R474). The errors of its own attempts do not count
in HP_RX_ERRORS (DESIGN CHOICE, log 61). -/
def State.txOutcome (s : State) (p : Nat) (o : WireOutcome) : State :=
  match (s.port p).txq with
  | [] => s
  | f :: _ =>
    if !(s.portActive p && s.outcomeOk p o) || (s.port p).busOff then s
    else
      let s := if s.portType p = 1 then
          s.modPort p (fun x => { x with
            tec := o.errors.foldl canTec x.tec
            lastError := match o.errors.getLast? with | some e => e.kind % 8 | none => x.lastError
            tdc := (o.tdc.getD x.tdc) % 128 })
        else if s.portType p = 6 then
          s.modPort p (fun x => { x with collisions := satAdd 65535 x.collisions o.collisions })
        else s.nackedTries p f o
      if 255 < (s.port p).tec then s.busOff p
      else if o.reason = 0 then
        (s.modPort p (fun x => { x with tec := x.tec - 1 })).txSent p f o.stamp
      else (s.txFails p 1).txEnds p 0x13 o.reason

/-! ## Retirement and RUN (R410, R412) -/

/-- A hard fault retires a port. -/
def State.retirePort (s : State) (p cause : Nat) : State :=
  if s.mode.mode = .reset ∨ (s.port p).retired ∨ cause = 0 then s
  else
    let s := (s.modPort p (fun x => { x with retired := true, cause := cause })).refreshPort p
    let s := s.event 0x0503 2 (scopeO (s.portOwner p)) [(1, p), (3, 0), (1, cause)]
    ((s.unitFault (s.portOwner p) 10).faultBit 2).degradeCause

/-- HP_CTRL is written. -/
def State.writePortCtrl (s : State) (p v : Nat) : State :=
  (s.modPort p (fun x => { x with run := bitAt v 0 })).refreshPort p

/-! ## Commands -/

/-- PORT_FRAME_END (R24, R417). -/
def execPortFrameEnd (p : PortId) (f : WireFrame) (s : State) : Host.Outcome State Fault Refusal :=
  answer (s.frameEnds p f)

/-- PORT_TX_OUTCOME (R368, R441). -/
def execPortTxOutcome (p : PortId) (o : WireOutcome) (s : State) : Host.Outcome State Fault Refusal :=
  answer (s.txOutcome p o)

/-- PORT_ARM_TRIGGER (R369, R411, R442): device time has reached a trigger time of an ACTIVE port, or had while
the port was not ACTIVE. -/
def execPortArmTrigger (i : PartnerId) (s : State) : Host.Outcome State Fault Refusal :=
  let x := s.partner i
  answer (if x.valid && x.arm != 0 && x.trigger.any (· ≤ time64 s.tb.sec s.tb.nsec) && s.portActive x.port then
      (s.modPartner i (fun x => { x with trigger := none })).startTransfer x.port i
    else s)

/-- PORT_RETIRE (R412). -/
def execPortRetire (p : PortId) (cause : Fin 4) (s : State) : Host.Outcome State Fault Refusal :=
  answer (s.retirePort p cause)

/-- PORT_RUN_WRITE (R410). -/
def execPortRunWrite (p : PortId) (run : Bool) (s : State) : Host.Outcome State Fault Refusal :=
  answer (s.fromHost (fun s => if s.mode.mode = .reset then s else s.writePortCtrl p (bnat run)))

end Sys2Proof.Machine
end

