-- ==== Sys2Proof/Machine/Charters.lean ====
section
/-! DEFINITION. Charters (R394 to R399): the registers, a write's first effect on windows, and what
happens when it takes effect. -/

namespace Sys2Proof.Machine

/-! ## Registers (R394 to R396). `k` is an offset / 4. -/

/-- Registers of 4-bit owners. -/
def ownerReg (k : Nat) : Bool :=
  k < 6 || (8 ≤ k && k < 20) || (32 ≤ k && k < 64) || (1024 ≤ k && k < 1536)

def tenantReg (k : Nat) : Bool := 64 ≤ k && k < 96 && k % 4 == 0
def rangeReg (k : Nat) : Bool := 128 ≤ k && k < 256

/-- Owner codes; 1 to 7 are reserved and leave the field as it was (R6). -/
def ownerMerge (old v : Nat) : Nat :=
  (List.range 8).foldl (fun a n =>
    let o := field v (4 * n) 4
    a + place (if o = 0 ∨ 8 ≤ o then o else field old (4 * n) 4) (4 * n) 4) 0

/-- What a register holds after a write. -/
def charterMerge (k old v : Nat) : Nat :=
  if ownerReg k then ownerMerge old v
  else if tenantReg k then
    (if field v 0 8 = 0 then field old 0 8 else field v 0 8) + place (field v 8 1) 8 1
  else if rangeReg k then
    if k % 2 = 0 then field v 0 2 + place (field v 12 20) 12 20 else place (field v 12 20) 12 20
  else old

/-- Windows of every tenant that the charter as written no longer covers are refused (R244). -/
def State.applyR244 (s : State) : State :=
  s.refuseWindows (fun t w => charterReason s.charterShown t w)

/-- A write of a charter register (R397, R399). -/
def State.writeCharter (s : State) (off v : Nat) : State :=
  let k := off / 4
  let old := s.charterShown k
  let new := charterMerge k old v
  if off % 4 ≠ 0 ∨ s.locked .charterLock ∨ new = old then s
  else
    (s.modCharter (fun c => { c with
      shown := tabSet charterReset c.shown k new
      waiting := c.waiting ++ [{ off := off, old := old, new := new }] })).applyR244

/-- A read of the charters sub-block. -/
def State.charterRead (s : State) (off : Nat) : Nat :=
  if off % 4 ≠ 0 ∨ 0x1800 ≤ off then 0
  else if off = 0x400 then s.charter.gen
  else s.charterShown (off / 4)

/-! ## The new value takes effect (R397, R398) -/

/-- The pages and permissions that a window range gives: base, limit, RD, WR; none when empty. -/
def rangeOf (base limit : Nat) : Option (Nat × Nat × Bool × Bool) :=
  let lo := field base 12 20
  let hi := field limit 12 20
  if hi < lo ∨ (!bitAt base 0 ∧ !bitAt base 1) then none else some (lo, hi, bitAt base 0, bitAt base 1)

/-- The range that a range register belongs to, with this register's value. -/
def State.rangeWith (s : State) (k v : Nat) : Option (Nat × Nat × Bool × Bool) :=
  if k % 2 = 0 then rangeOf v (s.charterEff (k + 1)) else rangeOf (s.charterEff (k - 1)) v

/-- Tenant t gains or loses by a write. -/
def State.charterTouches (s : State) (w : CharterWrite) (t : Nat) : Bool :=
  let k := w.off / 4
  if ownerReg k then
    anyBelow 8 (fun n =>
      let a := field w.old (4 * n) 4
      let b := field w.new (4 * n) 4
      a != b && (a == 8 + t || b == 8 + t))
  else if tenantReg k then k == 64 + 4 * t
  else (k - 128) / 16 == t && s.rangeWith k w.old != s.rangeWith k w.new

/-- A partner entry whose owner changes is disarmed, its frames discarded (R398). -/
def State.partnersMove (s : State) (w : CharterWrite) : State :=
  let k := w.off / 4
  if 1024 ≤ k then
    overAll 8 (fun n s =>
      if field w.old (4 * n) 4 = field w.new (4 * n) 4 then s
      else s.modPartner (8 * (k - 1024) + n) (fun x => x.disarm.discard)) s
  else s

/-- The oldest write not in effect yet takes effect; what was accepted before keeps its verdict (R244). -/
def State.charterTakes (s : State) (w : CharterWrite) : State :=
  let k := w.off / 4
  let touched := (List.range 8).filter (s.charterTouches w)
  let s := s.judgeBehind.modCharter (fun c => { c with
    eff := tabSet charterReset c.eff k w.new, waiting := c.waiting.drop 1, gen := (c.gen + 1) % 2 ^ 32 })
  let s := overList touched (fun t s =>
    s.modTen t (fun x => { x with charterGen := (x.charterGen + 1) % 256 })) s
  let s := (s.partnersMove w).recheckPartners.refreshPorts
  s.event 0x0610 0 scopeS [(2, w.off), (2, 0), (4, w.old), (4, w.new)]

/-! ## Commands -/

/-- CHARTER_WRITE (R397): a write at an offset of the charters sub-block. -/
def execCharterWrite (off : Nat) (v : Word) (s : State) : Host.Outcome State Fault Refusal :=
  answer (s.supRow (fun s => s.writeCharter off v.toNat))

/-- CHARTER_EFFECT (R397). -/
def execCharterEffect (s : State) : Host.Outcome State Fault Refusal :=
  answer (match s.charter.waiting with
    | [] => s
    | w :: _ => s.charterTakes w)

end Sys2Proof.Machine
end

