-- ==== Sys2Proof/Machine/Stream.lean ====
section
/-! DEFINITION. The rows of a bitstream's packets (R115 to R126), whole packets on any path, and the
loader registers of the host link (R160, R161, R163, R166). -/

namespace Sys2Proof.Machine

/-! ## Delivering words -/

/-- Where the next word of the own section stands in the flash. -/
def State.ownAddr (s : State) : Nat :=
  copyBase s.ldr.trying + (s.flash.personality s.ldr.trying 0).off + 4 * s.ownPos

/-- Words of the own section on the chain: part of what a DATA frame of it carries (R151). -/
def State.chainWords (s : State) (ws : List Word) : State :=
  match s.chain.section_ with
  | some (type, index, level, left, scrc, crc) =>
    if s.mode.mode = .load ∧ !s.chain.stopped ∧ type = 3 ∧ index = s.ldr.chainIndex ∧ ws.length ≤ left then
      let rest := left - ws.length
      let s := (s.modChain (fun c => { c with
        section_ := some (type, index, level, rest, scrc, crcMore crc (wordsBytes ws)) })).ownWords ws
      (if rest = 0 then s.sectionEnds type index level true else s).settleVerified
    else s
  | none => s

/-- Words that a path delivers one after the other. From the flash they are the ones that stand there
next. The host link reaches the loader in every mode but RESET. -/
def State.deliverWords (s : State) (p : Path) (ws : List Word) : State :=
  match p with
  | .host =>
    if s.mode.mode = .reset || s.hostWordsHeld ws then s else overList ws (fun w s => s.streamWord .host w) s
  | .jtag => overList ws (fun w s => s.tapWord w) s
  | .chain => s.chainWords ws
  | .flash =>
    if s.flash.bytes s.ownAddr (4 * ws.length) = wordsBytes ws then
      overList ws (fun w s => s.flashWord w) s
    else s

/-- The load of a path stands between two packets. -/
def State.betweenPackets (s : State) (p : Path) : Bool :=
  s.ldr.load.any (fun l => l.path == p && l.part.isEmpty)

/-- The header of a packet (R115). -/
def packetHeader (reg count : Nat) : Word := reg32 [place count 0 16, place reg 16 8, place 0xC5 24 8]

/-! ## Packet rows -/

/-- Words of a row on a path; those of the host link cross X1 (R166). -/
def State.pathWords (s : State) (p : Path) (ws : List Word) : State :=
  match p with
  | .host => s.fromHost (fun s => s.deliverWords .host ws)
  | p => s.deliverWords p ws

/-- A whole packet of a register. -/
def State.onePacket (s : State) (p : Path) (reg : Nat) (payload : List Word) : State :=
  if s.betweenPackets p ∧ payload.length < 65536 then
    s.pathWords p (packetHeader reg payload.length :: payload)
  else s

/-- SYNC_WORD (R115, R127, R129): the first word of a bitstream on a path. -/
def execSyncWord (p : Path) (w : Word) (s : State) : Host.Outcome State Fault Refusal :=
  answer (if s.loadOn p then s else s.pathWords p [w])

/-- BAD_PACKET_HEADER (R117): wrong MARK, reserved REG, or a COUNT outside R116. -/
def execBadPacketHeader (p : Path) (w : Word) (s : State) : Host.Outcome State Fault Refusal :=
  let bad := hdrMark w != 0xC5 || !regOk (hdrReg w) || !countOk (hdrReg w) (hdrCount w)
  answer (if s.betweenPackets p && bad then s.pathWords p [w] else s)

/-- NOP (R116). -/
def execNopPacket (p : Path) (payload : List Word) (s : State) : Host.Outcome State Fault Refusal :=
  answer (s.onePacket p 0x00 payload)

/-- IDCHK (R118). -/
def execIdchk (p : Path) (w0 w1 : Word) (s : State) : Host.Outcome State Fault Refusal :=
  answer (s.onePacket p 0x01 [w0, w1])

/-- STAMP (R119). -/
def execStampPacket (p : Path) (w0 w1 w2 w3 : Word) (s : State) : Host.Outcome State Fault Refusal :=
  answer (s.onePacket p 0x02 [w0, w1, w2, w3])

/-- MANIFEST (R120). -/
def execManifest (p : Path) (payload : List Word) (s : State) : Host.Outcome State Fault Refusal :=
  answer (if countOk 0x03 payload.length then s.onePacket p 0x03 payload else s)

/-- A CMD word: the command, and the bits above it, which R122 gives no meaning. -/
def cmdWord (c : BitVec 4) (rest : BitVec 28) : Word := rest ++ c

/-- START_FULL (R122, R128). -/
def execStartFull (p : Path) (rest : BitVec 28) (s : State) : Host.Outcome State Fault Refusal :=
  answer (s.onePacket p 0x04 [cmdWord 1 rest])

/-- START_PARTIAL (R122, R128). -/
def execStartPartial (p : Path) (rest : BitVec 28) (s : State) : Host.Outcome State Fault Refusal :=
  answer (s.onePacket p 0x04 [cmdWord 2 rest])

/-- ABORT (R122). -/
def execAbort (p : Path) (rest : BitVec 28) (s : State) : Host.Outcome State Fault Refusal :=
  answer (s.onePacket p 0x04 [cmdWord 3 rest])

/-- A CMD word that R122 does not list. -/
def execReservedLoadCmd (p : Path) (w : Word) (s : State) : Host.Outcome State Fault Refusal :=
  let c := field w.toNat 0 4
  answer (if 1 ≤ c ∧ c ≤ 3 then s else s.onePacket p 0x04 [w])

/-- LOCK (R123). -/
def execLockPacket (p : Path) (w : Word) (s : State) : Host.Outcome State Fault Refusal :=
  answer (s.onePacket p 0x05 [w])

/-- FAR (R124). -/
def execFarPacket (p : Path) (w : Word) (s : State) : Host.Outcome State Fault Refusal :=
  answer (s.onePacket p 0x06 [w])

/-- A frame record (R125): `count` is the number of records that the FDATA header before it announces;
without one it is a further record of the packet being received. -/
def State.frameRecord (s : State) (p : Path) (count : Option Nat) (words : List Word) : State :=
  if words.length ≠ 65 then s
  else match count with
    | some n =>
      if s.betweenPackets p ∧ 1 ≤ n ∧ n ≤ 1008 then s.pathWords p (packetHeader 0x07 (65 * n) :: words) else s
    | none =>
      if s.ldr.load.any (fun l => l.path == p && l.part.length == 1 && l.part.all (fun h => hdrReg h == 0x07))
      then s.pathWords p words else s

/-- FDATA_RECORD (R125). -/
def execFdataRecord (p : Path) (count : Option Nat) (words : List Word) (s : State) :
    Host.Outcome State Fault Refusal :=
  answer (s.frameRecord p count words)

/-- END (R126). -/
def execEndPacket (p : Path) (crc : Word) (s : State) : Host.Outcome State Fault Refusal :=
  answer (s.onePacket p 0x0F [crc])

/-! ## Loader registers (R160) -/

/-- LDR_STATUS. COPY and SUP_CONTAINER_SEQ name the copy that the first device of a chain has loaded: behind another
device, CHAIN_FIRST low, they stay 0 (DESIGN CHOICE, log 57). -/
def State.ldrStatus (s : State) : Nat :=
  let l := s.ldr
  place l.copy 0 2 + flag l.fallback 2 + flag l.forced 3 + place l.chainIndex 4 3 +
    flag s.mode.chainFirst 7 + place l.devices 8 4 + flag s.mode.benchEn 12 + flag l.load.isSome 13 +
    place l.lastError 16 5 + place l.lastPath 21 3 + place l.loads 24 8

/-- A write of LDR_LOCK (R163). -/
def State.writeLock (s : State) (v : Nat) : State := s.setLocks (field v 0 7) 1

/-- A write of LDR_CHAIN_TIMEOUT (R160). -/
def State.writeTimeout (s : State) (v : Nat) : State :=
  let t := field v 0 16
  if 50 ≤ t ∧ t ≤ 5000 then s.modLdr (fun l => { l with timeout := t }) else s

/-- A write of LDR_BENCH (R161). A refusal's event names no command and no result. A write of 1 to a bit
that is 1 already sets nothing, so it is not refused (DEDUCED, log 53). -/
def State.writeBench (s : State) (v : Nat) : State :=
  let sets := (bitAt v 0 && !s.ldr.forceHost) || (bitAt v 1 && !s.ldr.forceBoot)
  if sets && !(s.mode.benchEn && !s.locked .benchLock && s.mode.mode.serviceLike) then
    s.event 0x0102 1 scopeS [(1, 0xFF), (1, s.mode.mode.code), (1, 0xFF)]
  else s.modLdr (fun l => { l with forceHost := bitAt v 0, forceBoot := bitAt v 1 })

/-- CLOSE (R166): a load before END ends TRUNCATED, and a new sync word is accepted. -/
def State.closeHost (s : State) : State :=
  (if s.loadOn .host then s.stopLoad 0x12 else s).modLdr (fun l => { l with hostDiscard := false })

/-- A write of LDR_HOST_CTRL. -/
def State.writeHostCtrl (s : State) (v : Nat) : State := if field v 0 4 = 1 then s.closeHost else s

/-- LDR_LOCK_WRITE (R163). -/
def execLdrLockWrite (v : Word) (s : State) : Host.Outcome State Fault Refusal :=
  answer (s.supRow (fun s => s.writeLock v.toNat))

/-- LDR_BENCH_WRITE (R161). -/
def execLdrBenchWrite (v : Word) (s : State) : Host.Outcome State Fault Refusal :=
  answer (s.supRow (fun s => s.writeBench v.toNat))

/-- LDR_HOST_DATA_WRITE (R166): a 64-bit write delivers bits [31:0] first. -/
def execLdrHostDataWrite (lo : Word) (hi : Option Word) (s : State) : Host.Outcome State Fault Refusal :=
  answer (s.supRow (fun s => s.deliverWords .host (lo :: hi.toList)))

/-- CLOSE (R166). -/
def execCloseStream (s : State) : Host.Outcome State Fault Refusal := answer (s.supRow State.closeHost)

/-- HOST_LOAD_TIMEOUT (R166): no word for 100 ms after the sync word. -/
def execHostLoadTimeout (s : State) : Host.Outcome State Fault Refusal :=
  answer (if s.loadOn .host then s.stopLoad 0x12 else s)

end Sys2Proof.Machine
end

