-- ==== Sys2Proof/Machine/FlashUpdate.lean ====
section
/-! DEFINITION. Flash update (R160, R164, R165): the flash registers, the buffer and the five
commands. -/

namespace Sys2Proof.Machine

/-- LDR_FLASH_STATUS (R160). -/
def State.flashStatus (s : State) : Nat :=
  flag s.flash.busy.isSome 0 + place s.flash.result 1 3 + place s.flash.readMode 4 2

/-- A write of LDR_FLASH_ADDR. -/
def State.writeFlashAddr (s : State) (v : Nat) : State :=
  s.modFlash (fun f => { f with addr := 4 * field v 2 23 })

/-- A write of LDR_FLASH_LEN: a length that R160 does not list leaves the field (R6). -/
def State.writeFlashLen (s : State) (v : Nat) : State :=
  let n := field v 0 13
  if 4 ≤ n ∧ n ≤ 4096 ∧ n % 4 = 0 then s.modFlash (fun f => { f with len := n }) else s

/-- A write of a word of the flash buffer. -/
def State.writeFlashBuffer (s : State) (off v : Nat) : State :=
  s.modFlash (fun f => { f with buffer := memWrite 0 f.buffer off (leBytes 4 v) })

def FlashOp.code : FlashOp → Nat
  | .read => 1 | .program => 2 | .erase => 3 | .verifyA => 4 | .verifyB => 5

/-- The bytes a command acts on. -/
def Flash.span (f : Flash) (op : FlashOp) : Nat := if op = .erase then 0x10000 else f.len

/-- A range lies in the copy in use: each copy has 16 MiB from its start (R140, R165). -/
def State.inCopyUsed (s : State) (a n : Nat) : Bool :=
  s.ldr.copy != 0 &&
    decide (a < copyBase s.ldr.copy + 0x1000000 ∧ copyBase s.ldr.copy < a + n)

/-- A command's refusal as RESULT has it, 0 for none (R164): mode, lock, copy in use, range. Where several hold at
once RESULT shows the lowest code (DESIGN CHOICE, log 61). LEN at its reset
value 0, which cannot be written, is no reason: the command is accepted and moves no byte (DESIGN CHOICE,
log 55). -/
def State.flashRefusal (s : State) (op : FlashOp) : Nat :=
  let a := s.flash.addr
  let n := s.flash.span op
  if !s.mode.mode.serviceLike then 1
  else if op = .program ∨ op = .erase then
    if s.locked .flashWriteLock then 2
    else if s.inCopyUsed a n then 3
    else if 0x2000000 < a + n ∨ a / 0x10000 ≠ (a + (n - 1)) / 0x10000 ∨
        (op = .erase ∧ a % 0x10000 ≠ 0) then 4
    else 0
  else 0

/-- A command is written while none is in progress. -/
def State.flashCommand (s : State) (op : FlashOp) : State :=
  if s.flash.busy.isSome then s
  else
    let r := s.flashRefusal op
    if r = 0 then
      s.modFlash (fun f => { f with
        busy := some { op := op, addr := f.addr, len := f.span op, data := memRead 0 f.buffer 0 f.len }
        result := 0 })
    else
      (s.modFlash (fun f => { f with result := r })).event 0x0207 1 scopeS
        [(1, op.code), (1, r), (2, 0), (4, s.flash.addr)]

/-- A write of LDR_FLASH_CMD. -/
def State.writeFlashCmd (s : State) (v : Nat) : State :=
  match field v 0 4 with
  | 1 => s.flashCommand .read
  | 2 => s.flashCommand .program
  | 3 => s.flashCommand .erase
  | 4 => s.flashCommand .verifyA
  | 5 => s.flashCommand .verifyB
  | _ => s

/-- READ (R164). -/
def execFlashRead (s : State) : Host.Outcome State Fault Refusal :=
  answer (s.supRow (fun s => s.flashCommand .read))

/-- PROGRAM (R164). -/
def execFlashProgram (s : State) : Host.Outcome State Fault Refusal :=
  answer (s.supRow (fun s => s.flashCommand .program))

/-- ERASE_64K (R164). -/
def execFlashErase64k (s : State) : Host.Outcome State Fault Refusal :=
  answer (s.supRow (fun s => s.flashCommand .erase))

/-- VERIFY_A (R164). -/
def execFlashVerifyA (s : State) : Host.Outcome State Fault Refusal :=
  answer (s.supRow (fun s => s.flashCommand .verifyA))

/-- VERIFY_B (R164). -/
def execFlashVerifyB (s : State) : Host.Outcome State Fault Refusal :=
  answer (s.supRow (fun s => s.flashCommand .verifyB))

/-! ## The end of a command -/

/-- A command ends: RESULT, and vector 13 of function 0 (R164, R283). -/
def State.flashEnds (s : State) (result : Nat) : State :=
  (s.modFlash (fun f => { f with busy := none, result := result })).raise 0 13

/-- Bytes as the flash then holds them: a program only clears bits (PRESUMED of serial NOR flash, log
32). -/
def programmed (old new : List Byte) : List Byte := List.zipWith (· &&& ·) old new

/-- A command's whole effect. -/
def State.flashDoes (s : State) (j : FlashJob) : State :=
  let f := s.flash
  match j.op with
  | .read =>
    (s.modFlash (fun f => { f with buffer := memWrite 0 f.buffer 0 (f.bytes j.addr j.len) })).flashEnds 0
  | .program =>
    let got := programmed (f.bytes j.addr j.len) j.data
    (s.modFlash (fun f => { f with cells := memWrite erased f.cells j.addr got })).flashEnds
      (if got = j.data then 0 else 5)
  | .erase =>
    (s.modFlash (fun f => { f with
      cells := memWrite erased f.cells j.addr (List.replicate 0x10000 erased) })).flashEnds 0
  | .verifyA => s.flashEnds (if f.verify 1 then 7 else 6)
  | .verifyB => s.flashEnds (if f.verify 2 then 7 else 6)

/-- A command that fails leaves what it acts on open: the bytes are free values. -/
def State.flashFails (s : State) (j : FlashJob) : State :=
  let (n, s) := s.draw
  let junk := leBytes j.len (Config.freeValue n)
  let s := match j.op with
    | .read => s.modFlash (fun f => { f with buffer := memWrite 0 f.buffer 0 junk })
    | .program | .erase => s.modFlash (fun f => { f with cells := memWrite erased f.cells j.addr junk })
    | .verifyA | .verifyB => s
  s.flashEnds 5

/-- A device with CHAIN_FIRST low ignores its configuration-port balls (R138): no flash answers it, so a
verification fails and every other command ends with a flash error (DEDUCED, log 32). -/
def State.flashAbsent (s : State) (j : FlashJob) : State :=
  s.flashEnds (if j.op = .verifyA ∨ j.op = .verifyB then 6 else 5)

/-- The end of the command in progress. -/
def State.flashOver (s : State) (failed : Bool) : State :=
  match s.flash.busy with
  | none => s
  | some j => if !s.mode.chainFirst then s.flashAbsent j else if failed then s.flashFails j else s.flashDoes j

/-- FLASH_CMD_DONE (R164): the command in progress ends, with a flash error or without one. -/
def execFlashCmdDone (failed : Bool) (s : State) : Host.Outcome State Fault Refusal :=
  answer (s.flashOver failed)

/-- FLASH_BUSY_TIMEOUT (R164): still busy 2 s after the command. -/
def execFlashBusyTimeout (s : State) : Host.Outcome State Fault Refusal := answer (s.flashOver true)

end Sys2Proof.Machine
end

