-- ==== Sys2Proof/Machine/HostLink.lean ====
section
/-! DEFINITION. The host link and the functions' resets and power states (R246 to R256). -/

namespace Sys2Proof.Machine

/-! ## Resetting a tenant (R248, R251, R374, R482) -/

/-- What a function level reset leaves of a tenant's DMA and ATS registers (R284): those of the fault
block stay (R401). -/
def Ten.resetDma (x : Ten) : Ten :=
  { x with
    ahead := 2, atsFault := false, invqOverflow := false, invalidations := 0, atsAddr := 0
    atsWrite := false, dmaError := false, dmaKind := 0, dmaRing := 0, rdBytes := 0, wrBytes := 0
    rdHi := 0, wrHi := 0 }

/-- The threads of a tenant are discarded and its rings reset, its frame-instruction loads abandoned
(R176) and its translations invalidated. `event` is LOAD_ABANDONED's number. -/
def State.resetRings (s : State) (t event : Nat) : State :=
  let s := overAll 4 (fun l s => (s.abandonRing (4 * t + l) event 0).resetRing (4 * t + l)) s
  let s := s.modDma (fun d => { d with
    trans := d.trans.filter (fun q => q.fn != t), msgs := d.msgs.filter (fun m => m.1 != t) })
  s.invalidateRange t 0 (2 ^ 64)

/-- A program request or lease of a tenant. -/
def isProgramOf (t : Nat) : Asker → Bool
  | .program r => ringTenant r == t
  | _ => false

/-- The FLR action SEAL (R251, R395): no island is sealed where seals do not exist (R170). -/
def State.flrSeals (s : State) (t : Nat) : State :=
  match s.mode.mode with
  | .reset | .load | .wake => s
  | _ =>
    if s.flrSeal t then
      overAll 48 (fun i s => if s.islandOwner i = some t then s.sealIsland i .flr else s) s
    else s

/-- Accesses of a tenant's windows at an island's logic go on with nobody to answer; those that wait there
are gone. -/
def State.orphanWindow (s : State) (t : Nat) : State :=
  { s with islands := s.islands.map (fun e => (e.1, { e.2 with ureg := { e.2.ureg with
    busy := e.2.ureg.busy.map (fun a => if a.who = .window t then { a with who := .keeper } else a)
    waiting := e.2.ureg.waiting.filter (fun a => a.who != Requester.window t) } })) }

/-- Steps 3 and 4 of R251: `event` as LOAD_ABANDONED has it. -/
def State.resetTenant (s : State) (t event : Nat) : State :=
  let s := s.resetRings t event
  let s := { s with
    wins := s.wins.filter (fun e => e.1 / 64 != t), behind := s.behind.filter (fun d => d.who != Requester.window t) }
  let s := s.orphanWindow t
  let s := s.modHeld (fun h => { h with
    items := h.items.filter (fun i => match i with | .tail r _ => ringTenant r != t | .cpl .. => true) })
  let s := (s.leaveWithdraw (isProgramOf t)).leaveFree (isProgramOf t)
  let s := s.modTen t Ten.resetDma
  let s := s.modView t (fun _ => {})
  s.flrSeals t

/-- Step 5 of R251: MSI-X and configuration space at their defaults, apart from the sticky fields
(R233). An FLR under way that this reset supersedes logs no FLR_DONE (DESIGN CHOICE, log 59). -/
def State.resetConfig (s : State) (t : Nat) : State :=
  let was := (s.fn t).d3hot
  let s := { s with msix := s.msix.filter (fun e => e.1 / 64 != t) }
  let s := s.modFn t Fn.sticky
  if was then s.event 0x0405 0 t [(1, t), (1, 0)] else s

/-- A host-link load in progress is abandoned (R130). -/
def State.abortHostLoad (s : State) : State :=
  match s.ldr.load with
  | some l => if l.path = Path.host then s.stopLoad 0x14 else s
  | none => s

/-! ## PERST# and the link (R246 to R250) -/

/-- Every function is reset, their threads and what these have begun first, so that no record counts as lost, and the
host-link load abandoned (R248). -/
def State.resetFunctions (s : State) : State :=
  let s := overAll 32 (fun r s => (s.dropCur r).modRing r (fun x => { x with part := none }))
    (s.modDma (fun d => { d with invs := [] }))
  (overAll 8 (fun t s => (s.resetTenant t 5).resetConfig t) s).abortHostLoad

/-- The link goes down: LINK_DOWN with its cause (R246, R259). -/
def State.linkFalls (s : State) (cause : Nat) : State :=
  if s.link.up then
    (s.modLink (fun l => { l with
      up := false, speed := 0, width := 0, eq8 := false, eq16 := false, l1 := false, l2 := false, cpls := [], downs := (l.downs + 1) % 256 })).event
      0x0402 1 scopeG [(1, cause)]
  else s.modLink (fun l => { l with l2 := false })

/-- PERST_ASSERTED (R248). -/
def execPerstAsserted (s : State) : Host.Outcome State Fault Refusal :=
  answer (if s.link.perst then s
    else
      let s := (s.linkFalls 1).modLink (fun l => { l with
        perst := true, perstCount := (l.perstCount + 1) % 256, ltrLast := 0, ltrTol := none, ltrTime := none })
      let s := s.event 0x0403 1 scopeG [(1, s.mode.mode.code)]
      s.resetFunctions.clearControls 2)

/-- PERST_RELEASE (R246): the link may train. -/
def execPerstRelease (s : State) : Host.Outcome State Fault Refusal :=
  answer (s.modLink (fun l => { l with perst := false }))

/-- Lanes by the width's code: 1, 2, 4 or 8. -/
def lanes (w : Fin 4) : Nat := 2 ^ w.val

/-- Configuration requests get Retry Status for a time in L0 that the rules bound and leave open: the 10 ms
between steps 3 and 4 of R246 at most, a free value (log 26). -/
def State.retryPhase (s : State) : Nat × State :=
  let (n, s) := s.draw
  (s.coreNs + Config.freeValue n % 10000001, s)

/-- LINK_UP (R246): L0 at 2.5 GT/s. -/
def execLinkUp (width : Fin 4) (s : State) : Host.Outcome State Fault Refusal :=
  answer (if s.link.up || s.link.perst then s
    else
      let (readyAt, s) := s.retryPhase
      (s.modLink (fun l => { l with up := true, speed := 1, width := lanes width, readyAt := readyAt })).event
        0x0401 0 scopeG [(1, 1), (1, lanes width)])

/-- LINK_RETRAIN (R228): the host directs it, and the link does not go down. The lanes are equalized for
8.0 GT/s and for 16.0 GT/s where it reaches those rates. -/
def execLinkRetrain (speed width : Fin 4) (s : State) : Host.Outcome State Fault Refusal :=
  answer (if s.linkOpen then
      s.modLink (fun l => { l with
        speed := speed.val + 1, width := lanes width, l1 := false
        eq8 := l.eq8 || decide (2 ≤ speed.val), eq16 := l.eq16 || decide (3 ≤ speed.val) })
    else s)

/-- HOT_RESET (R249): a Hot Reset, or the link entering Disabled. L2/L3 Ready is left only through PERST#
(R256). -/
def execHotReset (disabled : Bool) (s : State) : Host.Outcome State Fault Refusal :=
  answer (if s.linkOpen then (s.linkFalls (if disabled then 3 else 2)).resetFunctions else s)

/-- LINK_DOWN (R249): a failure of the link; none counts in L2/L3 Ready (R256). -/
def execLinkDown (s : State) : Host.Outcome State Fault Refusal :=
  answer (if s.linkOpen then (s.linkFalls 4).resetFunctions else s)

/-! ## Function level reset (R251 to R253) -/

/-- A write of Initiate Function Level Reset (R251): steps 1 to 4. One that comes before step 5 of
the first merges with it (R252). -/
def State.startFlr (s : State) (t : Nat) : State :=
  if (s.fn t).flr.isSome then s
  else
    let s := s.modFn t (fun f => { f with flr := some s.coreNs })
    let s := overAll 64 (fun v s => s.modMsx t v (fun m => { m with pend := false })) s
    let s := s.resetTenant t 2
    if t = 0 then s.abortHostLoad.clearControls 3 else s

/-- FLR (R251). One of a function whose FLR runs gets Retry Status: it merges with the first (R252). -/
def execFlr (t : TenantId) (s : State) : Host.Outcome State Fault Refusal :=
  answer (if s.configOpen t then s.startFlr t else s.configRetry t)

/-- FLR_DONE (R251 step 5). -/
def execFlrDone (t : TenantId) (s : State) : Host.Outcome State Fault Refusal :=
  answer (match (s.fn t).flr with
    | none => s
    | some start => (s.resetConfig t).event 0x0404 0 t [(1, t), (3, 0), (4, (s.coreNs - start) / 1000)])

/-! ## Power states (R254 to R256) -/

/-- A PMCSR write of D3hot (R254). -/
def State.enterD3hot (s : State) (t : Nat) : State :=
  if (s.fn t).d3hot then s
  else
    ((s.modFn t (fun f => { f with d3hot := true })).resetRings t 4).event 0x0405 0 t [(1, t), (1, 3)]

/-- A PMCSR write of D0 (R254): messages that were pending may go. -/
def State.enterD0 (s : State) (t : Nat) : State :=
  if (s.fn t).d3hot then
    ((s.modFn t (fun f => { f with d3hot := false })).event 0x0405 0 t [(1, t), (1, 0)]).sendPending t
  else s

/-- D3HOT_ENTRY (R254). -/
def execD3hotEntry (t : TenantId) (s : State) : Host.Outcome State Fault Refusal :=
  answer (if s.configOpen t then s.enterD3hot t else s.configRetry t)

/-- D0_ENTRY (R254). -/
def execD0Entry (t : TenantId) (s : State) : Host.Outcome State Fault Refusal :=
  answer (if s.configOpen t then s.enterD0 t else s.configRetry t)

/-- PME_TURN_OFF (R256): acknowledged, and the link enters L2/L3 Ready. -/
def execPmeTurnOff (s : State) : Host.Outcome State Fault Refusal :=
  answer (if s.linkOpen then
      (s.emit .pmeAck).modLink (fun l => { l with l1 := false, l2 := true })
    else s)

/-- The device may ask for L1: ASPM L1 is enabled in function 0, or every function is in D3hot (R255,
R256). -/
def State.l1Allowed (s : State) : Bool :=
  bitAt (s.fn 0).aspm 1 || (List.range 8).all (fun t => (s.fn t).d3hot)

/-- A request waits at X2, or a message that could be sent is pending (R255): X2 reports full, a message or a
Translation Request waits for it, a thread's
transfer stands between its requests, or a vector that nothing blocks is pending. A request that waits for
Bus Master Enable, for space or for an answer does not wait at X2. -/
def State.requestWaits (s : State) : Bool :=
  s.forcedFull 2 || !s.dma.msgs.isEmpty || s.dma.wanted.any (fun q => (s.fn (ringTenant q.ring)).bme) ||
    anyBelow 32 (fun r => (s.fn (ringTenant r)).bme && (match (s.thr r).wait with
      | .dma | .fence => !s.dma.reads.any (fun x => x.ring == r && x.kind != .gone) && !s.dma.trans.any (fun q => q.ring == r)
      | .record d => (s.ring d).part.isSome
      | _ => false)) ||
    s.msix.any (fun e => (s.fn (e.1 / 64)).msixEn && e.2.pend && !s.vecBlocked (e.1 / 64) (e.1 % 64))

/-- L1_ENTRY (R255, R256). -/
def execL1Entry (s : State) : Host.Outcome State Fault Refusal :=
  answer (if s.linkOpen && s.l1Allowed && !s.requestWaits then
      s.modLink (fun l => { l with l1 := true })
    else s)

/-- L1_EXIT (R255): the other end leaves L1. -/
def execL1Exit (s : State) : Host.Outcome State Fault Refusal :=
  answer (s.modLink (fun l => { l with l1 := false }))

end Sys2Proof.Machine
end

