-- ==== Sys2Proof/Machine/Pins.lean ====
section
/-! DEFINITION. What each user pin and each dedicated ball shows (R39, R44, R171, R173, R209 to R218). -/

namespace Sys2Proof.Machine

/-- What the device drives at a pin: nothing, a level, a differential level of an LVDS pair, or whatever
signal `sig` of harbour port `p` asks for, inverted where `inv` says so. -/
inductive PinOut where
  | z
  | drive (v : Bool)
  | diff (v : Bool)
  | port (p sig : Nat) (inv : Bool)
  deriving DecidableEq, Repr

/-- A pin: what it drives, its weak pull (0 none, 1 up, 2 down), 4 mA drive, slow slew, the
termination across an LVDS input pair (R213, R215), and the open-drain pull-up that an I3C port gives SDA (R464). -/
structure PinState where
  out : PinOut := .z
  pull : Nat := 0
  half : Bool := false
  slow : Bool := false
  term : Bool := false
  pullUp : Bool := false
  deriving DecidableEq, Repr

/-- The pull of SHORE_PULL (R211): the latched level, and in RESET before any latch the present one. -/
def State.strapPull (s : State) : Nat :=
  match s.mode.shorePull.getD (Config.shorePull s.coreNs % 3) with
  | 0 => 2
  | 1 => 1
  | _ => 0

/-- VCCAUX is valid (R528). A rail of the power-on-reset set that falls starts a power-on reset, so outside one
it is valid (R224); within one it is as the board has it. -/
def State.auxValid (s : State) : Bool := !s.mode.porActive || Config.vccauxValid s.coreNs

/-- The pre-load state (R218): the pull of SHORE_PULL while VCCAUX and the bank's supply are valid. -/
def State.preloadPin (s : State) (b : Nat) : PinState :=
  { pull := if s.auxValid && (s.bank b).valid then s.strapPull else 0 }

/-- PULL of a slot; the reserved encoding acts as none (R213). -/
def State.pullField (s : State) (b q : Nat) : Nat :=
  let v := s.pinSlot b q 35 2
  if v = 3 then 0 else v

/-- DRIVE and SLEW of an LVCMOS output (R213). -/
def State.withDrive (s : State) (b q : Nat) (x : PinState) : PinState :=
  { x with half := s.pinSlot b q 33 1 == 1, slow := s.pinSlot b q 34 1 == 1 }

/-- A level driven at a pin: as a differential pair, or as an LVCMOS output with its slot's options. -/
def State.drivePin (s : State) (b p : Nat) (v : Bool) (pull : Nat) : PinState :=
  if s.lvdsPair b p then { out := .diff v } else s.withDrive b p { out := .drive v, pull := pull }

/-- The shore state of a pin (R213, R215, R217): a level, or high impedance with the pull SHORE gives a
pin outside a pair. -/
def State.shorePin (s : State) (b p : Nat) : PinState :=
  match s.shoreDrive b p with
  | some v => s.drivePin b p v 0
  | none =>
    let shore := s.pinSlot b p 37 3
    { pull := if s.bankLive b && !s.lvdsPair b p && (shore == 1 || shore == 2) then shore else 0 }

/-- An I3C port in ACTIVE gives SDA its pull-up in the open-drain phases (R464). -/
def State.sdaPullUp (s : State) (k sig : Nat) : Bool := s.sigSda k sig && s.busOpen k

/-- A pin that a port in ACTIVE has: an input drives nothing (R445, R451, R457, R461, R471). -/
def State.activePin (s : State) (b p : Nat) : PinState :=
  let k := s.pinPort b p
  let sig := s.pinSig b p
  let idle : PinState := { pull := s.pullField b p, pullUp := s.sdaPullUp k sig }
  match s.sigLevel k sig with
  | some v => s.withDrive b p { idle with out := .drive (xor v (s.pinInv b p)) }
  | none =>
  if (inputSigs (s.portType k)).contains sig then idle
  else s.withDrive b p { idle with out := .port k sig (s.pinInv b p) }

/-- STBY of CAN at a pin bound to a port that is not in ACTIVE: high (R445; log 36). -/
def State.stbyPin (s : State) (b p : Nat) : PinState :=
  s.withDrive b p { out := .drive (!s.pinInv b p), pull := s.pullField b p }

/-- A pin in its shore state, but for STBY of a bound CAN port in an enabled bank, which is high unless R173 has
stopped the port (R171, R173, R445; log 36). -/
def State.restPin (s : State) (b p : Nat) : PinState :=
  let k := s.pinPort b p
  if s.bankLive b && s.bindOf b p == 2 && s.portBound b p && !s.portActive k && s.sigHigh k (s.pinSig b p) then
    s.stbyPin b p
  else s.shorePin b p

/-- A pin whose slot names a port's signal (R407, R408, R411): a bound pin follows its port, every other is as
an unused pin. PULL applies in each case (R213). -/
def State.portPin (s : State) (b p : Nat) : PinState :=
  let k := s.pinPort b p
  let idle : PinState := { pull := s.pullField b p }
  if !s.portBound b p then idle
  else match s.portState k with
    | 4 => s.activePin b p
    | state =>
      if s.sigHigh k (s.pinSig b p) then s.stbyPin b p
      else if state ≤ 1 then idle
      else s.shorePin b p

/-- The configured state of a pin (R71, R213 to R216). -/
def State.configuredPin (s : State) (b p : Nat) : PinState :=
  let q := s.slotPin b p
  if !s.bankLive b then {}
  else if s.bindOf b p = 2 then s.portPin b p
  else match s.pinOut b q with
    | some v => s.drivePin b p (s.pairLevel b p v) (s.pullField b p)
    | none =>
      if s.lvdsPair b p then { term := s.pinSlot b q 40 1 == 1 } else { pull := s.pullField b p }

/-- The state of a pin that the mode and the seals give (R37, R39, R171, R173). -/
def State.modePin (s : State) (b p : Nat) : PinState :=
  match s.pinPhase b p with
  | .preload => s.preloadPin b
  | .shore => s.restPin b p
  | .configured => s.configuredPin b p

/-- The state of pin p of bank b: boundary scan comes first, in every mode (R44). -/
def State.pinState (s : State) (b p : Nat) : PinState :=
  match s.scanDrive b p with
  | some (some v) => s.drivePin b p v 0
  | some none => {}
  | none => s.modePin b p

/-- What the device drives at a pin; a port's own driver follows its protocol (log 45). -/
def State.pinDriven (s : State) (b p : Nat) : Option Bool :=
  match (s.pinState b p).out with
  | .z => none
  | .drive v | .diff v => some v
  | .port _ _ _ => s.portDrive b p

/-- The level at a pin: what the device drives there, or what the board does. -/
def State.pinAt (s : State) (b p : Nat) : Bool := (s.pinDriven b p).getD (s.boardPin b p)

/-- The level that a port takes from a pin bound to it: INV works in both directions (R407). -/
def State.portSees (s : State) (b p : Nat) : Bool := xor (s.pinAt b p) (s.pinInv b p)

/-! ## Dedicated balls (R209) -/

/-- The dedicated balls: outputs, bidirectional ones, and inputs. -/
inductive Ball where
  | cfgClk | cfgDq | cfgDqs | cfgCsN | cfgRstN
  | gjuData | gjuClk | gjdData | gjdClk | gjIn
  | done | faultN | ppsOut | tdo
  | pcieTx
  | gck | ppsIn | tck | trstN | sysRstN | progN | tms | tdi
  | chainFirst | benchEn
  deriving DecidableEq, Repr

/-- What a dedicated ball shows: the device's drive and its weak pull, which an input has in every mode; none
outside RESET for a ball that its own interface moves. CHAIN_FIRST and BENCH_EN are straps with a pull-down (R211).
A transmitter in electrical idle drives nothing: R209 has it so in RESET, and the model in every RESET, one that the
link lives through among them (R37, R50; DESIGN CHOICE, log 57). -/
def State.ballState (s : State) (b : Ball) : Option PinState :=
  let low : PinState := { out := .drive false }
  match b with
  | .gck | .ppsIn | .tck | .trstN | .chainFirst | .benchEn => some { pull := 2 }
  | .gjIn | .sysRstN | .progN | .tms | .tdi => some { pull := 1 }
  | .pcieTx => if s.mode.mode = .reset then some {} else none
  | .cfgRstN => some (if s.mode.cfgRstLow then low else {})
  | .done => some (if s.mode.doneLow then low else {})
  | .faultN => some (if s.faultLevel then low else {})
  | .ppsOut => some { out := .drive s.ppsOut }
  | .cfgClk | .cfgDq | .cfgDqs => if s.mode.mode = .reset then some { pull := 2 } else none
  | .cfgCsN => if s.mode.mode = .reset then some { pull := 1 } else none
  | .gjuData | .gjdData => if s.mode.mode = .reset then some { out := .drive true } else none
  | .gjuClk | .gjdClk => if s.mode.mode = .reset then some low else none
  | .tdo => if s.mode.mode = .reset ∨ s.jtag.trstLow then some {} else none

end Sys2Proof.Machine
end

