-- ==== Sys2Proof/Machine/Jtag.lean ====
section
/-! DEFINITION. The TAP (R168, R169, R44): its instructions and IEEE 1532 programming. -/

namespace Sys2Proof.Machine

/-- SUP_IDCODE (R510, R511). -/
def supIdcode : Nat := 0x148009E3

/-- An instruction is selected. -/
def State.selectIr (s : State) (ir : TapIr) (dr : Nat) : State :=
  s.modJtag (fun j => { j with ir := ir, dr := BitVec.ofNat 32 dr })

/-- What the TAP does: nothing while TRST_N is held low (R209). -/
def State.tapDoes (s : State) (f : State → State) : State := if s.jtag.trstLow then s else f s

/-- What SAMPLE captures: of pin p of bank i, bit 2 × (32 × i + p) its level and the next bit whether
the device drives it. -/
def State.sampledPins (s : State) : BitVec 3072 :=
  BitVec.ofNat 3072 (maskOf 3072 (fun b =>
    if b % 2 = 1 then (s.pinDriven (b / 64) (b / 2 % 32)).isSome
    else s.pinAt (b / 64) (b / 2 % 32)))

/-- A scan of the boundary-scan register under an instruction: Capture-DR samples the pins, and Update-DR,
where one follows, puts what was shifted in into the register's latches (R44, R168). -/
def State.scanPins (s : State) (ir : TapIr) (shifted : Option (BitVec 3072)) : State :=
  (s.selectIr ir 0).modJtag (fun j => { j with captured := s.sampledPins, bsr := shifted.getD j.bsr })

/-- IDCODE (R168, R511). -/
def execJtagIdcode (s : State) : Host.Outcome State Fault Refusal :=
  answer (s.tapDoes (fun s => s.selectIr .idcode supIdcode))

/-- SAMPLE/PRELOAD (R168). -/
def execJtagSamplePreload (shifted : Option (BitVec 3072)) (s : State) :
    Host.Outcome State Fault Refusal :=
  answer (s.tapDoes (fun s => s.scanPins .sample shifted))

/-- EXTEST (R44, R168): the pins follow the boundary-scan register while it is selected. -/
def execJtagExtest (shifted : Option (BitVec 3072)) (s : State) : Host.Outcome State Fault Refusal :=
  answer (s.tapDoes (fun s => s.scanPins .extest shifted))

/-- CLAMP (R44, R168). -/
def execJtagClamp (s : State) : Host.Outcome State Fault Refusal :=
  answer (s.tapDoes (fun s => s.selectIr .clamp 0))

/-- HIGHZ (R44, R168). -/
def execJtagHighz (s : State) : Host.Outcome State Fault Refusal :=
  answer (s.tapDoes (fun s => s.selectIr .highz 0))

/-- IEEE 1532 programming is open: SERVICE, TEST or HOLD, and JTAG_ISP_OFF clear (R44, R169). -/
def State.iscMay (s : State) : Bool :=
  (s.mode.mode.serviceLike || s.mode.mode == .hold) && !s.locked .jtagIspOff

/-- ISC_ENABLE (R169). Accepted, it lets words in again that were refused for want of it. -/
def execIscEnable (s : State) : Host.Outcome State Fault Refusal :=
  answer (s.tapDoes (fun s =>
    let t := s.selectIr .iscEnable 0
    if s.iscMay && !s.jtag.isc then
      (t.modJtag (fun j => { j with isc := true })).modLdr (fun l => { l with jtagDiscard := false })
    else t))

/-- The end of IEEE 1532 programming: a load before END ends TRUNCATED (R169). -/
def State.iscEnds (s : State) : State :=
  let s := if s.loadOn .jtag then s.stopLoad 0x12 else s
  (s.modLdr (fun l => { l with jtagDiscard := false })).modJtag (fun j => { j with isc := false, x17 := [] })

/-- ISC_DISABLE (R169). -/
def execIscDisable (s : State) : Host.Outcome State Fault Refusal :=
  answer (s.tapDoes (fun s => s.iscEnds.selectIr .iscDisable 0))

/-- ISC_NOOP (R168). -/
def execIscNoop (s : State) : Host.Outcome State Fault Refusal :=
  answer (s.tapDoes (fun s => s.selectIr .iscNoop 0))

/-- ISC_PROGRAM (R168): an Update-DR delivers a bitstream word. -/
def execIscProgram (w : Word) (s : State) : Host.Outcome State Fault Refusal :=
  answer (s.tapDoes (fun s => (s.selectIr .iscProgram w.toNat).deliverWords .jtag [w]))

/-- LOAD_STATUS (R168): LDR_STATUS as captured. -/
def execJtagLoadStatus (s : State) : Host.Outcome State Fault Refusal :=
  answer (s.tapDoes (fun s => s.selectIr .loadStatus s.ldrStatus))

/-- The opcodes that R168 lists beside BYPASS. -/
def tapListed (op : Nat) : Bool :=
  (1 ≤ op && op ≤ 5) || (0x10 ≤ op && op ≤ 0x13) || op == 0x20

/-- BYPASS and every other opcode (R168). -/
def execJtagBypass (opcode : BitVec 8) (s : State) : Host.Outcome State Fault Refusal :=
  answer (if tapListed opcode.toNat then s else s.tapDoes (fun s => s.selectIr .bypass 0))

/-- TAP_RESET (R169, R209): Test-Logic-Reset selects IDCODE, as IEEE 1149.1 gives; with TRST_N held low
the TAP stays there. -/
def execTapReset (trstLow : Bool) (s : State) : Host.Outcome State Fault Refusal :=
  answer ((s.iscEnds.selectIr .idcode supIdcode).modJtag (fun j => { j with trstLow := trstLow }))

end Sys2Proof.Machine
end

