-- ==== Sys2Proof/Machine/Leave.lean ====
section
/-! DEFINITION. Power leave (17): requests, leases, the budget registers, the current monitors and
the island leave ports. -/

namespace Sys2Proof.Machine

/-- LEAVE_REQUEST (R480, R481): the first request on its way arrives. -/
def execLeaveRequest (s : State) : Host.Outcome State Fault Refusal :=
  answer (match sortBy LeaveReq.order s.leave.arriving with
    | [] => s
    | q :: _ =>
      (s.modLeave (fun l => { l with arriving := l.arriving.erase q })).leaveArrives q)

/-- LEAVE_REQUEST_TIMEOUT (R481): a queued request's timeout has passed. -/
def execLeaveRequestTimeout (who : Asker) (s : State) : Host.Outcome State Fault Refusal :=
  answer (match s.leave.takeOut who with
    | none => s
    | some (q, l) => ({ s with leave := l }).timeOut q)

/-- LEASE_TRANSIENT_END (R479, R480): kinds 1 and 2, and leases of DURATION 0, stay in transient
for their whole life. -/
def execLeaseTransientEnd (handle : Nat) (s : State) : Host.Outcome State Fault Refusal :=
  let ends := fun (x : Lease) =>
    x.handle == handle && x.transient && !x.forever && x.who.kind != 1 && x.who.kind != 2
  answer (if s.leave.leases.any ends then
      s.modLeave (fun l => { l with
        leases := l.leases.map (fun x => if ends x then { x with transient := false } else x)
        stale := true })
    else s)

/-- LEASE_END (R479): a lease of kind 1 or 2 whose event has come ends DURATION later. -/
def execLeaseEnd (handle : Nat) (s : State) : Host.Outcome State Fault Refusal :=
  answer (if s.leave.leases.any (fun x => x.handle == handle && x.ending) then s.leaveDrop handle
    else s)

/-- WAKE_LEASE_RELEASE (R484): 100 µs after a wake's step 6, its lease ends: the oldest held. In WAKE the latest
is that of the wake in progress, which has not come to its step 6. -/
def execWakeLeaseRelease (s : State) : Host.Outcome State Fault Refusal :=
  answer (match s.leave.wakeLeases with
    | [] => s
    | [h] => if s.mode.mode = .wake then s else s.leaveDrop h
    | h :: _ => s.leaveDrop h)

/-- The waiting requests that a change of BUDGET or FLOOR denies (R481). -/
def State.denyExceeding (s : State) : State :=
  let bad := s.leave.queue.filter s.exceeds
  let s := s.modLeave (fun l => { l with queue := l.queue.filter (fun q => !s.exceeds q), stale := true })
  overList bad (fun q s => s.deny q 1) s

/-- A write of LEAVE_BUDGET (R477). -/
def State.writeBudget (s : State) (v : Nat) : State :=
  let b := field v 0 12
  if 100 ≤ b ∧ b ≤ 4000 then (s.modLeave (fun l => { l with budget := b })).denyExceeding else s

/-- A write of LEAVE_FLOOR (R477). -/
def State.writeFloor (s : State) (v : Nat) : State :=
  let b := field v 0 12
  if b ≤ 4000 then (s.modLeave (fun l => { l with floor := b })).denyExceeding else s

/-- LEAVE_BUDGET_WRITE (R477). -/
def execLeaveBudgetWrite (v : Word) (s : State) : Host.Outcome State Fault Refusal :=
  answer (s.supRow (fun s => s.writeBudget v.toNat))

/-- LEAVE_FLOOR_WRITE (R477). -/
def execLeaveFloorWrite (v : Word) (s : State) : Host.Outcome State Fault Refusal :=
  answer (s.supRow (fun s => s.writeFloor v.toNat))

/-! ## Current monitors (R486, R487) -/

/-- MEASURED and RESERVED as the registers show them, saturating at 4,095 (R489). -/
def Leave.measuredShown (l : Leave) : Nat := min 4095 l.measured
def Leave.reservedShown (l : Leave) : Nat := min 4095 l.reserved

/-- The over-budget state after a sample (R487). -/
def State.overBudgetStep (s : State) (units : Nat) : State :=
  let l := s.leave
  let above := if l.budget < units then min 3 (l.overRun + 1) else 0
  let ok := if units ≤ l.budget - 100 then min 100 (l.okRun + 1) else 0
  let s := s.modLeave (fun l => { l with overRun := above, okRun := if l.overBudget then ok else 0 })
  if !l.overBudget && above = 3 then
    let s := s.modLeave (fun l => { l with overBudget := true, overSince := s.coreNs, okRun := 0 })
    let s := s.event 0x0703 2 scopeG
      [(2, s.leave.measuredShown), (2, s.leave.budget), (2, s.leave.reservedShown)]
    (s.faultBit 4).raiseAll 6
  else if l.overBudget && ok = 100 then
    let s := s.modLeave (fun l => { l with overBudget := false, okRun := 0 })
    (s.event 0x0704 0 scopeG [(4, (s.coreNs - l.overSince) / 1000)]).raiseAll 6
  else s

/-- The absolute limit after a sample (R487): logged once a run, at its third sample. -/
def State.absLimitStep (s : State) (units : Nat) : State :=
  let run := if 4000 < units then min 4 (s.leave.absRun + 1) else 0
  let s := s.modLeave (fun l => { l with absRun := run })
  if run = 3 then (s.event 0x0705 3 scopeG [(2, units)]).faultBit 5 else s

/-- CURRENT_SAMPLE (R486, R487, R480). -/
def execCurrentSample (units : Nat) (s : State) : Host.Outcome State Fault Refusal :=
  answer (if s.mode.mode = .reset then s
    else
      let last := (units :: s.leave.samples).take 10
      let s := s.modLeave (fun l => { l with
        samples := last, measured := last.foldl max 0, peak := max l.peak units, stale := true })
      (s.overBudgetStep units).absLimitStep units)

/-! ## Island leave ports (R77, R78, R485) -/

/-- The oldest request or end of one that the port has sampled is the unit's. -/
def State.takeLeaveEdge (s : State) (i : Nat) : State :=
  s.modIsl i (fun x => { x with leave := { x.leave with edges := x.leave.edges.drop 1 } })

/-- LREQ_RISE (R78, R485): a rise of LREQ that has made a request, with the LSEL sampled at its edge, asks for
leave; the class's cost is sampled here. -/
def execLreqRise (i : IslandId) (s : State) : Host.Outcome State Fault Refusal :=
  answer (match (s.isl i).leave.edges.head? with
    | some (some sel) =>
      let reg := s.leave.iclsReg i sel
      (s.takeLeaveEdge i).leaveAsk
        { who := .island i, cost := costOf reg, prio := prioOf reg, duration := durationOf reg,
          timeout := s.leave.defaultNs, at_ := s.coreNs }
    | _ => s)

/-- LREQ_FALL (R78): a fall that the interface clock has sampled: the request is withdrawn, or the lease
released. -/
def execLreqFall (i : IslandId) (s : State) : Host.Outcome State Fault Refusal :=
  answer (match (s.isl i).leave.edges.head? with
    | some none =>
      let mine := fun w => w == Asker.island i
      (((s.takeLeaveEdge i).leaveWithdraw mine).leaveFree mine).modIsl i (fun x => { x with
        leave := { x.leave with granted := false, denied := false } })
    | _ => s)

end Sys2Proof.Machine
end

