-- ==== Sys2Proof/Machine/LogOps.lean ====
section
/-! DEFINITION. Reading the logbook: entries as a tenant sees them, searches, acknowledgement, and
SUP_FAULT_STATUS (R492, R497 to R504, R509). -/

namespace Sys2Proof.Machine

/-! ## Entries (R492, R497, R499) -/

/-- The eight words of an entry; a damaged one reads as LOG_ENTRY_DAMAGED. -/
def LogEntry.words (x : LogEntry) : List Word :=
  if x.damaged then [0, 0, 0, 0xFE880803#32, 0, 0, 0, 0]
  else
    natWords 2 x.time ++ [BitVec.ofNat 32 x.seq,
      reg32 [place x.code 0 16, place (sourceByte x.code x.sev) 16 8, place x.tenant 24 8]] ++
      bytesWords x.payload ++ [reg32 [place x.repeats 0 16, place x.epoch 16 16]]

/-- An entry as its reader sees it. -/
def LogEntry.shows (x : LogEntry) (t : Nat) : Bool :=
  visibleTo t (if x.damaged then 0xFE else x.tenant)

/-- The entry of a slot. -/
def Log.at_ (l : Log) (slot : Nat) : Option LogEntry := tabGet (fun _ => none) l.slots (slot % 4096)

/-- A word of the logbook region for a tenant. -/
def State.logWord (s : State) (t slot k : Nat) : Nat :=
  match s.log.at_ slot with
  | some x => if x.shows t then wordAt x.words k else 0
  | none => 0

/-! ## Searches (R501) -/

/-- Where a search begins, how many entries it examines, and whether entries were skipped. -/
def Log.searchFrom (l : Log) (v : Nat) : Nat × Nat × Bool :=
  if dist32 v l.next < 2 ^ 31 then (v, 0, false)
  else if dist32 l.next v ≤ l.kept then (v, dist32 l.next v, false)
  else (dist32 l.next l.kept, l.kept, true)

/-- A write of LOG_T_FIND. -/
def State.startSearch (s : State) (t v : Nat) : State :=
  let (from_, span, skipped) := s.log.searchFrom v
  s.modView t (fun x => { x with
    find := v, done := false, found := false, skipped := skipped, searching := true
    from_ := from_, span := span })

/-- The first entry of a search's range that its tenant sees. -/
def Log.search (l : Log) (t from_ span : Nat) : Option LogEntry :=
  (List.range span).findSome? (fun k =>
    let q := (from_ + k) % 2 ^ 32
    match l.at_ q with
    | some x => if x.seq = q ∧ x.shows t then some x else none
    | none => none)

/-- A search ends. -/
def State.endSearch (s : State) (t : Nat) : State :=
  let v := s.view t
  if !v.searching then s
  else match s.log.search t v.from_ v.span with
    | some e => s.modView t (fun x => { x with
        done := true, found := true, searching := false, entry := e.words })
    | none => s.modView t (fun x => { x with done := true, found := false, searching := false })

/-- A read and a write of a tenant view's register. -/
def State.viewRead (s : State) (t off : Nat) : Nat :=
  let v := s.view t
  match off with
  | 0x000 => s.log.next
  | 0x004 => v.find
  | 0x008 => flag v.done 0 + flag v.found 1 + flag (v.done && v.skipped) 2
  | 0x00C => v.notify
  | _ => if 0x020 ≤ off ∧ off < 0x040 then wordAt v.entry ((off - 0x020) / 4) else 0

def State.viewWrite (s : State) (t off v : Nat) : State :=
  match off with
  | 0x004 => s.startSearch t v
  | 0x00C => s.modView t (fun x => { x with notify := v % 16 })
  | _ => s

/-! ## Supervisor registers (R504, R509) -/

/-- A write of LOG_ACK. -/
def State.writeAck (s : State) (v : Nat) : State :=
  if dist32 v s.log.ack ≤ dist32 s.log.next s.log.ack then s.modLog (fun l => { l with ack := v }) else s

/-- The conditions of SUP_FAULT_STATUS that are present now. -/
def State.faultPresent (s : State) (n : Nat) : Bool :=
  match n with
  | 0 => s.anyQuarantine
  | 1 => s.ferry.pairs.any (fun e => e.2.retired)
  | 2 => s.ports.any (fun e => e.2.retired)
  | 3 => s.dma.atcRetired != 0
  | 4 => s.leave.overBudget
  | 6 => s.leave.temp.warn
  | 8 => (List.range 4).any (fun c => s.synthEn c && !s.clocks.lock.getLsbD c)
  | 9 => s.tb.holdover
  | 10 => s.mode.untested
  | 11 => s.log.full
  | _ => false

/-- A write of SUP_FAULT_STATUS. -/
def State.writeFaultStatus (s : State) (v : Nat) : State :=
  let clear := BitVec.ofNat 12 (maskOf 12 (fun n => bitAt v n && !s.faultPresent n))
  s.modLog (fun l => { l with faultStatus := l.faultStatus &&& ~~~clear })

/-! ## Commands -/

/-- LOG_SEARCH (R501). -/
def execLogSearch (t : TenantId) (v : Word) (s : State) : Host.Outcome State Fault Refusal :=
  answer (s.hostWriting t (fun s => s.startSearch t v.toNat))

/-- LOG_SEARCH_DONE (R501). -/
def execLogSearchDone (t : TenantId) (s : State) : Host.Outcome State Fault Refusal := answer (s.endSearch t)

/-- LOG_ACK_WRITE (R504). -/
def execLogAckWrite (v : Word) (s : State) : Host.Outcome State Fault Refusal :=
  answer (s.supRow (fun s => s.writeAck v.toNat))

/-- FAULT_STATUS_WRITE (R509). -/
def execFaultStatusWrite (v : Word) (s : State) : Host.Outcome State Fault Refusal :=
  answer (s.supRow (fun s => s.writeFaultStatus v.toNat))

end Sys2Proof.Machine
end

