-- ==== Sys2Proof/Machine/Modes.lean ====
section
/-! DEFINITION. Resets and mode commands (02): POWER_ON_RESET to RESET_RELEASE, the supervisor's
mode commands and the unlock sequence. -/

namespace Sys2Proof.Machine

/-! ## Entry to RESET (R31 T1 and T2, R34, R50) -/

/-- The banks with nothing but the class and the validity of each supply, which is the board's (R218). -/
def State.bankSupplies (s : State) : Tab Bank :=
  tabModAll (fun _ => {}) ([] : Tab Bank) 48 (fun b _ => { cls := (s.bank b).cls, valid := (s.bank b).valid })

/-- What a power-on reset leaves: everything cleared. The levels of the input pins, the supplies of the
banks, the flash chip and the board are not the device's. -/
def State.powerOn (s : State) : State :=
  { State.reset with
    pending := s.pending, out := s.out, freeCounter := s.freeCounter, coreNs := s.coreNs
    mode := { sysLow := s.mode.sysLow, progLow := s.mode.progLow }
    flash := { cells := s.flash.cells }
    banks := s.bankSupplies
    link := { perst := s.link.perst }
    jtag := { trstLow := s.jtag.trstLow } }

/-- What an entry to RESET by SYS_RST_N or PROG_N keeps (R50, and the reset lists of the registers):
what is reset by power-on reset alone. A flash command in progress ends with it: BUSY 0, RESULT and the flash
as they were (DESIGN CHOICE, log 55). Messages that wait in the DMA engine are lost, with no pending bit set
(DESIGN CHOICE, log 59). -/
def State.resetKeeping (s : State) : State :=
  let old := s.mode
  { State.reset with
    pending := s.pending, out := s.out, freeCounter := s.freeCounter, coreNs := s.coreNs
    mode :=
      { prev := old.mode, changes := old.changes, causePor := old.causePor, causeSys := old.causeSys
        causeProg := old.causeProg, noticeEn := old.noticeEn, sysLow := old.sysLow
        progLow := old.progLow, porActive := old.porActive, resetBegan := some old.mode
        chainFirst := old.chainFirst, benchEn := old.benchEn, shorePull := old.shorePull
        trans := some { id := 2, target := .reset } }
    ldr :=
      { locks := s.ldr.locks, timeout := s.ldr.timeout
        forceHost := s.ldr.forceHost && !s.ldr.load.any (fun l => l.path == .host || l.path == .jtag)
        forceBoot := s.ldr.forceBoot && old.mode != .load }
    banks := s.bankSupplies
    flash :=
      { cells := s.flash.cells, buffer := s.flash.buffer, addr := s.flash.addr, len := s.flash.len
        result := s.flash.result, readMode := s.flash.readMode }
    jtag := { s.jtag with isc := false, x17 := [] }
    tide :=
      { corrected := s.tide.corrected, uncorrectable := s.tide.uncorrectable
        mismatch := s.tide.mismatch, lastFind := s.tide.lastFind }
    link := s.link
    fns := s.fns
    msix := s.msix
    dma := { invs := s.dma.invs.filter (fun q => !q.own) }
    charter := s.charter
    bufCorrected := s.bufCorrected
    bufUncorrectable := s.bufUncorrectable
    leave :=
      { budget := s.leave.budget, floor := s.leave.floor, defTimeout := s.leave.defTimeout
        warnTh := s.leave.warnTh, warnStop := s.leave.warnStop, kinds := s.leave.kinds
        irel := s.leave.irel, icls := s.leave.icls }
    log := { s.log with staged := [], views := [], faultStatus := 0 } }

/-- A reset input's cause bit (R45). -/
def State.resetBit (s : State) (prog : Bool) : State :=
  s.modMode (fun m =>
    if prog then { m with causeProg := true, progLow := true } else { m with causeSys := true, sysLow := true })

/-- SYS_RST_N or PROG_N is low for 1 µs (R31 T2, R34, R210): in RESET it joins the reset in progress,
and a T3 under way is pre-empted: CFG_RST_N is driven low again until the next one (R209). -/
def State.resetInput (s : State) (prog : Bool) : State :=
  if s.mode.mode = .reset then
    (s.modMode (fun m => { m with
      trans := m.trans.filter (fun t => t.id != 3), cfgRstLow := true })).resetBit prog
  else s.resetKeeping.resetBit prog

/-- POWER_ON_RESET (R224, R31 T1). -/
def execPowerOnReset (s : State) : Host.Outcome State Fault Refusal := answer s.powerOn

/-- SYS_RST_N_LOW (R210, R31 T2). -/
def execSysRstNLow (s : State) : Host.Outcome State Fault Refusal := answer (s.resetInput false)

/-- PROG_N_LOW (R210, R31 T2). -/
def execProgNLow (s : State) : Host.Outcome State Fault Refusal := answer (s.resetInput true)

/-- T3 begins (R31): T1 or T2 has completed, the straps are latched (R136), the self-test of the
pairs gives its result (R391), and the timebase finds its reference (R427). -/
def State.beginT3 (s : State) (chainFirst bench : Bool) (pull : Nat) (pass : BitVec 8) (ref : Nat) :
    State :=
  let counted := s.mode.trans.isSome
  let s := s.modMode (fun m => { m with
    changes := if counted then (m.changes + 1) % 256 else m.changes
    sysLow := false, progLow := false, porActive := false
    chainFirst := chainFirst, benchEn := bench, shorePull := some pull, cfgRstLow := false })
  let s := overAll 8 (fun p s =>
    s.modPair p (fun x => { x with selftest := !pass.getLsbD p, retired := !pass.getLsbD p })) s
  let s := s.modTb (fun b => { b with ref := ref, holdover := ref == 0 })
  s.startTrans 3 .load

/-- RESET_RELEASE (R31 T3, R136, R391, R427): every reset input is high and power-on reset has
completed. -/
def execResetRelease (chainFirst bench : Bool) (pull : Fin 3) (selftestPass : BitVec 8) (tbRef : Fin 4)
    (s : State) : Host.Outcome State Fault Refusal :=
  answer (if s.mode.mode ≠ .reset ∨ s.mode.trans.any (fun t => t.id == 3) then s
    else s.beginT3 chainFirst bench pull selftestPass tbRef)

/-- TRANSITION_COMPLETE (R31, R32, R34, R45, R48, R49). -/
def execTransitionComplete (s : State) : Host.Outcome State Fault Refusal := answer s.completeTransition

/-! ## Commands (R46) -/

/-- Junction temperature below 115 °C (R31, guard of T13). -/
def State.coolEnough (s : State) : Bool := decide (s.leave.temp.junction < 460)

/-- A command while no transition is in progress; one in progress refuses it (R34, R46). -/
def State.command (s : State) (cmd : Nat) (f : State → State) : State :=
  if s.mode.trans.isSome then s.cmdRefused cmd 5 else f s

/-- The mode that T11 ends in, by what holds now (R31, R35). -/
def State.resumeTarget (s : State) : Mode := if s.anyQuarantine || s.unitRetired then .degraded else .run

/-- ENTER_SERVICE (R46): T10, or T13 from HOLD, where FREEZE is ignored. -/
def State.enterService (s : State) (freeze : Bool) : State :=
  s.command 1 (fun s =>
    match s.mode.mode with
    | .run | .degraded => s.acceptCmd 1 10 .service freeze
    | .hold => if s.coolEnough then s.acceptCmd 1 13 .service else s.cmdRefused 1 3
    | _ => s.cmdRefused 1 3)

/-- RESUME (R46): T11 where its guard holds, else T12 where its own does. -/
def State.resume (s : State) : State :=
  s.command 2 (fun s =>
    if s.mode.mode ≠ .service then s.cmdRefused 2 3
    else if s.mode.wakeDone && !s.mode.globalWritten then s.acceptCmd 2 11 s.resumeTarget
    else
      let ok := s.straitsWritten
      let s := s.fixFrames (fun n => 8064 ≤ n)
      if ok then
        (s.acceptCmd 2 12 .wake).modMode (fun m => { m with wakeFaultKept := some m.faultShown })
      else s.cmdRefused 2 3)

/-- LEAVE_TEST (R46): T15. -/
def State.leaveTestCmd (s : State) : State :=
  s.command 3 (fun s =>
    if s.mode.mode = .test then s.acceptCmd 3 15 .service else s.cmdRefused 3 3)

/-- FREEZE_ON and FREEZE_OFF (R40, R46): done at once. -/
def State.freezeCmd (s : State) (cmd : Nat) (on : Bool) : State :=
  s.command cmd (fun s =>
    if s.mode.mode.serviceLike then
      (s.freeze on).modMode (fun m => { m with lastCmd := cmd, result := 2 })
    else s.cmdRefused cmd 3)

/-- A write of SUP_MODE_CMD (R46): CMD and FREEZE. -/
def State.writeModeCmd (s : State) (v : Nat) : State :=
  match field v 0 4 with
  | 1 => s.enterService (bitAt v 4)
  | 2 => s.resume
  | 3 => s.leaveTestCmd
  | 4 => s.freezeCmd 4 true
  | 5 => s.freezeCmd 5 false
  | c => s.command c (fun s => s.cmdRefused c 3)

/-- ENTER_SERVICE (R46). -/
def execEnterService (freeze : Bool) (s : State) : Host.Outcome State Fault Refusal :=
  answer (s.supRow (fun s => s.enterService freeze))

/-- RESUME (R46). -/
def execResume (s : State) : Host.Outcome State Fault Refusal := answer (s.supRow State.resume)

/-- LEAVE_TEST (R46). -/
def execLeaveTest (s : State) : Host.Outcome State Fault Refusal := answer (s.supRow State.leaveTestCmd)

/-- FREEZE_ON (R40, R46). -/
def execFreezeOn (s : State) : Host.Outcome State Fault Refusal :=
  answer (s.supRow (fun s => s.freezeCmd 4 true))

/-- FREEZE_OFF (R40, R46). -/
def execFreezeOff (s : State) : Host.Outcome State Fault Refusal :=
  answer (s.supRow (fun s => s.freezeCmd 5 false))

/-- RESERVED_MODE_CMD (R46): a CMD value that is not listed. A listed one is its own command. -/
def execReservedModeCmd (cmd : BitVec 4) (s : State) : Host.Outcome State Fault Refusal :=
  answer (if 1 ≤ cmd.toNat ∧ cmd.toNat ≤ 5 then s
    else s.supRow (fun s => s.writeModeCmd cmd.toNat))

/-! ## The unlock sequence (R47) -/

def unlockFirst : Nat := 0x7E570001
def unlockSecond : Nat := 0x7E5700FE

/-- The second write of a good sequence. -/
def State.unlockGood (s : State) : State :=
  if s.locked .testLock then s.cmdRefused 0xF 4 else s.acceptCmd 0xF 14 .test

/-- A write of SUP_TEST_UNLOCK. -/
def State.writeUnlock (s : State) (v : Nat) : State :=
  let was := s.mode.unlock
  let s := s.modMode (fun m => { m with unlock := false })
  if s.mode.mode = .reset then s
  else if s.mode.trans.isSome then s.cmdRefused 0xF 5
  else if s.mode.mode ≠ .service then s.cmdRefused 0xF 3
  else if was ∧ v = unlockSecond then s.unlockGood
  else
    let s := if was ∨ v ≠ unlockFirst then s.cmdRefused 0xF 3 else s
    if v = unlockFirst then s.modMode (fun m => { m with unlock := true }) else s

/-- TEST_UNLOCK_WRITE (R47). -/
def execTestUnlockWrite (key : Word) (s : State) : Host.Outcome State Fault Refusal :=
  answer (s.fromHost (fun s => s.writeUnlock key.toNat))

/-- TEST_UNLOCK_EXPIRY (R47): 1 ms without the second write. -/
def execTestUnlockExpiry (s : State) : Host.Outcome State Fault Refusal := answer s.breakUnlock

end Sys2Proof.Machine
end

