-- ==== Sys2Proof/Machine/PortProtocols.lean ====
section
/-! DEFINITION. What single protocols add (R445 to R476): CAN bus-off recovery, SENT and PSI5 pulses,
periodic SPI transfers, I3C interrupts and address assignment; and the port registers. -/

namespace Sys2Proof.Machine

/-! ## CAN (R450) -/

/-- A write of RECOVER. -/
def State.canRecover (s : State) (p : Nat) : State :=
  s.modPort p (fun x => { x with recovering := x.recovering || x.busOff })

/-- HP_CAN_STATUS. -/
def canStatus (x : Port) : Nat :=
  let st := if x.busOff then 2 else if 127 < x.tec || 127 < x.rec_ then 1 else 0
  place (min x.tec 255) 0 8 + place x.rec_ 8 8 + place st 16 2 + place x.lastError 18 3 + place x.tdc 21 7

/-! ## I3C (R466 to R469) -/

/-- PID of an I3C partner. -/
def Partner.pid (x : Partner) : Nat := x.addr1 + 2 ^ 32 * field x.addr2 0 16

/-- DA and SA of an I3C partner. -/
def Partner.da (x : Partner) : Nat := field x.addr0 0 7
def Partner.sa (x : Partner) : Nat := field x.addr0 8 7

/-- The VALID partners of a port that have a given property and that address assignment may serve. -/
def State.i3cOf (s : State) (p : Nat) (is : Nat → Bool) : List Partner :=
  ((s.partnersOf p).filter (fun e => is e.1 && !bitAt e.2.addr0 7)).map Prod.snd

/-- The VALID partners of a port that address assignment serves. -/
def State.i3cPartners (s : State) (p : Nat) : List Partner := s.i3cOf p (fun _ => true)

/-- Those that it serves now: every one where the start sequence runs whole, else those made VALID since the port's
start and not addressed yet. -/
def State.i3cServed (s : State) (p : Nat) : List Partner :=
  s.i3cOf p (fun i => (s.port p).starting || (s.port p).unaddressed.contains i)

/-- A CCC on the bus: its code broadcast, and what follows. -/
def State.i3cCcc (s : State) (p code : Nat) (rest : List Byte) : State :=
  s.emit (.portTx p (i3cAddress i3cBroadcast false :: BitVec.ofNat 8 code :: rest))

/-- A target holds an address. -/
def State.i3cHolds (s : State) (p da : Nat) : State :=
  s.modPort p (fun x => { x with addrs := if x.addrs.contains da then x.addrs else x.addrs ++ [da] })

/-- The byte that assigns an address in ENTDAA: with odd parity. -/
def i3cAssign (a : Nat) : Byte := BitVec.ofNat 8 (2 * a + (1 - (List.range 7).countP (bitAt a) % 2))

/-- The highest free address below 0x3E: nobody holds it, and it is no partner's. -/
def State.freeAddr (s : State) (p : Nat) : Option Nat :=
  let used := (s.port p).addrs ++ (s.partnersOf p).map (fun e => e.2.da)
  ((List.range 54).map (fun k => 0x3D - k)).find? (fun a => !used.contains a)

/-- A target whose PID matches no partner receives an address. -/
def State.unknownTarget (s : State) (p pid : Nat) : State :=
  match s.freeAddr p with
  | none => s
  | some a =>
    (((s.modPort p (fun x => { x with unknown := satAdd 255 x.unknown 1 })).i3cHolds p a).emit
      (.portTx p [i3cAssign a])).event 0x0543 1 (scopeO (s.portOwner p)) [(1, p), (3, 0), (6, pid), (1, a)]

/-- Step 3 of R467: SETDASA for the partners with USE_SA; a target that acknowledges its static address holds the
partner's. -/
def State.setDasa (s : State) (p : Nat) (xs : List Partner) (acks : List Nat) : State :=
  overList (xs.filter (fun x => bitAt x.addr0 15)) (fun x s =>
    let s := s.i3cCcc p 0x87 [i3cAddress x.sa false, BitVec.ofNat 8 (2 * x.da)]
    if acks.contains x.sa then s.i3cHolds p x.da else s) s

/-- Step 4: ENTDAA gives each target that answers the address of the partner with its PID. -/
def State.entDaa (s : State) (p : Nat) (pids : List Nat) : State :=
  overList pids (fun pid s =>
    match (s.i3cPartners p).find? (fun x => x.pid == pid) with
    | some x => (s.emit (.portTx p [i3cAssign x.da])).i3cHolds p x.da
    | none => s.unknownTarget p pid) (s.i3cCcc p 0x07 [])

/-- Step 5: ENEC(ENINT) to each partner with IBI_EN. -/
def State.enableIbis (s : State) (p : Nat) (xs : List Partner) : State :=
  overList (xs.filter (fun x => bitAt x.addr0 16)) (fun x s =>
    s.i3cCcc p 0x80 [i3cAddress x.da false, 0x01]) s

/-- Steps 1 to 6 of R467, or steps 3 to 5 for the partners made VALID since. DISEC names every event: in-band
interrupts, controller requests and Hot-Join. -/
def State.assignAddresses (s : State) (p : Nat) (scan : I3cScan) : State :=
  let run := (s.port p).starting
  let xs := s.i3cServed p
  let s := if run then
      ((s.modPort p (fun x => { x with addrs := [] })).i3cCcc p 0x06 []).i3cCcc p 0x01 [0x0B]
    else s
  if !run && xs.isEmpty then s
  else
    let s := (((s.setDasa p xs scan.acks).entDaa p scan.pids).enableIbis p xs).modPort p (fun x => { x with
      unaddressed := [] })
    if run then
      (((s.modPort p (fun x => { x with starting := false, daaDone := true })).event 0x0542 0
        (scopeO (s.portOwner p)) [(1, p), (3, 0), (1, (s.port p).addrs.length)]).txWake p).nextDue p
    else s

/-- A write of REDO_DAA runs the start sequence again. -/
def State.redoDaa (s : State) (p : Nat) : State :=
  if s.portActive p && s.portType p == 5 then
    s.modPort p (fun x => { x with starting := true, daaDone := false, addrs := [] })
  else s

/-- An in-band interrupt (R469). Its stamp carries above bit 63 the number of steps and sets since (R434). -/
def State.i3cInterrupt (s : State) (p da : Nat) (mdb : Byte) (data : List Byte) (stamp : Nat) : State :=
  if !(s.portActive p && s.portType p == 5) then s
  else if (s.partnersOf p).any (fun e => bitAt e.2.addr0 16 && field e.2.addr0 0 7 == da) then
    let bytes := leBytes 4 (mdb.toNat + 256) ++ data.take 255
    if s.corrupts p then
      ((s.corruptDone p).rxError p).rejectOf p (fun x => bitAt x.addr0 16 && field x.addr0 0 7 == da)
    else
      s.goodFrame p { payload := bytes, stamp := stamp % 2 ^ 64, epoch := s.epochAt (stamp / 2 ^ 64), ibi := some da }
  else s.modPort p (fun x => { x with rxUnmatched := satInc32 x.rxUnmatched })

/-! ## Registers (R413, R414, R444) -/

/-- HP_T1S_STATUS: a coordinator sends beacons; whether a follower receives them the rules do not say. -/
def State.t1sStatus (s : State) (p : Nat) : Nat × State :=
  let x := s.port p
  let plca := s.portActive p && s.setup p 2 16 1 == 1
  if plca && s.setup p 3 0 8 != 0 then
    let (n, s) := s.draw
    (flag (Config.freeLevel n) 0 + place x.collisions 16 16, s)
  else (flag plca 0 + place x.collisions 16 16, s)

/-- A protocol register read. -/
def State.protoRead (s : State) (p off : Nat) : Nat × State :=
  let x := s.port p
  if off ≠ 0x100 then (0, s)
  else match s.portType p with
    | 1 => (canStatus x, s)
    | 2 => (place x.lastTick 0 17 + place x.noResponse 24 8, s)
    | 3 => (place x.syncCount 0 16 + place x.slotSeen 16 6, s)
    | 4 => (x.skipped, s.modPort p (fun x => { x with skipped := 0 }))
    | 5 => (place (min 32 x.addrs.length) 0 6 + flag x.daaDone 6 + place x.unknown 8 8, s)
    | 6 => s.t1sStatus p
    | _ => (0, s)

/-- A read of a port register. PORT and HOME of HP_ID read p and p/2, as the Reset column of the register's table
has them; its heading gives 0 for the whole register (DESIGN CHOICE, log 55). -/
def State.portRead (s : State) (p off : Nat) : Nat × State :=
  let x := s.port p
  match off with
  | 0x000 => (place (s.portType p) 0 4 + place p 4 7 + place (p / 2) 11 6, s)
  | 0x004 => (bnat x.run, s)
  | 0x008 => (s.hpState p, s)
  | 0x010 => (x.rxGood, s.modPort p (fun x => { x with rxGood := 0 }))
  | 0x014 => (x.rxUnmatched, s.modPort p (fun x => { x with rxUnmatched := 0 }))
  | 0x018 => (x.rxErrors, s.modPort p (fun x => { x with rxErrors := 0 }))
  | 0x01C => (x.rxOverflow, s.modPort p (fun x => { x with rxOverflow := 0 }))
  | 0x020 => (x.txGood, s.modPort p (fun x => { x with txGood := 0 }))
  | 0x024 => (x.txFailed, s.modPort p (fun x => { x with txFailed := 0 }))
  | _ => s.protoRead p off

/-- A write of a port register. -/
def State.portWrite (s : State) (p off v : Nat) : State :=
  match off with
  | 0x004 => s.writePortCtrl p v
  | 0x104 =>
    if !bitAt v 0 then s
    else if s.portType p = 1 then s.canRecover p
    else if s.portType p = 5 then s.redoDaa p
    else s
  | _ => s

/-- A read of the harbour global sub-block (R414). -/
def State.harbourRead (s : State) (off : Nat) : Nat × State :=
  match off with
  | 0x000 | 0x004 | 0x008 => (maskOf 32 (fun n => s.portActive (8 * off + n)), s)
  | 0x010 | 0x014 | 0x018 => (maskOf 32 (fun n => (s.port (8 * (off - 0x010) + n)).retired), s)
  | 0x020 => (s.bufCorrected, { s with bufCorrected := 0 })
  | 0x024 => (s.bufUncorrectable, { s with bufUncorrectable := 0 })
  | _ => (0, s)

/-! ## Commands -/

/-- I3C_IBI (R469). -/
def execI3cIbi (p : PortId) (da : Nat) (mdb : Byte) (data : List Byte) (stamp : Nat) (s : State) :
    Host.Outcome State Fault Refusal :=
  answer (s.i3cInterrupt p da mdb data stamp)

/-- CAN_RECOVERED (R450): 128 occurrences of 11 recessive bits have passed. -/
def execCanRecovered (p : PortId) (s : State) : Host.Outcome State Fault Refusal :=
  let x := s.port p
  answer (if s.portActive p && x.busOff && x.recovering then
      (s.modPort p (fun x => { x with busOff := false, recovering := false, tec := 0, rec_ := 0 })).event
        0x0541 0 (scopeO (s.portOwner p)) [(1, p), (3, 0), (4, min 0xFFFFFFFF ((s.coreNs - x.offSince) / 1000))]
    else s)

/-- CAN_RECOVER (R450). -/
def execCanRecover (p : PortId) (s : State) : Host.Outcome State Fault Refusal :=
  answer (s.fromHost (fun s => if s.mode.mode != .reset && s.portType p == 1 then s.canRecover p else s))

/-- CAN_TX_TIMEOUT (R449): the frame being sent has not left within TX_TIMEOUT. -/
def execCanTxTimeout (p : PortId) (s : State) : Host.Outcome State Fault Refusal :=
  answer (if s.portActive p && s.portType p == 1 && s.setup p 3 7 9 != 0 && !(s.port p).txq.isEmpty then
      (s.txFails p 1).txEnds p 0x13 4
    else s)

/-- SENT_SPC_PULSE (R456): the next pulse of a CONTINUOUS arming. -/
def execSentSpcPulse (i : PartnerId) (s : State) : Host.Outcome State Fault Refusal :=
  let p := (s.partner i).port
  answer (if s.periodic 2 i && s.setup p 1 17 1 == 1 then s.dueTransfer p i else s)

/-- SENT_NO_RESPONSE (R456): the requested frame has not begun within 2 ms; the next pulse due goes out. A frame
that comes yet follows the pulse (R453). -/
def execSentNoResponse (p : PortId) (s : State) : Host.Outcome State Fault Refusal :=
  answer (if s.portActive p && s.portType p == 2 && (s.port p).requested.isSome then
      (s.modPort p (fun x => { x with requested := none, noResponse := satAdd 255 x.noResponse 1 })).nextDue p
    else s)

/-- PSI5_SYNC (R460): the next pulse of the port's sequence. -/
def execPsi5Sync (p : PortId) (s : State) : Host.Outcome State Fault Refusal :=
  answer (if s.setup p 1 1 1 == 1 && (s.partnersOf p).any (fun e => s.periodic 3 e.1) then s.syncPulse p
    else s)

/-- SPI_PERIODIC_TRANSFER (R463): the next transfer, or one skipped because it is a whole PERIOD
late. -/
def execSpiPeriodicTransfer (i : PartnerId) (late : Bool) (s : State) :
    Host.Outcome State Fault Refusal :=
  let p := (s.partner i).port
  answer (if !s.periodic 4 i then s
    else if late then s.modPort p (fun x => { x with skipped := satInc32 x.skipped })
    else s.dueTransfer p i)

/-- I3C_START_SEQUENCE (R467). -/
def execI3cStartSequence (p : PortId) (scan : I3cScan) (s : State) :
    Host.Outcome State Fault Refusal :=
  answer (if s.portActive p && s.portType p == 5 then s.assignAddresses p scan else s)

/-- REDO_DAA (R467). -/
def execRedoDaa (p : PortId) (s : State) : Host.Outcome State Fault Refusal :=
  answer (s.fromHost (fun s => s.redoDaa p))

end Sys2Proof.Machine
end

