-- ==== Sys2Proof/Machine/TestUnit.lean ====
section
/-! DEFINITION. The test unit (R513 to R524): its registers and what each control does. -/

namespace Sys2Proof.Machine

/-- The controls of the test unit, without what only reports. -/
def Ptu.controls (u : Ptu) : Ptu :=
  { u with lastClear := 0, qRefused := false, qSeen := 0, injResult := 0, pfResult := 0 }

/-! ## Queue pressure (R520) -/

/-- Queues that are not forced, and report full to PTU_QFULL_SEEN when they are named (R27; DEDUCED, log 22). -/
def reportsFull (n : Nat) : Bool := n == 3 || n == 16 || n == 21

/-- Crossings that may be forced. -/
def forcible (n : Nat) : Bool :=
  n == 1 || n == 2 || n == 4 || (11 ≤ n && n ≤ 14) || (17 ≤ n && n ≤ 19)

/-- A forcing ends. -/
def State.pressureEnds (s : State) : State :=
  (s.modPtu (fun u => { u with qCycles := 0, qSince := 0 })).pressureOver

/-- A write of PTU_QFULL: QUEUE takes a crossing of R24, PORT a port, CYCLES any number (R6, R7). A crossing
that cannot be forced sets REFUSED, and nothing is forced: a forcing in progress ends, since a new write
replaces it (R520, log 22). -/
def State.writeQfull (s : State) (v : Nat) : State :=
  let n := field v 0 5
  let cycles := field v 16 16
  let s := s.pressureEnds.modPtu (fun u => { u with
    qQueue := if 1 ≤ n ∧ n ≤ 24 then n else u.qQueue
    qPort := if field v 8 7 < 96 then field v 8 7 else u.qPort
    qRefused := !forcible n
    qCycles := cycles
    qSince := if cycles = 0 then 0 else s.coreNs })
  if cycles ≠ 0 ∧ (forcible n ∨ reportsFull n) then s.noteFull n else s

/-- Core cycles of forced full still to run. -/
def State.qLeft (s : State) : Nat :=
  if s.ptu.qCycles = 0 then 0 else max 1 (s.ptu.qCycles - (s.coreNs - s.ptu.qSince) * 2 / 5)

/-! ## Check-word injection (R521) -/

/-- The check word with the bits of a PTU_INJECT value inverted. -/
def injected (check : Word) (v : Nat) : Word :=
  let c := check ^^^ BitVec.ofNat 32 (2 ^ field v 0 5)
  if bitAt v 5 then c ^^^ BitVec.ofNat 32 (2 ^ field v 8 5) else c

/-- The RESULT of an injection. -/
def State.injectResult (s : State) (v : Nat) : Nat :=
  let n := s.ptu.injIndex
  let f := s.frame n
  if 8191 < n then 2
  else if 8064 ≤ n ∧ !s.ptu.injFatal ∧ !(secCheck (faddrOf n) f.data (injected f.check v)).2.passes then 3
  else if bitAt v 5 ∧ field v 0 5 = field v 8 5 then 4
  else match frameIsland n with
    | some i => if (s.isl i).loadState = .open ∨ s.repairOn i then 5 else 1
    | none => 1

/-- A write of PTU_INJECT. -/
def State.inject (s : State) (v : Nat) : State :=
  if !bitAt v 31 then s
  else
    let result := s.injectResult v
    let n := s.ptu.injIndex
    let s := s.modPtu (fun u => { u with injResult := result })
    if result ≠ 1 then s
    else
      let f := s.frame n
      (s.setFrame n { f with check := injected f.check v }).event 0x0A02 0 scopeS
        [(2, faddrOf n), (1, if bitAt v 5 then 2 else 1), (1, 0), (2, field v 0 5)]

/-! ## Pair faults (R522) -/

/-- A write of PTU_PAIR_FAULT. -/
def State.writePairFault (s : State) (v : Nat) : State :=
  let p := field v 0 3
  let s := s.modPtu (fun u => { u with pfPair := p })
  if !bitAt v 3 ∨ s.ptu.pfGo then s
  else if (s.pair p).retired then s.modPtu (fun u => { u with pfResult := 2 })
  else if s.pairsInService < 3 then s.modPtu (fun u => { u with pfResult := 3 })
  else s.modPtu (fun u => { u with pfGo := true, pfResult := 0 })

/-! ## The registers (R513, R515) -/

/-- A write of PTU_LEAVE. -/
def State.writePtuLeave (s : State) (v : Nat) : State :=
  s.modPtu (fun u => { u with
    lvKinds := field v 0 8, lvDeny := bitAt v 8
    lvDelay := if field v 12 20 ≤ 1000000 then field v 12 20 else u.lvDelay })

/-- A write of PTU_ATC_MISS: what a function has been answered under the old setting serves nothing under the new
one (R518). -/
def State.writeAtcMiss (s : State) (v : Nat) : State :=
  overAll 32 (fun r t => if bitAt v (ringTenant r) != bitAt s.ptu.atcMiss (ringTenant r) then t.staleFresh r else t)
    (s.modPtu (fun u => { u with atcMiss := v % 256 }))

/-- A write at an offset, in TEST. -/
def State.ptuSet (s : State) (off v : Nat) : State :=
  let z : Nat → Nat := fun _ => 0
  if off = 0x1C0 then s.writeAtcMiss v
  else if off = 0x200 then s.writeQfull v
  else if off = 0x204 then
    s.modPtu (fun u => { u with qSeen := s.qSeenAfter (maskOf 25 (fun n => bitAt u.qSeen n && !bitAt v n)) })
  else if off = 0x600 then s.writePtuLeave v
  else if off = 0x640 then s.modPtu (fun u => { u with
    tbSlow := if field v 0 21 ≤ 1073742 then field v 0 21 else u.tbSlow })
  else if off = 0x800 then s.modPtu (fun u => { u with injIndex := field v 0 13, injFatal := bitAt v 31 })
  else if off = 0x804 then s.inject v
  else if off = 0x900 then s.writePairFault v
  else if off % 4 ≠ 0 then s
  else if 0x100 ≤ off ∧ off < 0x180 then s.modPtu (fun u => { u with
    dbDelay := tabSet z u.dbDelay ((off - 0x100) / 4) (v % 65536) })
  else if 0x180 ≤ off ∧ off < 0x1A0 then s.modPtu (fun u => { u with
    stretch := tabSet z u.stretch ((off - 0x180) / 4) (v % 65536) })
  else if 0x400 ≤ off ∧ off < 0x580 then s.modPtu (fun u => { u with
    rxCorrupt := tabSet z u.rxCorrupt ((off - 0x400) / 4) (v % 2 ^ 17) })
  else s

/-- A write at an offset of the sub-block: nothing outside TEST; a changed control is logged. -/
def State.ptuWrite (s : State) (off v : Nat) : State :=
  if s.mode.mode ≠ .test then s
  else
    let t := s.ptuSet off v
    if t.ptu.controls = s.ptu.controls then t
    else t.event 0x0A01 0 scopeS [(2, off), (2, 0), (4, v)]

/-- A read at an offset of the sub-block. -/
def State.ptuRead (s : State) (off : Nat) : Nat :=
  let u := s.ptu
  let z : Nat → Nat := fun _ => 0
  if off = 0x000 then bnat (s.mode.mode == .test) + place u.lastClear 1 3
  else if s.mode.mode ≠ .test then 0
  else if off = 0x1C0 then u.atcMiss
  else if off = 0x200 then place u.qQueue 0 5 + place u.qPort 8 7 + flag u.qRefused 15 + place s.qLeft 16 16
  else if off = 0x204 then u.qSeen
  else if off = 0x600 then place u.lvKinds 0 8 + flag u.lvDeny 8 + place u.lvDelay 12 20
  else if off = 0x640 then u.tbSlow
  else if off = 0x800 then place u.injIndex 0 13 + flag u.injFatal 31
  else if off = 0x808 then place u.injResult 1 3
  else if off = 0x900 then place u.pfPair 0 3 + flag u.pfGo 3 + place u.pfResult 4 3
  else if off % 4 ≠ 0 then 0
  else if 0x100 ≤ off ∧ off < 0x180 then tabGet z u.dbDelay ((off - 0x100) / 4)
  else if 0x180 ≤ off ∧ off < 0x1A0 then tabGet z u.stretch ((off - 0x180) / 4)
  else if 0x400 ≤ off ∧ off < 0x580 then tabGet z u.rxCorrupt ((off - 0x400) / 4)
  else 0

/-! ## Commands -/

/-- QUEUE_PRESSURE (R520). -/
def execQueuePressure (v : Word) (s : State) : Host.Outcome State Fault Refusal :=
  answer (s.supRow (fun s => s.ptuWrite 0x200 v.toNat))

/-- QUEUE_PRESSURE_END (R520). -/
def execQueuePressureEnd (s : State) : Host.Outcome State Fault Refusal :=
  answer (if s.ptu.qCycles = 0 then s else s.pressureEnds)

/-- DOORBELL_DELAY_END (R516): the ring's oldest held write is applied. -/
def execDoorbellDelayEnd (r : RingId) (s : State) : Host.Outcome State Fault Refusal :=
  answer (match s.ptuHeld.items.find? (fun i => match i with | .tail p _ => p == r.val | .cpl .. => false) with
    | some i => s.letGo i
    | none => s)

/-- DMA_STRETCH_END (R517). -/
def execDmaStretchEnd (tag : Nat) (s : State) : Host.Outcome State Fault Refusal :=
  answer (match s.ptuHeld.items.find? (fun i => match i with | .cpl t _ _ => t == tag | .tail .. => false) with
    | some i => s.letGo i
    | none => s)

/-- CHECK_WORD_INJECT (R521): a write of PTU_INJECT with GO = 1. -/
def execCheckWordInject (v : Word) (s : State) : Host.Outcome State Fault Refusal :=
  answer (s.supRow (fun s => s.ptuWrite 0x804 (v ||| 0x80000000#32).toNat))

/-- PAIR_FAULT_ARM (R522): a write of PTU_PAIR_FAULT with GO = 1. -/
def execPairFaultArm (v : Word) (s : State) : Host.Outcome State Fault Refusal :=
  answer (s.supRow (fun s => s.ptuWrite 0x900 (v ||| 8).toNat))

/-- LEAVE_DELAY_END (R523). -/
def execLeaveDelayEnd (who : Asker) (s : State) : Host.Outcome State Fault Refusal :=
  answer (if s.leave.queue.any (fun q => q.who == who && q.held) then
      s.modLeave (fun l => { l with
        queue := l.queue.map (fun q => if q.who = who then { q with held := false } else q)
        stale := true })
    else s)

/-- TB_SLOW_WRITE (R524). -/
def execTbSlowWrite (v : Word) (s : State) : Host.Outcome State Fault Refusal :=
  answer (s.supRow (fun s => s.ptuWrite 0x640 v.toNat))

end Sys2Proof.Machine
end

