-- ==== Sys2Proof/Machine/Thermal.lean ====
section
/-! DEFINITION. The thermal sensors (R488). Temperatures are in quarters of a degree. -/

namespace Sys2Proof.Machine

/-- Integers in ascending order. -/
def insertInt (x : Int) : List Int → List Int
  | [] => [x]
  | y :: ys => if x ≤ y then x :: y :: ys else y :: insertInt x ys

/-- Twice the median of readings; of an even number, the mean of the two middle ones. -/
def median2 (l : List Int) : Int :=
  let a := l.foldr insertInt []
  let n := a.length
  if n % 2 = 1 then 2 * a.getD (n / 2) 0 else a.getD (n / 2 - 1) 0 + a.getD (n / 2) 0

/-- The sensors not excluded, with their readings. -/
def Thermal.kept (t : Thermal) (sensors : List Int) : List (Nat × Int) :=
  ((List.range 8).filter (fun k => !t.excluded.getLsbD k)).map (fun k => (k, sensors.getD k 0))

/-- Sensors more than 15 degrees off the median are excluded. -/
def State.excludeSensors (s : State) (sensors : List Int) : State :=
  let kept := s.leave.temp.kept sensors
  let m := median2 (kept.map Prod.snd)
  overList kept (fun e s =>
    if 120 < 2 * e.2 - m ∨ 120 < m - 2 * e.2 then
      let bit := BitVec.ofNat 8 (2 ^ e.1)
      (s.modLeave (fun l => { l with temp := { l.temp with excluded := l.temp.excluded ||| bit } })).event
        0x0713 1 scopeS [(1, e.1), (1, 0), (2, wrapInt 16 e.2), (2, wrapInt 16 (m / 2))]
    else s) s

/-- The junction temperature and the sensor that gives it: the highest reading, or 125 degrees while
fewer than four sensors remain. -/
def hottest (kept : List (Nat × Int)) : Int × Nat :=
  match kept with
  | [] => (500, 0)
  | e :: rest =>
    let h := rest.foldl (fun (a : Nat × Int) b => if a.2 < b.2 then b else a) e
    (if kept.length < 4 then 500 else h.2, h.1)

/-- WARN is set or cleared after its run of samples; a grant that WARN_STOP held back may now pass. -/
def State.warnStep (s : State) (j : Int) : State :=
  let l := s.leave
  let warn := if 4 * (l.warnTh : Int) ≤ j then min 10 (l.temp.warnRun + 1) else 0
  let cool := if j < 4 * ((l.warnTh : Int) - 5) then min 100 (l.temp.coolRun + 1) else 0
  let set := fun (s : State) (on : Bool) => s.modLeave (fun l => { l with
    temp := { l.temp with warn := on, warnRun := 0, coolRun := 0 }, stale := true })
  if !l.temp.warn && warn = 10 then
    (((set s true).event 0x0710 1 scopeG [(2, l.temp.max), (1, l.temp.sensor)]).faultBit 6).raise 0 10
  else if l.temp.warn && cool = 100 then
    ((set s false).event 0x0711 0 scopeG [(2, l.temp.max)]).raise 0 10
  else s.modLeave (fun l => { l with temp := { l.temp with
    warnRun := if l.temp.warn then 0 else warn, coolRun := if l.temp.warn then cool else 0 } })

/-- The critical limit: its second sample of a run is a HOLD cause. -/
def State.criticalStep (s : State) (j : Int) : State :=
  let run := if 500 ≤ j then min 3 (s.leave.temp.critRun + 1) else 0
  let s := s.modLeave (fun l => { l with temp := { l.temp with critRun := run } })
  if run = 2 then
    (s.event 0x0712 3 scopeG
      [(2, s.leave.temp.max), (1, s.leave.temp.sensor), (1, s.mode.mode.code)]).holdCause 7
  else s

/-- THERMAL_SAMPLE (R488). -/
def execThermalSample (sensors : List Int) (s : State) : Host.Outcome State Fault Refusal :=
  answer (if s.mode.mode = .reset then s
    else
      let s := s.excludeSensors sensors
      let (j, k) := hottest (s.leave.temp.kept sensors)
      let s := s.modLeave (fun l => { l with
        temp := { l.temp with max := wrapInt 12 j, sensor := k, junction := j } })
      (s.warnStep j).criticalStep j)

end Sys2Proof.Machine
end

