-- ==== Sys2Proof/Machine/Tide.lean ====
section
/-! DEFINITION. The tide (R183 to R191), repairs and re-checks (R192 to R199), the repair traffic of the
chain (R154, R194), and the end of a release (R181). -/

namespace Sys2Proof.Machine

/-! ## Findings (R187, R190) -/

/-- The scope of a frame's events: the island's owner, or G outside islands (R505). -/
def State.frameScope (s : State) (n : Nat) : Nat :=
  match frameIsland n with
  | some i => scopeO (s.islandOwner i)
  | none => scopeG

/-- The island that an event of a frame shows. -/
def islandShown (n : Nat) : Nat := (frameIsland n).getD 0xFF

/-- TIDE_LAST_FIND (R200). -/
def lastFindOf (n syn : Nat) (f : Finding) : Nat := place (faddrOf n) 0 16 + place f.code 16 3 + place syn 20 12

/-- A correctable finding of the tide: counted, shown and logged, and the frame corrected in place (R187). -/
def State.correct (s : State) (n syn : Nat) (f : Finding) : State :=
  let s := s.modTide (fun t => { t with corrected := satInc32 t.corrected, lastFind := lastFindOf n syn f })
  let s := s.event 0x0301 0 (s.frameScope n)
    [(1, islandShown n), (1, 0), (2, faddrOf n), (2, syn), (1, f.code)]
  s.fixFrame n f

/-- An UNCORRECTABLE or ADDRESS_MISMATCH finding is counted, shown and logged (R190, R202). -/
def State.reportBad (s : State) (n syn : Nat) (f : Finding) : State :=
  let miss := f == Finding.addressMismatch
  let shown := if miss then field (s.frame n).check.toNat 16 16 else syn
  let s := s.modTide (fun t => { t with
    uncorrectable := if miss then t.uncorrectable else satInc32 t.uncorrectable
    mismatch := if miss then satInc32 t.mismatch else t.mismatch
    lastFind := lastFindOf n syn f })
  (s.event (if miss then 0x0303 else 0x0302) 2 (s.frameScope n)
    [(1, islandShown n), (1, 0), (2, faddrOf n), (2, shown)]).tideNotice

/-- The action for a finding of a sweep, on the frame as it stands at its slot (R189, R190). -/
def State.actOn (s : State) (n : Nat) : State :=
  let (syn, f) := s.findingOf n
  if f = .clean then s
  else if f.passes then s.correct n syn f
  else
    let s := s.reportBad n syn f
    match frameIsland n with
    | some i => s.quarantine i n
    | none => s.holdCause (if n < 8160 then 5 else 6)

/-- An uncorrectable finding holds the tide while X13 is full (R24, R27, R191). -/
def State.tideHeld (s : State) (n : Nat) : Bool := s.forcedFull 13 && !(s.findingOf n).2.passes

/-! ## The sweep (R184 to R186) -/

/-- The tide runs: enabled, and in a mode in which it sweeps (R37). -/
def State.tideRuns (s : State) : Bool :=
  s.tide.enabled && (s.mode.mode.executes || s.mode.mode == .hold)

/-- A re-check takes the tide's reads (R184). -/
def State.rechecking (s : State) : Bool := s.tide.now.any (fun r => r.phase == .recheck)

/-- The slot of a frame is spent without a read (R186, R189). -/
def State.slotSkipped (s : State) (n : Nat) : Bool :=
  match frameIsland n with
  | some i => (s.isl i).loadState == .open || s.repairing i
  | none => false

/-- A burst ends (R185). -/
def State.burstEnds (s : State) : State :=
  let t := s.tide
  let s := (s.modTide (fun t => { t with burst := false })).leaveFree (· == Asker.burst)
  (s.event 0x0307 0 scopeS [(1, 0xFF), (1, 0), (2, faddrOf t.burstFirst), (4, t.burstCycles)]).tideNotice

/-- The tide moves on to the next slot: one slot for each of the 8,192 frames a sweep (R184, R189). -/
def State.nextSlot (s : State) : State :=
  let n := s.tide.position
  let s := s.modTide (fun t => { t with
    position := (n + 1) % 8192
    sweeps := if n = 8191 then (t.sweeps + 1) % 65536 else t.sweeps
    burstLeft := if t.burst then t.burstLeft - 1 else t.burstLeft
    burstCycles := if t.burst then t.burstCycles + 50 else t.burstCycles })
  if s.tide.burst && s.tide.burstLeft == 0 then s.burstEnds else s

/-- TIDE_SLOT (R184, R186, R190). A frame is read as it stands at its slot, so an upset of its latches or its check
word is found at its next slot, at the latest one sweep later where the slot is not skipped (R189). -/
def execTideSlot (s : State) : Host.Outcome State Fault Refusal :=
  let n := s.tide.position
  answer (if !s.tideRuns || s.rechecking then s
    else if s.slotSkipped n then s.nextSlot
    else if s.tideHeld n then s
    else (s.actOn n).nextSlot)

/-- A write of TIDE_CTRL (R185): a burst asks for its leave. -/
def State.writeTideCtrl (s : State) (v : Nat) : State :=
  if bitAt v 0 && s.tide.enabled && !s.tide.burst && !s.tide.burstWait then
    (s.modTide (fun t => { t with burstWait := true })).leaveAsk (s.deviceReq .burst s.leave.defaultNs)
  else s

/-- TIDE_BURST (R185). -/
def execTideBurst (s : State) : Host.Outcome State Fault Refusal :=
  answer (s.supRow (fun s => s.writeTideCtrl 1))

/-- A write of TIDE_PERIOD (R200). -/
def State.writeTidePeriod (s : State) (v : Nat) : State :=
  let p := field v 0 20
  if 8192 ≤ p ∧ p ≤ 1000000 then s.modTide (fun t => { t with period := p }) else s

/-- A write of TIDE_STATUS: BURST_DENIED W1C. -/
def State.writeTideStatus (s : State) (v : Nat) : State :=
  s.modTide (fun t => { t with burstDenied := t.burstDenied && !bitAt v 3 })

/-- A write of TIDE_QPOLICY_LO or _HI, whose first island is `base`: frozen by CHARTER_LOCK. -/
def State.writeQpolicy (s : State) (base v : Nat) : State :=
  if s.locked .charterLock then s
  else overAll (min 32 (48 - base)) (fun k s => s.modIsl (base + k) (fun x => { x with keep := bitAt v k })) s

/-- TIDE_STATUS, TIDE_ISLAND_i and TIDE_CHECK_ADDR (R200). REPAIR_ACTIVE reads 1 also while the keeper serves
another device's REPAIR_REQ only (DESIGN CHOICE, log 61). -/
def State.tideStatus (s : State) : Nat :=
  let t := s.tide
  flag t.enabled 0 + flag t.burst 1 + flag t.now.isSome 2 + flag t.burstDenied 3 + place t.sweeps 16 16

def State.tideIsland (s : State) (i : Nat) : Nat :=
  let x := s.isl i
  flag x.sealed 0 + flag x.command 1 + flag x.load 2 + flag x.quarantine 3 + flag x.flr 4 +
    flag x.hold 5 + place x.loadState.code 8 2 + flag x.replaced 10 + flag x.leaveDenied 11 +
    place x.repair 12 4 + place x.qcount 16 4

def State.tideCheckAddr (s : State) : Nat := place s.tide.checkAddr 0 13 + flag s.tide.checkValid 31

/-! ## Check words (R200) -/

/-- A write of TIDE_CHECK_ADDR starts a readback. -/
def State.writeCheckAddr (s : State) (v : Nat) : State :=
  s.modTide (fun t => { t with checkAddr := field v 0 13, checkValid := false, checkAsked := true })

/-- CHECK_WORD_READBACK (R200). -/
def execCheckWordReadback (index : Nat) (s : State) : Host.Outcome State Fault Refusal :=
  answer (s.supRow (fun s => s.writeCheckAddr index))

/-- CHECK_WORD_READY (R200). -/
def execCheckWordReady (s : State) : Host.Outcome State Fault Refusal :=
  answer (if s.tide.checkAsked && !s.forcedFull 12 then
      s.modTide (fun t => { t with
        checkAsked := false, checkValid := true, checkWord := (s.frame t.checkAddr).check })
    else s)

/-! ## Golden frames (R145, R193) -/

/-- What the golden walk finds. -/
inductive GoldenResult where
  | record (data : BitVec 2048)
  /-- the section holds no record of the frame -/
  | absent
  /-- a record whose CRC fails, with its CRC -/
  | corrupt (data : BitVec 2048) (crc : Word)
  /-- the section cannot be followed, or not be read -/
  | lost
  deriving DecidableEq, Repr

/-- The walk of R193: the address reached, FAR's dense index, the records left in the packet. -/
def Flash.goldenWalk (f : Flash) (stop n : Nat) : Nat → Nat → Option Nat → Nat → GoldenResult
  | 0, _, _, _ => .lost
  | fuel + 1, a, far, left =>
    if left ≠ 0 then
      match far with
      | none => .lost
      | some k =>
        if n < k ∨ k / 168 ≠ n / 168 then .absent
        else if k = n then
          let bytes := f.bytes a 256
          let data := BitVec.ofNat 2048 (leNat bytes)
          if crc32c (leBytes 4 (faddrOf n) ++ bytes) = f.word (a + 256) then .record data
          else .corrupt data (f.word (a + 256))
        else Flash.goldenWalk f stop n fuel (a + 260) (if k = 8191 then none else some (k + 1)) (left - 1)
    else if stop < a + 4 then .lost
    else
      let h := (f.word a).toNat
      let c := field h 0 16
      if field h 24 8 ≠ 0xC5 then .lost
      else match field h 16 8 with
        | 0x00 | 0x05 => Flash.goldenWalk f stop n fuel (a + 4 + 4 * c) far 0
        | 0x06 => Flash.goldenWalk f stop n fuel (a + 8) (denseOf (f.num (a + 4) 2)) 0
        | 0x07 => Flash.goldenWalk f stop n fuel (a + 4) far (c / 65)
        | 0x0F => .absent
        | _ => .lost

/-- The golden frame of dense index n in the section of a chain index (R193). -/
def State.goldenFrame (s : State) (idx n : Nat) : GoldenResult :=
  let c := s.ldr.copy
  if c = 0 then .lost
  else match tabGet (fun _ => none) s.ldr.golden (8 * (n / 168) + idx) with
    | none => .absent
    | some e =>
      let sec := s.flash.personality c idx
      s.flash.goldenWalk (copyBase c + sec.off + sec.slen) n sec.slen (copyBase c + e.off) (denseOf e.faddr)
        (e.words / 65)

/-! ## Repairs (R192 to R199) -/

/-- The third quarantine within 60 s (R197). -/
def Isl.repeats (x : Isl) : Bool :=
  match x.qtimes with
  | a :: _ :: c :: _ => decide (a - c < 60000000000)
  | _ => false

/-- A REPAIR_REQ for a frame (R149, R194). -/
def State.requestRepair (s : State) (n : Nat) : State :=
  s.sendUp 0xA [reg32 [place (faddrOf n) 0 16, place s.ldr.chainIndex 16 3]]

/-- The golden frame is read from the flash, or asked for on the chain. -/
def State.seekGolden (s : State) (r : Repair) (n : Nat) : State :=
  let phase := if s.mode.chainFirst then RepairPhase.golden else .answer
  let s := s.modTide (fun t => { t with now := some { r with frame := n, phase := phase } })
  if s.mode.chainFirst then s else s.requestRepair n

/-- The repair of an island starts (R193, R195, R197). A load on the island that has opened while the repair waited
does not keep it from starting (DESIGN CHOICE, log 61): R198 speaks of a load that opens while a repair is in
progress. -/
def State.startRepair (s : State) (i n : Nat) : State :=
  if (s.isl i).repeats then
    (s.repairFailed i n 7).event 0x0309 2 (scopeO (s.islandOwner i))
      [(1, i), (1, 0), (2, faddrOf n), (1, (s.isl i).qcount)]
  else if (s.isl i).replaced then s.repairFailed i n 3
  else s.seekGolden { job := .island i, frame := n, first := n } n

/-- The re-check of a completed load starts (R198). -/
def State.startRecheck (s : State) (i : Nat) (rest : List Nat) : State :=
  let n := (s.isl i).qframe
  s.modTide (fun t => { t with
    rechecks := rest
    now := some { job := .island i, frame := n, first := n, phase := .recheck, afterLoad := true } })

/-- The next of the repairs that wait starts (R193); in HOLD those of other devices alone (R154, R199). -/
def State.startQueued (s : State) : State :=
  match s.tide.queue.find? (fun q => s.executing || !q.1.own) with
  | none => s
  | some (job, n) =>
    let s := s.modTide (fun t => { t with queue := t.queue.erase (job, n) })
    match job with
    | .island i => s.startRepair i n
    | .chain _ _ => s.modTide (fun t => { t with now := some { job := job, frame := n, first := n } })

/-- REPAIR_START (R193, R198): what arose first starts once the keeper is free; the re-check after a
load goes before the queue. In HOLD, where nothing of this device is repaired, other devices are still
served (R37, R154). -/
def execRepairStart (s : State) : Host.Outcome State Fault Refusal :=
  answer (if s.tide.now.isSome ∨ !(s.mode.mode.executes || s.mode.mode == .hold) then s
    else match s.executing, s.tide.rechecks with
      | true, i :: rest => s.startRecheck i rest
      | _, _ => s.startQueued)

/-- A repair ends without success. -/
def State.repairEndsBad (s : State) (i n result : Nat) : State :=
  (s.modTide (fun t => { t with now := none })).repairFailed i n result

/-- What a frame holds whose write has failed its test twice: no rule gives it, so it is free (log 54). -/
def State.spoilFrame (s : State) (n : Nat) : State :=
  let (k, s) := s.draw
  let v := Config.freeValue k
  ((s.setFrame n { data := BitVec.ofNat 2048 v, check := BitVec.ofNat 32 (v / 2 ^ 2048) }).unmarkFrame n).ioChanged n

/-- The golden data is written to the frame and verified; the island re-check follows (R192, R193). A write
of an I/O column frame stops the home ports (R173). `failed`: the write has failed its test twice. -/
def State.writeGolden (s : State) (r : Repair) (i : Nat) (data : BitVec 2048) (failed : Bool) : State :=
  let s := if 160 ≤ r.frame % 168 then s.stopHomePorts i else s
  if failed then (s.spoilFrame r.frame).repairEndsBad i r.frame 6
  else
    let s := (s.writeFrame r.frame data).markFrame r.frame
    s.modTide (fun t => { t with now := some { r with rewritten := r.rewritten + 1, phase := .recheck } })

/-- A golden read waits for the flash operation in progress: one that SFDP does not let it suspend (R165). -/
def Flash.holdsRead (f : Flash) : Bool := f.busy.isSome && !f.suspends

/-- GOLDEN_FRAME_READ (R193, R165): `failed`, the frame's write has failed its test twice. The keeper repairs
nothing in WAKE (R37). -/
def execGoldenFrameRead (failed : Bool) (s : State) : Host.Outcome State Fault Refusal :=
  answer (if !s.mode.mode.executes || s.flash.holdsRead || s.forcedFull 11 || s.forcedFull 14 then s
    else match s.tide.now with
    | some r =>
      match r.job, r.phase with
      | .island i, .golden =>
        match s.goldenFrame s.ldr.chainIndex r.frame with
        | .lost | .corrupt _ _ => s.repairEndsBad i r.frame 4
        | .absent => s.writeGolden r i 0 failed
        | .record data => s.writeGolden r i data failed
      | _, _ => s
    | none => s)

/-- REPAIR_ANSWER_TIMEOUT (R194): 2.1 s without an answer. -/
def execRepairAnswerTimeout (s : State) : Host.Outcome State Fault Refusal := answer s.noAnswer

/-- What a re-check comes to: its end, an uncorrectable frame, or one whose finding X13 has no room for
(R191). -/
inductive Recheck where
  | clean
  | bad (n : Nat)
  | held (n : Nat)
  deriving DecidableEq, Repr

/-- The frames of a re-check from one on, as many as are left. -/
def State.recheckFrames : Nat → State → Nat → Recheck × State
  | 0, s, _ => (.clean, s)
  | left + 1, s, n =>
    if s.tideHeld n then (.held n, s)
    else
    let (syn, f) := s.findingOf n
    let s := s.modTide (fun t => { t with burstCycles := if t.burst then t.burstCycles + 50 else t.burstCycles })
    if f = .clean then State.recheckFrames left s (n + 1)
    else if f.passes then State.recheckFrames left (s.correct n syn f) (n + 1)
    else (.bad n, s.reportBad n syn f)

/-- The re-check has passed (R192 step 5, R195, R196, R198): nothing of the island waits at the keeper any
more. -/
def State.recheckPasses (s : State) (r : Repair) (i : Nat) : State :=
  let s := (s.modTide (fun t => { t with now := none })).dropWaiting i
  let s := s.modIsl i (fun x => { x with repair := if r.afterLoad then x.repair else 2, healed := true })
  let s := (s.event 0x0305 0 (scopeO (s.islandOwner i))
    [(1, i), (1, 0), (2, faddrOf r.first), (2, r.rewritten)]).tideNotice
  if (s.isl i).keep then
    (s.modIsl i (fun x => { x.endQuarantine with command := true })).recoverCause
  else s.autoRelease i .repairEnd

/-- RECHECK_COMPLETE (R192): the re-check goes on to its end, or to an uncorrectable frame, which is
repaired before it continues. It is the tide's, which is off in WAKE (R184). -/
def execRecheckComplete (s : State) : Host.Outcome State Fault Refusal :=
  answer (if !s.mode.mode.executes then s
    else match s.tide.now with
    | some r =>
      match r.job, r.phase with
      | .island i, .recheck =>
        match s.recheckFrames (168 - r.place) (i * 168 + r.place) with
        | (.clean, s) => s.recheckPasses r i
        | (.held n, s) => s.modTide (fun t => { t with now := some { r with place := n % 168 } })
        | (.bad n, s) =>
          if r.afterLoad then (s.modIsl i (fun x => { x with replaced := true })).repairEndsBad i n 3
          else s.seekGolden { r with place := n % 168 + 1 } n
      | _, _ => s
    | none => s)

/-! ## The chain's repair traffic (R154, R194) -/

/-- Repair traffic runs after the wake. -/
def State.repairTraffic (s : State) : Bool :=
  match s.mode.mode with
  | .reset | .load => false
  | _ => true

/-- REPAIR_REQ (R154): the first device queues it, others pass it on. -/
def execChainRepairReq (frame : List Word) (overflow : Bool) (s : State) : Host.Outcome State Fault Refusal :=
  answer (s.fromBelow 0xA frame overflow (fun p s =>
    let v := wordAt p 0
    if !s.repairTraffic then s
    else if s.mode.chainFirst then
      match denseOf (field v 0 16) with
      | some n => s.modTide (fun t => { t with
          queue := t.queue ++ [(.chain (field v 0 16) (field v 16 3), n)] })
      | none => s
    else s.sendUp 0xA p))

/-- REPAIR_DATA for a device (R149): the record as the section holds it, its CRC with it, which the device that
asked checks (R194). A section that cannot be followed, or not be read, gives no record: there is no answer
(DEDUCED, log 16). -/
def State.answerRepair (s : State) (faddr idx : Nat) (g : GoldenResult) : State :=
  let send := fun (data : BitVec 2048) (crc : Word) (none_ : Bool) =>
    (s.queueDown 6 0
      (reg32 [place faddr 0 16, place idx 16 3, flag none_ 19] :: natWords 64 data.toNat ++ [crc])).pump
  match g with
  | .record data => send data (recordCrc faddr (natWords 64 data.toNat)) false
  | .corrupt data crc => send data crc false
  | .absent => send 0 (recordCrc faddr (natWords 64 0)) true
  | .lost => s

/-- REPAIR_ANSWER (R154): the flash read for another device completes; `failed`, it has not given the
section. -/
def execChainRepairAnswer (failed : Bool) (s : State) : Host.Outcome State Fault Refusal :=
  answer (match s.tide.now with
    | some r =>
      match r.job with
      | .chain faddr idx =>
        if s.flash.holdsRead || s.forcedFull 14 then s
        else
        let s := s.modTide (fun t => { t with now := none })
        s.answerRepair faddr idx (if failed then .lost else s.goldenFrame idx r.frame)
      | .island _ => s
    | none => s)

/-- REPAIR_DATA at the device that asked (R194): written and verified as R193 states. One for another frame than
the one asked for is ignored, and the wait goes on (DESIGN CHOICE, log 61). -/
def State.takeAnswer (s : State) (p : List Word) (failed : Bool) : State :=
  let v := wordAt p 0
  match s.tide.now with
  | some r =>
    match r.job, r.phase with
    | .island i, .answer =>
      let words := (p.drop 1).take 64
      if field v 0 16 ≠ faddrOf r.frame then s
      else if bitAt v 19 then s.writeGolden r i 0 failed
      else if recordCrc (field v 0 16) words = p.getD 65 0 then
        s.writeGolden r i (BitVec.ofNat 2048 (wordsNat words)) failed
      else s.repairEndsBad i r.frame 4
    | _, _ => s
  | none => s

/-- A good answer for this device waits in its link, its sender without the credit, while X11 reports full and in
WAKE, where the keeper repairs nothing (R24, R27, R37, R150). -/
def State.answerHeld (s : State) (frame : List Word) (overflow : Bool) : Bool :=
  (s.forcedFull 11 || s.mode.mode == .wake) && s.repairTraffic && frameType frame == 6 &&
    field (wordAt (framePayload frame) 0) 16 3 == s.ldr.chainIndex &&
    (frameError true s.chain.rxUp frame overflow).isNone

/-- REPAIR_DATA (R154, R194): `failed`, the frame's write has failed its test twice. -/
def execChainRepairData (frame : List Word) (overflow failed : Bool) (s : State) :
    Host.Outcome State Fault Refusal :=
  answer (if s.answerHeld frame overflow then s else s.fromAbove 6 frame overflow (fun p s =>
    if !s.repairTraffic then s.giveCredit
    else if field (wordAt p 0) 16 3 = s.ldr.chainIndex then
      s.giveCredit.takeAnswer p failed
    else s.forward 6 0 p))

/-! ## The end of a release (R181, R182) -/

/-- Steps 3 to 5 of a release: of one that the freeze kept waiting, its steps 3 and 5 (R41, R182). -/
def State.releaseEnds (s : State) (i : Nat) (rel : Release) : State :=
  let s := (((s.unseal i (s.releaseMech i rel)).releaseBank i).refreshHome i).leaveEnding (isRelease i)
  let s := overList rel.rings (fun r s => s.wakeThread r 0 0) s
  s.recoverCause

/-- ISLAND_RELEASE_DONE (R181): the conditions of R178 hold to its end, or the release ends as R179
states. On the way to HOLD and in HOLD its lease is kept and it waits (R482). While the fabric is frozen it waits; once the clocks have restarted it is the end of the registers' reset
(R41). -/
def execIslandReleaseDone (i : IslandId) (s : State) : Host.Outcome State Fault Refusal :=
  answer (match (s.isl i).release with
    | some rel =>
      if !rel.granted || s.mode.frozen || s.mode.mode == .wake || s.holds then s
      else if rel.mech = .instruction ∧ (s.ownerRings i rel) = [] then
        (s.endRelease i 0x21).releaseLeaseEnds i
      else
        let s := overList rel.rings (fun r s =>
          if (s.ownerRings i rel).contains r then s else s.wakeThread r 0x21 0) s
        let rel := { rel with rings := s.ownerRings i rel }
        let s := s.modIsl i (fun x => { x with release := some rel })
        match s.releaseRefusal i with
          | some status => s.stopRelease i status
          | none =>
            if s.clearsAll (s.releaseMech i rel) i then s.releaseEnds i rel else s.stopRelease i 0x28
    | none => s)

end Sys2Proof.Machine
end

