-- ==== Sys2Proof/Machine/Windows.lean ====
section
/-! DEFINITION. The window table of each function (R239 to R244): its registers and its rows. -/

namespace Sys2Proof.Machine

/-! ## Registers (R239) -/

/-- BASE and LEN are ignored while STATE is CHECKING or VALID. -/
def Win.inUse (w : Win) : Bool := w.state == .checking || w.state == .valid

/-- A write of TEN_WIN_BASE. -/
def State.writeWinBase (s : State) (t n v : Nat) : State :=
  s.modWin t n (fun w => if w.inUse then w else { w with base := field v 12 20 })

/-- A write of TEN_WIN_LEN: PAGES keeps its value under one that the table does not list (R6). -/
def State.writeWinLen (s : State) (t n v : Nat) : State :=
  let k := field v 0 11
  s.modWin t n (fun w => if w.inUse then w else { w with pages := if 1 ≤ k ∧ k ≤ 1024 then k else w.pages })

/-- What a write of TEN_WIN_CTRL makes of a window (R239, R243). REQ = 1 starts a check of a window
that is INVALID or REFUSED, also of one that a REQ = 0 is still letting go; a change of RD or WR starts one of a
window in use. REQ = 0 lets a window go, and accesses that come after it miss. -/
def Win.control (w : Win) (v : Nat) : Win :=
  let req := bitAt v 0
  let rd := bitAt v 1
  let wr := bitAt v 2
  let changed := rd != w.rd || wr != w.wr
  let x := { w with req := req, rd := rd, wr := wr }
  if w.closing then (if req && !w.inUse then { x with state := .checking, reason := 0, closing := false } else x)
  else if !req then { x with closing := w.state != .invalid }
  else if !w.inUse || changed then { x with state := .checking, reason := 0 }
  else x

/-- A write of TEN_WIN_CTRL. -/
def State.writeWinCtrl (s : State) (t n v : Nat) : State := s.modWin t n (fun w => w.control v)

/-- A write of TEN_WIN_STATUS: MISS is W1C. -/
def State.writeWinStatus (s : State) (t n v : Nat) : State :=
  s.modWin t n (fun w => { w with miss := w.miss && !bitAt v 8 })

/-- A register of the window table, by its offset in the table. -/
def State.winRead (s : State) (t off : Nat) : Nat :=
  let w := s.win t (off / 16 % 64)
  match off % 16 with
  | 0 => place w.base 12 20
  | 4 => w.pages
  | 8 => flag w.req 0 + flag w.rd 1 + flag w.wr 2
  | 12 => place w.state.code 0 2 + place w.reason 4 4 + flag w.miss 8
  | _ => 0

/-- A write of a register of the window table. -/
def State.winWrite (s : State) (t off v : Nat) : State :=
  let n := off / 16 % 64
  match off % 16 with
  | 0 => s.writeWinBase t n v
  | 4 => s.writeWinLen t n v
  | 8 => s.writeWinCtrl t n v
  | 12 => s.writeWinStatus t n v
  | _ => s

/-! ## The check (R240, R241) -/

/-- The modes in which a check ends (R241). -/
def State.checksEnd (s : State) : Bool :=
  s.mode.mode != .reset && s.mode.mode != .load && s.mode.mode != .wake

/-- A window check ends. -/
def State.checkWindow (s : State) (t n : Nat) : State :=
  let w := s.win t n
  if w.state ≠ .checking ∨ w.closing ∨ !s.checksEnd then s
  else
    let reason := s.windowReason t w
    if reason = 0 then s.modWin t n (fun w => { w with state := .valid, reason := 0 })
    else s.refuseWindow t n reason

/-- A window let go reads INVALID once the accesses accepted before are served (R243). -/
def State.closeWindow (s : State) (t n : Nat) : State :=
  if s.windowPending t (s.win t n) then s
  else s.modWin t n (fun w =>
    if w.closing then { w with state := .invalid, reason := 0, closing := false } else w)

/-! ## What a window maps (R242) -/

/-- The DIA address of an access of a permitted kind inside a VALID window, none for a miss. -/
def Win.target (w : Win) (write : Bool) (o : Nat) : Option Nat :=
  if w.state == .valid && !w.closing && decide (o < w.pages * 4096) && (if write then w.wr else w.rd)
  then some (w.base * 4096 + o) else none

/-- A miss. -/
def State.windowMiss (s : State) (t n : Nat) : State := s.modWin t n (fun w => { w with miss := true })

/-! ## Commands -/

/-- WINDOW_REQUEST (R239, R240): a write of TEN_WIN_CTRL with REQ = 1. -/
def execWindowRequest (t : TenantId) (n : WindowId) (v : Word) (s : State) :
    Host.Outcome State Fault Refusal :=
  answer (s.hostWriting t (fun s => s.writeWinCtrl t n (v ||| 1).toNat))

/-- WINDOW_CHECK_DONE (R241). -/
def execWindowCheckDone (t : TenantId) (n : WindowId) (s : State) : Host.Outcome State Fault Refusal :=
  answer (s.checkWindow t n)

/-- WINDOW_INVALIDATE (R243): a write of TEN_WIN_CTRL with REQ = 0; RD and WR keep their values. -/
def execWindowInvalidate (t : TenantId) (n : WindowId) (s : State) : Host.Outcome State Fault Refusal :=
  answer (s.hostWriting t (fun s =>
    let w := s.win t n
    s.writeWinCtrl t n (flag w.rd 1 + flag w.wr 2)))

/-- WINDOW_INVALID_DONE (R243). -/
def execWindowInvalidDone (t : TenantId) (n : WindowId) (s : State) :
    Host.Outcome State Fault Refusal :=
  answer (s.closeWindow t n)

end Sys2Proof.Machine
end

