-- ==== Sys2Proof/Machine/Registers.lean ====
section
/-! DEFINITION. The supervisor block (R14, R237) and the tenant control map of each function (R236):
every register's read and write, by offset. A read may clear or latch, so it gives a state too. -/

namespace Sys2Proof.Machine

/-! ## Mode and identity (R45, R97, R221, R259, R284, R504, R509, R510) -/

/-- SUP_CLK_STATUS (R97); CS_EN is EN of the setups in effect. -/
def State.clkStatus (s : State) : Nat :=
  let c := s.clocks
  c.lock.toNat + place (maskOf 4 s.synthEn) 4 4 + place c.loss.toNat 8 4 + place c.lineActive.toNat 16 16

/-- SUP_LINK_STATUS (R259). -/
def State.linkStatus (s : State) : Nat :=
  let l := s.link
  place l.speed 0 3 + place l.width 3 4 + flag l.l1 7 + place l.downs 16 8 + place l.perstCount 24 8

/-- SUP_FN_STATE (R259). -/
def State.fnState (s : State) : Nat :=
  ((List.range 8).map (fun t =>
    let f := s.fn t
    place (flag f.d3hot 0 + flag f.flr.isSome 1 + flag f.bme 2 + flag f.mse 3) (4 * t) 4)).sum

/-- SUP_ATC_STATUS (R284). -/
def State.atcStatus (s : State) : Nat := s.dma.atcRetired.toNat + place s.dma.atcParity 8 8

/-- SUP_SILICON (R510). -/
def supSilicon : Nat := 0x01014800

/-- SUP_LEVELS (R510). -/
def State.supLevels (s : State) : Nat := place s.ldr.kil 0 16 + place s.ldr.pml 16 16

/-- SUP_PERS_STATE (R510). -/
def State.persState (s : State) : Nat :=
  place s.ldr.persPath 0 2 + flag s.ldr.persPartial 2 + flag s.ldr.persForced 3

/-- Bits of a bank register: banks 32 k and on (R221). -/
def bankBits (k : Nat) (p : Nat → Bool) : Nat := maskOf 32 (fun n => 32 * k + n < 48 && p (32 * k + n))

/-- A read of the mode and identity sub-block. -/
def State.identRead (s : State) (off : Nat) : Nat × State :=
  match off with
  | 0x000 => (s.supMode, s)
  | 0x008 => (s.supCmdStatus, s)
  | 0x010 => (s.supResetCause, s)
  | 0x014 => (2 * s.mode.noticeEn, s)
  | 0x080 => (s.clkStatus, s)
  | 0x090 => (bankBits 0 s.bankPresent, s)
  | 0x094 => (bankBits 1 s.bankPresent, s)
  | 0x098 => (bankBits 0 s.bankLive, s)
  | 0x09C => (bankBits 1 s.bankLive, s)
  | 0x0A0 => (s.linkStatus, s)
  | 0x0A4 => (s.fnState, s)
  | 0x0A8 => (s.link.ltrLast, s)
  | 0x0B0 => (s.atcStatus, s)
  | 0x0C0 => (bnat s.log.policy, s)
  | 0x0C4 => (s.log.next, s)
  | 0x0C8 => (s.log.ack, s)
  | 0x0CC => (s.log.unack, s)
  | 0x0D0 => (s.log.overflow, s.modLog (fun l => { l with overflow := 0 }))
  | 0x0E0 => (s.log.faultStatus.toNat, s)
  | 0x0E4 => (s.log.faultEn.toNat, s)
  | 0x100 => (supSilicon, s)
  | 0x104 => (lo32 Config.dsn, s)
  | 0x108 => (hi32 Config.dsn, s)
  | 0x10C => (supIdcode, s)
  | 0x110 => (1, s)
  | 0x114 => (s.supLevels, s)
  | 0x118 => (wordAt s.ldr.stampRegs 0, s)
  | 0x11C => (wordAt s.ldr.stampRegs 1, s)
  | 0x120 => (wordAt s.ldr.stampRegs 2, s)
  | 0x124 => (wordAt s.ldr.stampRegs 3, s)
  | 0x128 => (s.persState, s)
  | 0x12C => (s.ldr.containerSeq, s)
  | _ => (0, s)

/-- A write of SUP_RESET_CAUSE: W1C. -/
def State.writeResetCause (s : State) (v : Nat) : State :=
  s.modMode (fun m => { m with
    causePor := m.causePor && !bitAt v 0
    causeSys := m.causeSys && !bitAt v 1
    causeProg := m.causeProg && !bitAt v 2 })

/-- A write of SUP_FAULT_EN: RWL under CHARTER_LOCK (R509). -/
def State.writeFaultEn (s : State) (v : Nat) : State :=
  if s.locked .charterLock then s else s.modLog (fun l => { l with faultEn := BitVec.ofNat 12 v })

/-- A write of LOG_CTRL: a choice of STOP while no room is left begins the LOG_FULL condition (R496, R509). -/
def State.writePolicy (s : State) (v : Nat) : State :=
  let t := s.modLog (fun l => { l with policy := bitAt v 0 })
  if s.log.full then t else t.noteLogFull

/-- A write of the mode and identity sub-block but for SUP_TEST_UNLOCK. -/
def State.identWrite (s : State) (off v : Nat) : State :=
  match off with
  | 0x004 => s.writeModeCmd v
  | 0x010 => s.writeResetCause v
  | 0x014 => s.modMode (fun m => { m with noticeEn := field v 1 7 })
  | 0x080 => s.modClocks (fun c => { c with loss := c.loss &&& ~~~(BitVec.ofNat 4 (field v 8 4)) })
  | 0x0C0 => s.writePolicy v
  | 0x0C8 => s.writeAck v
  | 0x0E0 => s.writeFaultStatus v
  | 0x0E4 => s.writeFaultEn v
  | _ => s

/-! ## Loader (R160) -/

/-- A read of the loader sub-block; the flash buffer stands at 0x1000. -/
def State.ldrRead (s : State) (off : Nat) : Nat :=
  match off with
  | 0x000 => s.ldrStatus
  | 0x010 => s.ldr.locks.toNat
  | 0x014 => s.ldr.timeout
  | 0x018 => flag s.ldr.forceHost 0 + flag s.ldr.forceBoot 1
  | 0x030 => s.ldr.hostWords
  | 0x040 => s.flash.addr
  | 0x044 => s.flash.len
  | 0x04C => s.flashStatus
  | _ => if 0x1000 ≤ off ∧ off < 0x2000 then (memWord 0 s.flash.buffer (off - 0x1000)).toNat else 0

/-- A write of the loader sub-block. -/
def State.ldrWrite (s : State) (off v : Nat) : State :=
  match off with
  | 0x010 => s.writeLock v
  | 0x014 => s.writeTimeout v
  | 0x018 => s.writeBench v
  | 0x020 => s.writeHostCtrl v
  | 0x028 => s.deliverWords .host [BitVec.ofNat 32 v]
  | 0x040 => s.writeFlashAddr v
  | 0x044 => s.writeFlashLen v
  | 0x048 => s.writeFlashCmd v
  | _ => if 0x1000 ≤ off ∧ off < 0x2000 then s.writeFlashBuffer (off - 0x1000) v else s

/-! ## Tide (R200) -/

/-- Bits of a tide register: islands 32 k and on. -/
def State.islandBits (s : State) (k : Nat) (p : Isl → Bool) : Nat :=
  maskOf 32 (fun n => 32 * k + n < 48 && p (s.isl (32 * k + n)))

/-- A read of the tide sub-block. -/
def State.tideRead (s : State) (off : Nat) : Nat × State :=
  match off with
  | 0x004 => (s.tide.period, s)
  | 0x008 => (s.tideStatus, s)
  | 0x00C => (s.tide.position, s)
  | 0x010 => (s.tide.corrected, s.modTide (fun t => { t with corrected := 0 }))
  | 0x014 => (s.tide.uncorrectable, s.modTide (fun t => { t with uncorrectable := 0 }))
  | 0x018 => (s.tide.mismatch, s.modTide (fun t => { t with mismatch := 0 }))
  | 0x01C => (s.tide.lastFind, s)
  | 0x020 => (s.islandBits 0 Isl.quarantined, s)
  | 0x024 => (s.islandBits 1 Isl.quarantined, s)
  | 0x028 => (s.islandBits 0 Isl.keep, s)
  | 0x02C => (s.islandBits 1 Isl.keep, s)
  | 0x030 => (s.tideCheckAddr, s)
  | 0x034 => (s.tide.checkWord.toNat, s)
  | _ =>
    if 0x100 ≤ off ∧ off < 0x1C0 ∧ off % 4 = 0 then (s.tideIsland ((off - 0x100) / 4), s) else (0, s)

/-- A write of the tide sub-block. -/
def State.tideWrite (s : State) (off v : Nat) : State :=
  match off with
  | 0x000 => s.writeTideCtrl v
  | 0x004 => s.writeTidePeriod v
  | 0x008 => s.writeTideStatus v
  | 0x028 => s.writeQpolicy 0 v
  | 0x02C => s.writeQpolicy 32 v
  | 0x030 => s.writeCheckAddr v
  | _ => s

/-! ## Power leave (R489) -/

/-- LEAVE_STATUS. -/
def State.leaveStatus (s : State) : Nat :=
  let l := s.leave
  l.reservedShown + flag l.overBudget 12 + place l.queue.length 16 7 + place l.leases.length 23 9

/-- LEAVE_TEMP. -/
def State.leaveTemp (s : State) : Nat :=
  let t := s.leave.temp
  place t.max 0 12 + place t.sensor 12 3 + flag t.warn 15 + place t.excluded.toNat 16 8

/-- A read of the power leave sub-block. -/
def State.leaveRead (s : State) (off : Nat) : Nat × State :=
  let l := s.leave
  match off with
  | 0x000 => (l.budget, s)
  | 0x004 => (l.floor, s)
  | 0x008 => (s.leaveStatus, s)
  | 0x00C => (l.measuredShown, s)
  | 0x010 => (min 4095 l.peak, s.modLeave (fun l => { l with peak := 0 }))
  | 0x014 => (l.defTimeout, s)
  | 0x020 => (l.denials, s.modLeave (fun l => { l with denials := 0 }))
  | 0x024 => (l.timeouts, s.modLeave (fun l => { l with timeouts := 0 }))
  | 0x040 => (s.leaveTemp, s)
  | 0x044 => (place l.warnTh 0 8 + flag l.warnStop 8, s)
  | _ =>
    if off % 4 ≠ 0 then (0, s)
    else if 0x108 ≤ off ∧ off < 0x118 then (l.kindReg ((off - 0x100) / 4), s)
    else if 0x200 ≤ off ∧ off < 0x2C0 then (l.irelReg ((off - 0x200) / 4), s)
    else if 0x400 ≤ off ∧ off < 0x700 then (tabGet (fun _ => 0) l.icls ((off - 0x400) / 4), s)
    else (0, s)

/-- A write of LEAVE_THERM_CTRL: a threshold outside 85 to 120 leaves the field. -/
def State.writeThermCtrl (s : State) (v : Nat) : State :=
  let w := field v 0 8
  s.modLeave (fun l => { l with
    warnTh := if 85 ≤ w ∧ w ≤ 120 then w else l.warnTh
    warnStop := bitAt v 8
    stale := true })

/-- A write of LEAVE_DEF_TIMEOUT. -/
def State.writeDefTimeout (s : State) (v : Nat) : State :=
  let us := field v 0 20
  if 100 ≤ us ∧ us ≤ 1000000 then s.modLeave (fun l => { l with defTimeout := us }) else s

/-- A write of the power leave sub-block. -/
def State.leaveWrite (s : State) (off v : Nat) : State :=
  match off with
  | 0x000 => s.writeBudget v
  | 0x004 => s.writeFloor v
  | 0x014 => s.writeDefTimeout v
  | 0x044 => s.writeThermCtrl v
  | _ =>
    if off % 4 ≠ 0 then s
    else if 0x108 ≤ off ∧ off < 0x118 then
      s.modLeave (fun l => { l with kinds := tabSet leaveKindReset l.kinds ((off - 0x100) / 4) v })
    else if 0x200 ≤ off ∧ off < 0x2C0 then
      s.modLeave (fun l => { l with irel := tabSet leaveIrelReset l.irel ((off - 0x200) / 4) v })
    else if 0x400 ≤ off ∧ off < 0x700 then
      s.modLeave (fun l => { l with icls := tabSet (fun _ => 0) l.icls ((off - 0x400) / 4) v })
    else s

/-! ## The supervisor block (R237) -/

/-- A read of the supervisor block at an offset from its base. -/
def State.supRead (s : State) (who : Requester) (off : Nat) : Nat × State :=
  let o := off % 0x4000
  match off / 0x4000 with
  | 0 => s.identRead o
  | 1 => (s.ldrRead o, s)
  | 2 => s.tideRead o
  | 3 => (s.charterRead o, s)
  | 4 => s.leaveRead o
  | 5 => s.tbRead who o
  | 6 => (s.ptuRead o, s)
  | 7 => s.harbourRead o
  | 8 => (s.ferryRead o, s)
  | _ => (0, s)

/-- A write of the supervisor block, but for SUP_TEST_UNLOCK. The harbour global and ferry pair
sub-blocks hold nothing that is written. -/
def State.supSet (s : State) (off v : Nat) : State :=
  let o := off % 0x4000
  match off / 0x4000 with
  | 0 => s.identWrite o v
  | 1 => s.ldrWrite o v
  | 2 => s.tideWrite o v
  | 3 => s.writeCharter o v
  | 4 => s.leaveWrite o v
  | 5 => s.tbWrite o v
  | 6 => s.ptuWrite o v
  | _ => s

/-- A write of the supervisor block: one that is not of SUP_TEST_UNLOCK breaks an unlock sequence
(R47). -/
def State.supWrite (s : State) (off v : Nat) : State :=
  if off = 0x00C then s.writeUnlock v else s.supWriting (fun s => s.supSet off v)

/-- A 64-bit write: two of 32 bits, the lower first; at LDR_HOST_DATA both halves are bitstream words
(R15, R160). -/
def State.supWriteWide (s : State) (off lo hi : Nat) : State :=
  if off = 0x4028 then
    s.supWriting (fun s => s.deliverWords .host [BitVec.ofNat 32 lo, BitVec.ofNat 32 hi])
  else (s.supWrite off lo).supWrite (off + 4) hi

end Sys2Proof.Machine
end

