-- ==== Sys2Proof/Machine/TenantMap.lean ====
section
/-! DEFINITION. The tenant control map of each function (R236): tenant status and faults (R400, R401,
R512), rings (R291), windows, ATS and DMA registers (R284), logbook view, MSI-X table and PBA (R280). -/

namespace Sys2Proof.Machine

/-! ## Tenant status (R400, R512) -/

/-- TEN_ID. -/
def tenId (t : Nat) : Nat := t + flag (t == 0) 3 + place (4 * t) 8 5

/-- A unit counts for a tenant: in function 0 every unit does. -/
def seenBy (t : Nat) (o : Option Nat) : Bool := t == 0 || o == some t

/-- An island that a tenant's status covers has something. -/
def State.anyIsland (s : State) (t : Nat) (p : Isl → Bool) : Bool :=
  anyBelow 48 (fun i => seenBy t (s.islandOwner i) && p (s.isl i))

/-- TEN_STATUS. -/
def State.tenStatus (s : State) (t : Nat) : Nat :=
  s.mode.mirror + flag (s.anyIsland t Isl.sealed) 16 +
    flag (s.anyIsland t (fun x => x.loadState == .incomplete)) 17 +
    flag (s.anyIsland t Isl.quarantined) 18 + flag (s.anyIsland t Isl.leaveDenied) 19 +
    flag (anyBelow 96 (fun p => seenBy t (s.portOwner p) && (s.port p).retired)) 20 +
    place (s.ten t).charterGen 24 8

/-- TEN_ISLAND_i: bits 0, 9:8, 11 and 15:12 of TIDE_ISLAND_i. -/
def State.tenIsland (s : State) (t i : Nat) : Nat :=
  if seenBy t (s.islandOwner i) then Nat.land (s.tideIsland i) 0xFB01 else 0

/-- A word of an ownership bit map: units 32 k and on, of `n`. -/
def ownBits (n k t : Nat) (owner : Nat → Option Nat) : Nat :=
  maskOf 32 (fun b => 32 * k + b < n && owner (32 * k + b) == some t)

/-- Partner entries assigned to a tenant. -/
def State.ownPartners (s : State) (t : Nat) : Nat := countBelow 4096 (fun i => s.partnerOwner i == some t)

/-- A read of the tenant status block. -/
def State.tenRead (s : State) (t off : Nat) : Nat :=
  match off with
  | 0x000 => tenId t
  | 0x004 => s.tenStatus t
  | 0x010 | 0x014 => ownBits 48 ((off - 0x010) / 4) t s.islandOwner
  | 0x018 | 0x01C | 0x020 => ownBits 96 ((off - 0x018) / 4) t s.portOwner
  | 0x030 | 0x034 | 0x038 | 0x03C => ownBits 128 ((off - 0x030) / 4) t s.segOwner
  | 0x040 | 0x044 | 0x048 | 0x04C => ownBits 128 ((off - 0x040) / 4) t s.pageOwner
  | 0x050 => s.ownPartners t
  | 0x080 => supSilicon
  | 0x084 => s.supLevels
  | 0x088 => wordAt s.ldr.stampRegs 2
  | 0x08C => wordAt s.ldr.stampRegs 3
  | 0x090 => s.persState
  | _ => if 0x100 ≤ off ∧ off < 0x1C0 ∧ off % 4 = 0 then s.tenIsland t ((off - 0x100) / 4) else 0

/-! ## Tenant faults (R401) -/

/-- A read of the fault block. -/
def State.faultRead (s : State) (t off : Nat) : Nat :=
  let x := s.ten t
  match off with
  | 0x000 => x.fault
  | 0x004 => place x.faultKind 0 4 + place x.faultRing 8 2 + place x.faultStatus 16 8
  | 0x008 => x.retried
  | 0x00C => x.partialCount
  | _ => 0

/-- A write of the fault block: TEN_FAULT is W1C. -/
def State.faultWrite (s : State) (t off v : Nat) : State :=
  if off = 0x000 then
    s.modTen t (fun x => { x with fault := maskOf 11 (fun n => bitAt x.fault n && !bitAt v n) })
  else s

/-! ## Rings (R291) -/

/-- RING_CTRL. -/
def Ring.ctrl (x : Ring) : Nat :=
  flag x.enable 0 + place x.kind 1 2 + flag x.translated 3 + flag x.hinted 4 +
    place x.timeoutSel 5 2 + place x.cpl 8 2 + flag x.cplEn 10 + flag (x.state == .flushing) 12 +
    place x.state.code 16 3

/-- A read of a ring's registers. -/
def State.ringRead (s : State) (r off : Nat) : Nat :=
  let x := s.ring r
  match off with
  | 0x00 => lo32 x.base
  | 0x04 => hi32 x.base
  | 0x08 => x.size
  | 0x0C => x.ctrl
  | 0x10 => x.tail
  | 0x14 => if x.kind = 2 then 0 else x.head
  | 0x18 => x.wmHi + place x.wmLo 16 16
  | 0x1C => flag x.level 0 + flag x.hiSeen 1 + flag x.loSeen 2 + place x.wmCount 4 4 + flag x.arm 8
  | 0x20 => place x.faultCode 0 4 + flag x.fault 8 + place x.faultStatus 16 8
  | 0x24 => x.done
  | 0x28 => x.lost
  | 0x2C => x.entry
  | _ => 0

/-- A write of RING_BASE or RING_SIZE: ignored unless the ring is DISABLED. -/
def State.writeRingMem (s : State) (r : Nat) (f : Ring → Ring) : State :=
  s.modRing r (fun x => if x.state = .disabled then f x else x)

/-- A write of RING_SIZE: a size that is not listed leaves the field (R6). -/
def ringSizeOf (old v : Nat) : Nat :=
  let n := field v 0 5
  if 6 ≤ n ∧ n ≤ 16 then n else old

/-- A write of RING_FAULT: FAULT is W1C, and takes CODE and STATUS with it. -/
def State.writeRingFault (s : State) (r v : Nat) : State :=
  if bitAt v 8 then s.modRing r (fun x => { x with fault := false, faultCode := 0, faultStatus := 0 })
  else s

/-- A write of a ring's registers. -/
def State.ringWrite (s : State) (r off v : Nat) : State :=
  match off with
  | 0x00 => s.writeRingMem r (fun x => { x with base := 2 ^ 32 * hi32 x.base + place (field v 12 20) 12 20 })
  | 0x04 => s.writeRingMem r (fun x => { x with base := 2 ^ 32 * v + lo32 x.base })
  | 0x08 => s.writeRingMem r (fun x => { x with size := ringSizeOf x.size v })
  | 0x0C => s.writeRingCtrl r v
  | 0x10 => s.writeTail r v
  | 0x14 => s.writeHead r v
  | 0x18 => s.writeWm r v
  | 0x1C => s.writeWmStatus r v
  | 0x20 => s.writeRingFault r v
  | 0x2C => s.modRing r (fun x => { x with entry := 4 * field v 2 30 })
  | _ => s

/-! ## ATS and DMA (R284) -/

/-- Entries of a function that the cache holds. -/
def Dma.entries (d : Dma) (t : Nat) : Nat :=
  (d.atc.filter (fun e => e.2.any (fun x => x.fn == t))).length

/-- A read of the ATS control page. -/
def State.atsRead (s : State) (t off : Nat) : Nat :=
  let x := s.ten t
  match off with
  | 0x000 => x.ahead
  | 0x004 => place (s.dma.entries t) 0 11 + flag x.atsFault 16 + flag x.invqOverflow 17 +
      place x.invalidations 24 8
  | 0x008 => flag x.atsWrite 0 + place (field x.atsAddr 12 20) 12 20
  | 0x00C => hi32 x.atsAddr
  | _ => 0

/-- A write of the ATS control page. -/
def State.atsWrite (s : State) (t off v : Nat) : State :=
  match off with
  | 0x000 => s.modTen t (fun x => { x with ahead := field v 0 2 })
  | 0x004 => s.modTen t (fun x => { x with
      atsFault := x.atsFault && !bitAt v 16, invqOverflow := x.invqOverflow && !bitAt v 17 })
  | _ => s

/-- A ring waits for a translation that it has asked for. -/
def State.translating (s : State) (r : Nat) : Bool := s.dma.trans.any (fun q => q.ring == r && q.needed)

/-- A thread has a DMA request to issue: of a fetch, of a chunk some of whose reads are not out yet or whose
writes stand in the commit buffer, of a fence, or of a record that has space. -/
def State.requestDue (s : State) (r : Nat) : Bool :=
  let t := s.thr r
  match t.wait with
  | .dma => !s.translating r && (match t.cur with
      | none => s.readsOf r .fetch == []
      | some c => c.opcode == 0x31 ||
          decide (((s.readsOf r .data).map DmaRead.len).sum <
            chunkLen ((c.a0 + c.progress) % 2 ^ 64) (c.len - c.progress)))
  | .fence => s.readsOf r .fence == [] &&
      !(s.ring r).roLast.any (fun x => s.translating x.1)
  | .record q => !s.translating q && (s.ring q).hasSpace ((t.cur.bind Cur.dest).map Prod.snd |>.getD 1)
  | _ => false

/-- A thread of a tenant waits for Bus Master Enable (R238, R284). -/
def State.bmeWait (s : State) (t : Nat) : Bool := !(s.fn t).bme && anyBelow 4 (fun l => s.requestDue (4 * t + l))

/-- A read of the DMA status page. -/
def State.dmaRead (s : State) (t off : Nat) : Nat × State :=
  let x := s.ten t
  match off with
  | 0x000 => (place (s.dma.requestsOut t) 0 9 + flag (s.dma.rate != .held && s.dma.delayed) 16 +
      flag (s.bmeWait t) 17 + flag x.dmaError 24, s)
  | 0x004 => (place x.dmaKind 0 3 + place x.dmaRing 8 2, s)
  | 0x010 => s.readBytesLo t false
  | 0x014 => (x.rdHi, s)
  | 0x018 => s.readBytesLo t true
  | 0x01C => (x.wrHi, s)
  | _ => (0, s)

/-- A write of the DMA status page: ERROR is W1C, and KIND is then none. -/
def State.dmaWrite (s : State) (t off v : Nat) : State :=
  if off = 0x000 ∧ bitAt v 24 then
    s.modTen t (fun x => { x with dmaError := false, dmaKind := 0, dmaRing := 0 })
  else s

/-! ## MSI-X (R280) -/

/-- A read of the MSI-X table. -/
def State.msixRead (s : State) (t off : Nat) : Nat :=
  let m := s.msx t (off / 16)
  match off % 16 with
  | 0 => lo32 m.addr
  | 4 => hi32 m.addr
  | 8 => m.data
  | 12 => bnat m.mask
  | _ => 0

/-- A write of the MSI-X table: a vector that is no longer masked may send (R281). -/
def State.msixWrite (s : State) (t off v : Nat) : State :=
  let n := off / 16
  match off % 16 with
  | 0 => s.modMsx t n (fun m => { m with addr := 2 ^ 32 * hi32 m.addr + 4 * field v 2 30 })
  | 4 => s.modMsx t n (fun m => { m with addr := 2 ^ 32 * v + lo32 m.addr })
  | 8 => s.modMsx t n (fun m => { m with data := v })
  | 12 => (s.modMsx t n (fun m => { m with mask := bitAt v 0 })).sendPending t
  | _ => s

/-- The PBA: pending bits of vectors 32 k and on. -/
def State.pbaWord (s : State) (t k : Nat) : Nat := maskOf 32 (fun b => (s.msx t (32 * k + b)).pend)

/-! ## BAR0 (R235, R236) -/

/-- A 32-bit read of BAR0. -/
def State.bar0Read (s : State) (t off : Nat) : Nat × State :=
  let page := off / 0x1000
  let o := off % 0x1000
  if page = 0x00 then (s.tenRead t o, s)
  else if page = 0x01 then (s.faultRead t o, s)
  else if 0x10 ≤ page ∧ page < 0x14 then (s.ringRead (4 * t + (page - 0x10)) o, s)
  else if page = 0x20 then (if o < 0x400 then s.winRead t o else 0, s)
  else if page = 0x30 then (s.atsRead t o, s)
  else if page = 0x40 then (s.viewRead t o, s)
  else if page = 0x50 then s.dmaRead t o
  else if 0x80 ≤ page ∧ page < 0xC0 then
    (if t = 0 then s.supRead (.window 0) (off - 0x80000) else (0, s))
  else if page = 0xFE then (if o < 0x400 then s.msixRead t o else 0, s)
  else if page = 0xFF then (if o = 0 ∨ o = 4 then s.pbaWord t (o / 4) else 0, s)
  else (0, s)

/-- A 32-bit write of BAR0. -/
def State.bar0Write (s : State) (t off v : Nat) : State :=
  let page := off / 0x1000
  let o := off % 0x1000
  if page = 0x01 then s.faultWrite t o v
  else if 0x10 ≤ page ∧ page < 0x14 then s.ringWrite (4 * t + (page - 0x10)) o v
  else if page = 0x20 then (if o < 0x400 then s.winWrite t o v else s)
  else if page = 0x30 then s.atsWrite t o v
  else if page = 0x40 then s.viewWrite t o v
  else if page = 0x50 then s.dmaWrite t o v
  else if 0x80 ≤ page ∧ page < 0xC0 then (if t = 0 then s.supWrite (off - 0x80000) v else s)
  else if page = 0xFE then (if o < 0x400 then s.msixWrite t o v else s)
  else s

/-- A 64-bit write of BAR0. -/
def State.bar0WriteWide (s : State) (t off lo hi : Nat) : State :=
  if t = 0 ∧ off = 0x84028 then s.supWriteWide 0x4028 lo hi
  else (s.bar0Write t off lo).bar0Write t (off + 4) hi

/-- An access of a register region has a width and an alignment of R15. -/
def aligned (off len : Nat) : Bool := (len == 4 || len == 8) && off % len == 0

/-- HOST_ACCESS_MALFORMED (R235, R260). -/
def State.malformed (s : State) (t : Nat) (write : Bool) (off len : Nat) : State :=
  s.event 0x0407 1 t [(1, t), (1, bnat write), (1, min 255 len), (1, 0), (4, off)]

/-- A read of BAR0 of any length (R235): its words, zero where its length or its alignment is not one that
registers have; a 64-bit read is two of 32 bits, the lower first (R15). -/
def State.hostBar0Read (s : State) (t off len : Nat) : List Word × State :=
  if 0x100000 < off + len then ([], s)
  else if !aligned off len then (zeroWords len, s.malformed t false off len)
  else
    let (a, s) := s.bar0Read t off
    if len = 4 then ([BitVec.ofNat 32 a], s)
    else
      let (b, s) := s.bar0Read t (off + 4)
      ([BitVec.ofNat 32 a, BitVec.ofNat 32 b], s)

/-- DMA_BYTES_LO_READ (R284): a read of BAR0 at one of the two _LO registers, of any length. -/
def execDmaBytesLoRead (t : TenantId) (writes : Bool) (len : Nat) (s : State) :
    Host.Outcome State Fault Refusal :=
  answer (s.hostReading t len (fun s => s.hostBar0Read t (if writes then 0x50018 else 0x50010) len))

/-- A write of BAR0 of any length. -/
def State.hostBar0 (s : State) (t off len : Nat) (data : List Byte) : State :=
  if 0x100000 < off + len then s
  else if !aligned off len then s.malformed t true off len
  else if len = 4 then s.bar0Write t off (leNat (data.take 4))
  else s.bar0WriteWide t off (leNat (data.take 4)) (leNat ((data.drop 4).take 4))

end Sys2Proof.Machine
end

