-- ==== Sys2Proof/Machine/ConfigSpace.lean ====
section
/-! DEFINITION. Configuration space of each function (R229 to R234): identity, capabilities, the fields
this manual uses, and the writes that change them. Where a field stands inside its register is the PCI
Express layout that R230 refers to (log 10). -/

namespace Sys2Proof.Machine

/-! ## Reads -/

/-- Header of an extended capability: ID, version, next. -/
def extHeader (id ver next : Nat) : Nat := place id 0 16 + place ver 16 4 + place next 20 12

/-- Command and Status: Memory Space Enable, Bus Master Enable, Interrupt Disable, the plain enables,
Capabilities List, and the errors seen. -/
def Fn.command (f : Fn) : Nat :=
  flag f.mse 1 + flag f.bme 2 + flag f.intDisable 10 + f.plainAt 0x04 + flag true 20 +
    place (field f.detected 24 8) 24 8

/-- PMCSR: PowerState and No_Soft_Reset. -/
def Fn.pmcsr (f : Fn) : Nat := (if f.d3hot then 3 else 0) + flag true 3

/-- MSI-X capability word: Table Size 63, Function Mask, MSI-X Enable. -/
def Fn.msixCap (f : Fn) : Nat := 0x7011 + place 63 16 11 + flag f.fmask 30 + flag f.msixEn 31

/-- Device Capabilities (R231): 512 bytes, Extended Tag, no limit, 64 µs, Role-Based Error Reporting,
FLR. -/
def deviceCaps : Nat := 2 + flag true 5 + place 7 6 3 + place 6 9 3 + flag true 15 + flag true 28

/-- Device Control and Device Status: errors detected, Transactions Pending. -/
def State.deviceControl (s : State) (t : Nat) : Nat :=
  let f := s.fn t
  f.plainAt 0x78 + flag f.relaxed 4 + place f.mps 5 3 + flag f.extTag 8 + place f.mrrs 12 3 +
    place f.detected 16 4 + flag (s.dma.requestsOut t != 0) 21

/-- Link Capabilities (R231): 16.0 GT/s, × 8, ASPM L1, exit 4 to 8 µs, ASPM Optionality Compliance. -/
def linkCaps : Nat := 4 + place 8 4 6 + place 2 10 2 + place 3 15 3 + flag true 22

/-- Link Capabilities 2 (R231): 2.5 to 16.0 GT/s. Retimer and Two Retimers Presence Detect Supported are 1, as PCI
Express Base Specification 4.0 asks of a port with 16.0 GT/s (PRESUMED, log 10). -/
def linkCaps2 : Nat := 0x1E + flag true 23 + flag true 24

/-- Link Control and Status. -/
def State.linkControl (s : State) (t : Nat) : Nat :=
  place (s.fn t).aspm 0 2 + (s.fn t).plainAt 0x80 + place s.link.speed 16 4 + place s.link.width 20 6

/-- Device Capabilities 2 (R231): ranges B and C, Timeout Disable, LTR, 10-Bit Tag Completer and
Requester. -/
def deviceCaps2 : Nat := 6 + flag true 4 + flag true 11 + flag true 16 + flag true 17

/-- Device Control 2. -/
def Fn.deviceControl2 (f : Fn) : Nat :=
  place f.ctoValue 0 4 + flag f.ctoDisable 4 + flag f.ltrEn 10 + flag f.tag10 12

/-- Link Control 2 and Link Status 2, of function 0 alone: equalization at 8.0 GT/s, once done. -/
def State.linkControl2 (s : State) (t : Nat) : Nat :=
  if t = 0 then (s.fn 0).plainAt 0xA0 + (if s.link.eq8 then place 0xF 17 4 else 0) else 0

/-- ATS Capability and Control. -/
def Fn.ats (f : Fn) : Nat := flag true 5 + place f.stu 16 5 + flag f.atsEn 31

/-- Words of the capabilities that function 0 alone has (R230). -/
def State.function0Read (s : State) (off : Nat) : Nat :=
  match off with
  | 0x158 => extHeader 0x0003 1 0x168
  | 0x15C => lo32 Config.dsn
  | 0x160 => hi32 Config.dsn
  | 0x168 => extHeader 0x0018 1 0x170
  | 0x16C => place (s.fn 0).ltrSnoop 0 16 + place (s.fn 0).ltrNoSnoop 16 16
  | 0x170 => extHeader 0x0019 1 0x1A0
  | 0x1A0 => extHeader 0x0026 1 0x1D0
  | 0x1AC => if s.link.eq16 then 0xF else 0
  | 0x1D0 => extHeader 0x0027 1 0x300
  | 0x1D4 => flag (s.link.speed == 4) 16
  | _ => if 0x170 ≤ off ∧ off < 0x1F8 then (s.fn 0).plainAt off else 0

/-- The fixed-map descriptor (R232). -/
def State.fixedMap (s : State) (t off : Nat) : Nat :=
  match off with
  | 0x300 => extHeader 0x000B 1 0x000
  | 0x304 => 0x0001 + place 1 16 4 + place 0x020 20 12
  | 0x308 => 1 + place t 8 3 + flag (t == 0) 11 + place (4 * t) 16 8 + place 4 24 4
  | 0x30C => 64 + place 22 8 8 + place 20 16 8 + place 28 24 8
  | 0x310 => 1
  | 0x314 => s.supLevels
  | 0x318 => s.mode.mode.code + flag (s.mode.mode != .reset) 8
  | _ => 0

/-- A word of configuration space. -/
def State.configRead (s : State) (t off : Nat) : Nat :=
  let f := s.fn t
  match off with
  | 0x00 => 0x1E3A + place (if t = 0 then 0x4800 else 0x4801) 16 16
  | 0x04 => f.command
  | 0x08 => 0x11800001
  | 0x0C => f.plainAt 0x0C + place 0x80 16 8
  | 0x10 => lo32 f.bar0 + 4
  | 0x14 => hi32 f.bar0
  | 0x18 => lo32 f.bar2 + 12
  | 0x1C => hi32 f.bar2
  | 0x2C => 0x48001E3A
  | 0x34 => 0x40
  | 0x3C => f.plainAt 0x3C
  | 0x40 => 0x00035001
  | 0x44 => f.pmcsr
  | 0x50 => f.msixCap
  | 0x54 => 0x000FE000
  | 0x58 => 0x000FF000
  | 0x70 => 0x00020010
  | 0x74 => deviceCaps
  | 0x78 => s.deviceControl t
  | 0x7C => linkCaps
  | 0x80 => s.linkControl t
  | 0x94 => deviceCaps2
  | 0x98 => f.deviceControl2
  | 0x9C => linkCaps2
  | 0xA0 => s.linkControl2 t
  | 0x100 => extHeader 0x0001 2 0x148
  | 0x104 => f.aer
  | 0x108 => f.plainAt 0x108
  | 0x10C => f.plainAt 0x10C
  | 0x110 => f.aerCorr
  | 0x114 => f.plainAt 0x114
  | 0x118 => f.aerFirst
  | 0x11C => wordAt f.aerHeader 0
  | 0x120 => wordAt f.aerHeader 1
  | 0x124 => wordAt f.aerHeader 2
  | 0x128 => wordAt f.aerHeader 3
  | 0x148 => extHeader 0x000F 1 (if t = 0 then 0x158 else 0x300)
  | 0x14C => f.ats
  | _ =>
    if 0x300 ≤ off then s.fixedMap t off
    else if t = 0 then s.function0Read off else 0

/-! ## Writes -/

/-- A field of a written word, where an encoding that is not listed leaves it (R6). -/
def listedOr (ok : Nat → Bool) (old v : Nat) : Nat := if ok v then v else old

/-- PowerState: D0 and D3hot are the states a function has (R231, R254). -/
def State.writePmcsr (s : State) (t v : Nat) : State :=
  match field v 0 2 with
  | 0 => s.enterD0 t
  | 3 => s.enterD3hot t
  | _ => s

/-- MSI-X Message Control: what is no longer blocked may go (R281). -/
def State.writeMsixCap (s : State) (t v : Nat) : State :=
  (s.modFn t (fun f => { f with fmask := bitAt v 30, msixEn := bitAt v 31 })).sendPending t

/-- Command (R238): Bus Master Enable through its own operation. -/
def State.writeCommand (s : State) (t v : Nat) : State :=
  (s.modFn t (fun f => { f with mse := bitAt v 1, intDisable := bitAt v 10 })).writeBme t (bitAt v 2)

/-- Device Control; Initiate Function Level Reset comes last. -/
def State.writeDeviceControl (s : State) (t v : Nat) : State :=
  let s := s.modFn t (fun f => { f with
    relaxed := bitAt v 4
    mps := listedOr (· ≤ 2) f.mps (field v 5 3)
    extTag := bitAt v 8
    mrrs := listedOr (· ≤ 5) f.mrrs (field v 12 3) })
  if bitAt v 15 then s.startFlr t else s

/-- Device Control 2: LTR Mechanism Enable is function 0's; set newly, a message is due (R258). -/
def State.writeDeviceControl2 (s : State) (t v : Nat) : State :=
  let on := t == 0 && bitAt v 10
  let s := if on && !(s.fn t).ltrEn then s.modLink (fun l => { l with ltrTime := none }) else s
  s.modFn t (fun f => { f with
    ctoValue := listedOr (fun c => c == 0 || c == 5 || c == 6 || c == 9 || c == 10) f.ctoValue (field v 0 4)
    ctoDisable := bitAt v 4, ltrEn := on, tag10 := bitAt v 12 })

/-- ATS Control: clearing Enable empties the function's part of the cache (R275). -/
def State.writeAts (s : State) (t v : Nat) : State :=
  let was := (s.fn t).atsEn
  let s := s.modFn t (fun f => { f with stu := field v 16 5, atsEn := bitAt v 31 })
  if was && !bitAt v 31 then s.clearAts t else s

/-- Bits of a W1C field that a written word leaves. -/
def w1c (old v : Nat) : Nat := maskOf 32 (fun n => bitAt old n && !bitAt v n)

/-- Errors seen that a write of the Status half of Command, or the Device Status half of Device Control,
leaves. -/
def detectedLeft (off old v : Nat) : Nat :=
  if off = 0x04 then w1c old (place (field v 24 8) 24 8)
  else if off = 0x78 then w1c old (field v 16 4)
  else old

/-- A word of configuration space is written: its plain fields apart. -/
def State.configField (s : State) (t off v : Nat) : State :=
  match off with
  | 0x04 => s.writeCommand t v
  | 0x10 => s.modFn t (fun f => { f with bar0 := 2 ^ 32 * hi32 f.bar0 + place (field v 20 12) 20 12 })
  | 0x14 => s.modFn t (fun f => { f with bar0 := 2 ^ 32 * v + lo32 f.bar0 })
  | 0x18 => s.modFn t (fun f => { f with bar2 := 2 ^ 32 * hi32 f.bar2 + place (field v 28 4) 28 4 })
  | 0x1C => s.modFn t (fun f => { f with bar2 := 2 ^ 32 * v + lo32 f.bar2 })
  | 0x44 => s.writePmcsr t v
  | 0x50 => s.writeMsixCap t v
  | 0x78 => s.writeDeviceControl t v
  | 0x80 => s.modFn t (fun f => { f with aspm := field v 0 2 })
  | 0x98 => s.writeDeviceControl2 t v
  | 0x104 => s.modFn t (fun f => { f with aer := w1c f.aer v })
  | 0x110 => s.modFn t (fun f => { f with aerCorr := w1c f.aerCorr v })
  | 0x14C => s.writeAts t v
  | 0x16C =>
    if t = 0 then s.modFn 0 (fun f => { f with ltrSnoop := field v 0 13, ltrNoSnoop := field v 16 13 })
    else s
  | _ =>
    if t = 0 ∧ marginLane off ∧ s.link.speed = 4 then
      s.draw.2.modFn 0 (fun f => f.margin off (Config.freeValue s.draw.1))
    else s

/-- A word of configuration space is written. -/
def State.configWord (s : State) (t off v : Nat) : State :=
  (s.modFn t (fun f =>
    { f.plainWrite t off v with detected := detectedLeft off f.detected v })).configField t off v

/-- What a word holds for the bytes that a write leaves alone: 0 in W1C bits. -/
def State.configKept (s : State) (t off : Nat) : Nat :=
  match off with
  | 0x104 => 0
  | 0x110 => 0
  | 0x04 => s.configRead t off % 65536
  | 0x78 => s.configRead t off % 65536
  | _ => s.configRead t off

/-- A configuration write of 1, 2 or 4 bytes inside one word. -/
def State.configWrite (s : State) (t off len : Nat) (data : List Byte) : State :=
  let at_ := off % 4
  let base := off - at_
  if at_ + len ≤ 4 ∧ 0 < len ∧ base < 4096 ∧ data.length = len then
    let old := leBytes 4 (s.configKept t base)
    s.configWord t base (leNat (old.take at_ ++ data ++ old.drop (at_ + len)))
  else s

end Sys2Proof.Machine
end

