-- ==== Sys2Proof/Machine/Dia.lean ====
section
/-! DEFINITION. Accesses to the device internal address space (R13 to R21, R74 to R76): one access, who
may make it, what it reads and changes, the accesses of windows (R242), and those of single registers that have
rows of their own (R8, R415, R416, R418, R431). -/

namespace Sys2Proof.Machine

/-! ## The memories (R15, R330, R425) -/

/-- Bytes written to program memory; a word written whole loses an error it had (R330). -/
def State.progWrite (s : State) (a : Nat) (bytes : List Byte) : State :=
  { s with
    progMem := memWrite 0 s.progMem a bytes
    progBad := s.progBad.filter (fun w =>
      !(decide (a ≤ 4 * w) && decide (4 * w + 4 ≤ a + bytes.length))) }

/-- Bytes of a range of one memory. -/
def State.memBytes (s : State) (a len : Nat) : List Byte :=
  if a < 0x800000 then memRead 0 s.harbour a len else memRead 0 s.progMem (a - 0x3100000) len

/-- A range of one memory touches a word that cannot be corrected. -/
def State.memFails (s : State) (a len : Nat) : Bool :=
  if a < 0x800000 then s.harbourFails a len
  else len != 0 && s.progBad.any (fun w =>
    decide (0x3100000 + 4 * w < a + len) && decide (a < 0x3100000 + 4 * w + 4))

/-- A range of one memory is read: single-bit errors are corrected and counted (R425). -/
def State.noteRead (s : State) (a len : Nat) : State := if a < 0x800000 then s.harbourCorrects a len else s

/-- Bytes written to a range of one memory. -/
def State.memPut (s : State) (a : Nat) (bytes : List Byte) : State :=
  if a < 0x800000 then s.harbourWrite a bytes else s.progWrite (a - 0x3100000) bytes

/-- An uncorrectable error has been found by a read; those of the harbour buffer are counted (R414). -/
def State.countBad (s : State) (a : Nat) : State :=
  if a < 0x800000 then { s with bufUncorrectable := satInc32 s.bufUncorrectable } else s

/-! ## One word (R13) -/

/-- A word of a frame's data (R20). -/
def State.frameWord (s : State) (off : Nat) : Nat :=
  field (s.frame (off / 256)).data.toNat (32 * (off % 256 / 4)) 32

/-- A 32-bit read outside user logic: a status, the word, the state after it. -/
def State.readWord (s : State) (who : Requester) (a : Nat) : Nat × Nat × State :=
  let ok := fun (p : Nat × State) => (0, p.1, p.2)
  match regionOf a with
  | .harbour | .program =>
    if s.memFails a 4 then (8, 0, s.countBad a) else (0, leNat (s.memBytes a 4), s.noteRead a 4)
  | .frames => (0, s.frameWord (a - 0x2000000), s)
  | .partners =>
    if s.partnerBad.contains ((a - 0x3000000) / 4) then (8, 0, s)
    else ok (s.readPartner who ((a - 0x3000000) / 64) (a % 64 / 4))
  | .logbook => (0, s.logWord (reqTenant who) ((a - 0x3200000) / 32) (a % 32 / 4), s)
  | .timebase => ok (s.tbRead who (a - 0x3300000))
  | .ports => ok (s.portRead ((a - 0x4000000) / 0x4000) (a % 0x4000))
  | .supervisor => ok (s.supRead who (a - 0x8000000))
  | .fabric | .reserved => (0, 0, s)

/-- A frame may be written by a request on the DIA: one of an island, in LOAD or while the island is sealed. Only
bitstream loads write strait and global frames (R110, R129; DEDUCED, log 60). -/
def State.keeperWrites (s : State) (n : Nat) : Bool :=
  match frameIsland n with
  | some i => s.mode.mode == .load || (s.isl i).sealed
  | none => false

/-- The keeper writes a word of a frame (R21). -/
def State.keeperFrame (s : State) (off v : Nat) : State :=
  let n := off / 256
  let lo := 32 * (off % 256 / 4)
  let d := (s.frame n).data.toNat
  if s.keeperWrites n then s.writeFrame n (BitVec.ofNat 2048 ((d - (field d lo 32 <<< lo)) + (v <<< lo))) else s

/-- A 32-bit write outside user logic. -/
def State.writeWord (s : State) (who : Requester) (a v : Nat) : State :=
  match regionOf a with
  | .harbour | .program => s.memPut a (leBytes 4 v)
  | .frames => if who = .keeper then s.keeperFrame (a - 0x2000000) v else s
  | .partners =>
    { s with partnerBad := s.partnerBad.filter (· != (a - 0x3000000) / 4) }.writePartner (reqTenant who)
      ((a - 0x3000000) / 64) (a % 64 / 4) v
  | .timebase => s.tbWrite (a - 0x3300000) v
  | .ports => s.portWrite ((a - 0x4000000) / 0x4000) (a % 0x4000) v
  | .supervisor => s.supWrite (a - 0x8000000) v
  | .logbook | .fabric | .reserved => s

/-! ## One access (R15 to R19, R74) -/

/-- What an access comes to: done with a status and the data read, or presented to an island's logic. -/
inductive DiaResult where
  | done (status value : Nat)
  | waits (island : Nat)
  deriving DecidableEq, Repr

/-- An access of 4 or 8 bytes at an island's user registers. -/
def State.fabricAccess (s : State) (who : Requester) (write : Bool) (a len value : Nat) :
    DiaResult × State :=
  let i := (a - 0x1000000) / 0x40000
  let off := a % 0x40000
  let mode := s.uregMode i
  if (s.isl i).shut then (.done 0x24 0, s)
  else if mode = 0 ∨ (mode = 2 ∧ 0x100 ≤ off) then (.done 0 0, s.reservedAccess who a)
  else
    let acc : FabAccess :=
      { write := write, addr := off / 4, data := BitVec.ofNat 32 value, who := who
        upper := if len = 8 then some (BitVec.ofNat 32 (hi32 value)) else none }
    (.waits i, s.askAccess i acc)

/-- An access of 64 bits to one of the memories is one request (R16), and meets its protected words once (R425). -/
def State.wideAccess (s : State) (write : Bool) (a value : Nat) : DiaResult × State :=
  if write then (.done 0 0, s.memPut a (leBytes 8 value))
  else if s.memFails a 8 then (.done 8 0, s.countBad a)
  else (.done 0 (leNat (s.memBytes a 8)), s.noteRead a 8)

/-- An access of 4 or 8 bytes outside user logic: one of 64 bits at registers is two of 32 bits, the lower first
(R15). -/
def State.plainAccess (s : State) (who : Requester) (write : Bool) (a len value : Nat) :
    DiaResult × State :=
  if len ≠ 4 ∧ (regionOf a = .harbour ∨ regionOf a = .program) then s.wideAccess write a value
  else if write then
    if len = 4 then (.done 0 0, s.writeWord who a (lo32 value))
    else if regionOf a = .supervisor then
      (.done 0 0, s.supWriteWide (a - 0x8000000) (lo32 value) (hi32 value))
    else (.done 0 0, (s.writeWord who a (lo32 value)).writeWord who (a + 4) (hi32 value))
  else
    let (st, v, s) := s.readWord who a
    if len = 4 then (.done st v, s)
    else
      let (st', v', s) := s.readWord who (a + 4)
      (.done (if st = 0 then st' else st) (v + 2 ^ 32 * v'), s)

/-- One access to the DIA, with the verdict of the charter it was accepted under (R15 to R19, R244). -/
def State.diaJudged (s : State) (denied : Bool) (who : Requester) (opcode : Nat) (write : Bool)
    (a len value : Nat) : DiaResult × State :=
  if !aligned a len ∨ regionOf a = .reserved then (.done 0 0, s.reservedAccess who a)
  else if denied then (.done 0x21 0, s.deniedAccess who opcode a)
  else if regionOf a = .fabric then s.fabricAccess who write a len value
  else s.plainAccess who write a len value

/-- One access to the DIA that its requester makes now. -/
def State.diaAccess (s : State) (who : Requester) (opcode : Nat) (write : Bool) (a len value : Nat) :
    DiaResult × State :=
  s.diaJudged (s.deniedTo who a write) who opcode write a len value

/-! ## Windows (R242) -/

/-- Words of a read's completion. -/
def cplWords (len value : Nat) : List Word := natWords ((len + 3) / 4) value

/-- What the end of a window's access sends: a read's completion. A read that finds an uncorrectable error
has no data the rules name: it is free. -/
def State.windowAnswer (s : State) (t : Nat) (write : Bool) (len : Nat) : DiaResult → State
  | .waits _ => s
  | .done st v =>
    if write then s
    else if st = 8 then s.draw.2.complete (.cpl t (cplWords len (Config.freeValue s.draw.1)))
    else s.complete (.cpl t (cplWords len v))

/-! ## Transfers (R15, R16) -/

/-- A transfer of up to 64 bytes inside one aligned block of a memory. -/
def transferOk (who : Requester) (a len : Nat) : Bool :=
  (match who with | .window _ => false | _ => true) &&
    decide (1 ≤ len ∧ len ≤ 64 ∧ a / 64 = (a + len - 1) / 64) && inMemory a len

/-- The transfer, with the verdict of its charter. -/
def State.transfer (s : State) (denied : Bool) (d : DiaRequest) : State :=
  if denied then s.deniedAccess d.who 0xFF d.addr
  else if d.write then (if d.data.length = d.len then s.memPut d.addr d.data else s)
  else if s.memFails d.addr d.len then s.countBad d.addr else s.noteRead d.addr d.len

/-- Who a request that the arbiter serves by itself acts for: no thread waits for one of its ring. -/
def DiaRequest.actor (d : DiaRequest) : Requester :=
  match d.who with
  | .ring r | .dma r => .dma r
  | .window t => .window t
  | .keeper => .keeper

/-- A request that the arbiter serves by itself: its answer, where it has one, is a window's. -/
def State.served (s : State) (d : DiaRequest) : State :=
  let denied := d.judged.getD (s.deniedTo d.who d.addr d.write)
  if transferOk d.who d.addr d.len then s.transfer denied d
  else
    let a := s.diaJudged denied d.actor 0xFF d.write d.addr d.len (leNat (d.data.take 8))
    match d.who with
    | .window t => a.2.windowAnswer t d.write d.len a.1
    | .keeper | .ring _ | .dma _ => a.2

/-! ## The order of one requester's accesses (R16, R242) -/

/-- Frame readback waits while X12 reports full (R24, R27); a read that is denied or misaligned reads no frame. -/
def State.readbackHeld (s : State) (who : Requester) (write : Bool) (a len : Nat) : Bool :=
  !write && regionOf a == .frames && s.forcedFull 12 && aligned a len && !s.deniedTo who a false

/-- A write of LDR_HOST_DATA waits while one of its words would have to wait for X11 (R24, R25, R27, R166). -/
def State.ldrDataHeld (s : State) (who : Requester) (write : Bool) (a len value : Nat) : Bool :=
  write && a == 0x8004028 && s.forcedFull 11 && !s.deniedTo who a true &&
    s.hostWordsHeld (natWords (len / 4) value)

/-- What an access needs reports full (R24, R27). -/
def State.crossingHeld (s : State) (who : Requester) (write : Bool) (a len value : Nat) : Bool :=
  s.readbackHeld who write a len || s.ldrDataHeld who write a len value

/-- An access cannot be served yet: an earlier one of its requester is at an island's logic, or what it
needs reports full; a window's read needs X4. -/
def State.blocked (s : State) (d : DiaRequest) : Bool :=
  s.outstanding d.who || s.crossingHeld d.who d.write d.addr d.len (leNat (d.data.take 8)) ||
    (match d.who with | .window _ => !d.write && s.cplWaits | _ => false)

/-- An access that came before waits. -/
def State.behindOf (s : State) (who : Requester) : Bool :=
  s.behind.any (fun e => reqLatch e.who == reqLatch who)

/-- An access is served, or waits behind the earlier ones of its requester. -/
def State.serveOne (s : State) (d : DiaRequest) : State :=
  if s.blocked d || s.behindOf d.who then { s with behind := s.behind ++ [d] }
  else s.served d

/-- What waits is served as far as it can be, each requester's accesses in their order. -/
def State.serveBehind (s : State) : State :=
  overList s.behind (fun d s => s.serveOne d) { s with behind := [] }

/-! ## Host windows (R242) -/

/-- A request that reaches BAR2 (R235, R242). An access of a length or an alignment that registers do not
have has the behaviour of R17 wherever the window maps it, as R15 gives; where it maps nothing it is
logged with the address the window's base would give it (log 33). -/
def State.windowAccess (s : State) (t : Nat) (write : Bool) (off len value : Nat) : State :=
  if !s.hostSends || (!write && s.forcedFull 4) then s
  else if !(s.fn t).mse ∨ (s.fn t).d3hot ∨ 0x10000000 < off + len then
    if write then s.aerBit t .refusedWrite else (s.aerBit t .refusedRead).emit (.unsupported t)
  else if !s.reachable t then (if write then s else s.emit (.cpl t (cplWords len 0)))
  else
    let n := off / 0x400000
    let o := off % 0x400000
    match (if s.checksEnd then (s.win t n).target write o else none) with
    | some a => s.serveOne { who := .window t, write := write, addr := a, len := len, data := leBytes 8 value }
    | none =>
      if !aligned off len then
        let s := s.reservedAccess (.window t) ((s.win t n).base * 4096 + o)
        if write then s else s.emit (.cpl t (cplWords len 0))
      else
        let s := s.windowMiss t n
        if write then s else s.emit (.cpl t (cplWords len 0))

/-! ## Registers that a read clears (R8) -/

/-- The RC fields of the DIA. -/
def State.isRc (s : State) (a : Nat) : Bool :=
  let sup := a - 0x8000000
  match regionOf a with
  | .supervisor =>
    [0x00D0, 0x8010, 0x8014, 0x8018, 0x10010, 0x10020, 0x10024, 0x1C020, 0x1C024].contains sup
  | .ports =>
    let o := a % 0x4000
    [0x010, 0x014, 0x018, 0x01C, 0x020, 0x024].contains o ||
      (o == 0x100 && s.portType ((a - 0x4000000) / 0x4000) == 4)
  | _ => false

/-! ## Commands -/

/-- DIA_ACCESS (R16): one request that the arbiter serves. A thread's own instructions are their own
rows; this row answers no thread. -/
def execDiaAccess (who : Requester) (write : Bool) (addr len : Nat) (data : List Byte) (s : State) :
    Host.Outcome State Fault Refusal :=
  answer (if s.mode.mode = .reset then s
    else s.serveBehind.serveOne { who := who, write := write, addr := addr, len := len, data := data })

/-- WINDOW_ACCESS (R242). -/
def execWindowAccess (t : TenantId) (write : Bool) (off len : Nat) (data : List Byte) (s : State) :
    Host.Outcome State Fault Refusal :=
  answer (s.serveBehind.windowAccess t write off len (leNat (data.take 8)))

/-- REGISTER_WRITE (R7): a host write of BAR0 or of configuration space. -/
def execRegisterWrite (t : TenantId) (config : Bool) (off len : Nat) (data : List Byte) (s : State) :
    Host.Outcome State Fault Refusal :=
  answer (if config then (if s.configOpen t then s.configWrite t off len data else s.configRetry t)
    else s.hostWriting t (fun s => s.hostBar0 t off len data))

/-- An access of a register of 32 bits that has a row of its own takes its place among its requester's
accesses (R16). -/
def State.registerAccess (s : State) (who : Requester) (write : Bool) (a v : Nat) : State :=
  let s := s.serveBehind
  let d : DiaRequest := { who := who, write := write, addr := a, len := 4, data := leBytes 4 v }
  match who with
  | .window t =>
    if write then s.hostWriting t (fun s => s.serveOne d) else s.readGate t 4 (fun s => s.serveOne d)
  | .keeper | .ring _ | .dma _ => if s.mode.mode = .reset then s else s.serveOne d

/-- RC_FIELD_READ (R8): a read of an RC field, by any path, returns its value and clears it. -/
def execRcFieldRead (who : Requester) (addr : Nat) (s : State) : Host.Outcome State Fault Refusal :=
  answer (if s.isRc addr then s.registerAccess who false addr 0 else s)

/-- TB_NOW_LO_READ (R431). -/
def execTbNowLoRead (who : Requester) (s : State) : Host.Outcome State Fault Refusal :=
  answer (s.registerAccess who false 0x3300000 0)

/-- TB_TOD_SEC_LO_READ (R431). -/
def execTbTodSecLoRead (who : Requester) (s : State) : Host.Outcome State Fault Refusal :=
  answer (s.registerAccess who false 0x3300010 0)

/-- TB_PPS_IN_LO_READ (R431). -/
def execTbPpsInLoRead (who : Requester) (s : State) : Host.Outcome State Fault Refusal :=
  answer (s.registerAccess who false 0x3300020 0)

/-- First DIA address of a partner entry (R415). -/
def partnerAddr (i : Nat) : Nat := 0x3000000 + 64 * i

/-- PARTNER_VALIDATE (R416): a write of word 0 with VALID = 1. -/
def execPartnerValidate (who : Requester) (i : PartnerId) (v : Word) (s : State) :
    Host.Outcome State Fault Refusal :=
  answer (s.registerAccess who true (partnerAddr i) (v ||| 0x80).toNat)

/-- PARTNER_INVALIDATE (R416): a write of word 0 with VALID = 0. -/
def execPartnerInvalidate (who : Requester) (i : PartnerId) (v : Word) (s : State) :
    Host.Outcome State Fault Refusal :=
  answer (s.registerAccess who true (partnerAddr i) (v &&& 0xFFFFFF7F#32).toNat)

/-- CLR_TALLY (R415): a write of word 0 with CLR_TALLY = 1. -/
def execClrTally (who : Requester) (i : PartnerId) (v : Word) (s : State) :
    Host.Outcome State Fault Refusal :=
  answer (s.registerAccess who true (partnerAddr i) (v ||| 0x80000).toNat)

/-- TALLY_LO_READ (R418): word 8 or, of REJECTED, word 10. -/
def execTallyLoRead (who : Requester) (i : PartnerId) (rejected : Bool) (s : State) :
    Host.Outcome State Fault Refusal :=
  answer (s.registerAccess who false (partnerAddr i + (if rejected then 40 else 32)) 0)

/-- The answer of a window's read waits for X4 (R24, R27). -/
def State.cplHeld (s : State) (a : FabAccess) : Bool :=
  (match a.who with | .window _ => !a.write | _ => false) && s.cplWaits

/-- UACK (R75): the acknowledgement that an edge of the interface clock sampled, with its URDATA,
completes the outstanding access; one of 64 bits is two (R15). What waited behind it follows (R16). With
nothing outstanding, or nothing sampled, there is none; a window's read waits for X4 (R24, R27). -/
def execUack (i : IslandId) (s : State) : Host.Outcome State Fault Refusal :=
  let u := (s.isl i).ureg
  answer (match u.busy, u.ack with
    | some a, some rdata =>
      if s.cplHeld a then s
      else
      let got := if a.write then [] else a.got ++ [rdata]
      match a.upper with
      | some hi => s.present i { a with addr := a.addr + 1, data := hi, upper := none, got := got }
      | none => ((s.nextAccess i).accessDone a 0 got).serveBehind
    | _, _ => s)

/-- FABRIC_ACCESS_TIMEOUT (R76): 4,096 core cycles without UACK. -/
def execFabricAccessTimeout (i : IslandId) (s : State) : Host.Outcome State Fault Refusal :=
  let u := (s.isl i).ureg
  answer (match u.busy with
    | some a =>
      if u.ack.isSome || s.cplHeld a then s else ((s.nextAccess i).accessDone a 0x25 a.zeros).serveBehind
    | none => s)

end Sys2Proof.Machine
end

