-- ==== Sys2Proof/Machine/Control.lean ====
section
/-! DEFINITION. The control instructions (R320, R336, R340 to R346): reserved opcodes, NOP, FENCE, JUMP,
BRANCH, LOOP, CALL, RET, WAIT_TIME, WAIT_EVENT, HALT, and the ends of waits. -/

namespace Sys2Proof.Machine

/-! ## Transfers of control (R340 to R342) -/

/-- The instruction is one of a PROGRAM ring (R326). -/
def State.inProgram (s : State) (r : Nat) : Bool := (s.ring r).kind == 2

/-- The word that runs after the instruction in flight (R328). -/
def State.goTo (s : State) (r target : Nat) : State := s.modCur r (fun c => { c with next := target })

/-- The target of JUMP and CALL. -/
def State.jumpTarget (s : State) (r : Nat) (c : Cur) : Nat :=
  if bitAt (c.word 1) 24 then (s.thr r).reg (c.op 1 17 4) % 2 ^ 17 else c.op 1 0 17

/-- COND holds (R342). -/
def Thread.holds (t : Thread) (cond : Nat) : Bool :=
  match cond with
  | 0 => t.z
  | 1 => !t.z
  | 2 => t.c
  | 3 => !t.c
  | 4 => t.n
  | 5 => !t.n
  | 6 => t.c || t.z
  | 7 => !t.c && !t.z
  | 8 => t.s == 0
  | 9 => t.s != 0
  | 10 => t.s == 0x12
  | _ => false

/-- Checks of the instructions that a PROGRAM ring alone may run. -/
def State.programCheck (s : State) (r length : Nat) (fieldsOk : Cur → Bool) (c : Cur) : Option Nat :=
  formatCheck c (c.length == length) (fieldsOk c) (s.inProgram r)

/-- Reserved bits of JUMP and CALL. -/
def jumpFields (c : Cur) : Bool := c.op 1 21 3 == 0 && c.op 1 25 7 == 0

/-- RESERVED_OPCODE (R320): BAD_OPCODE. -/
def execReservedOpcode (r : RingId) (s : State) : Host.Outcome State Fault Refusal :=
  answer (s.runInsn r (fun op => !listedOpcode op) (fun _ => some 0x01) (fun _ s => s))

/-- NOP: its operand words are ignored. -/
def execOvNop (r : RingId) (s : State) : Host.Outcome State Fault Refusal :=
  answer (s.runInsn r (· == 0x00) (fun c => formatCheck c true true true) (fun _ s => s.endInstr r 0 0))

/-- FENCE (R336): the driver runs it behind its fence. -/
def execOvFence (r : RingId) (s : State) : Host.Outcome State Fault Refusal :=
  answer (s.runInsn r (· == 0x01) (fun c => formatCheck c (c.length == 0) true true)
    (fun _ s => s.endInstr r 0 0))

/-- JUMP. -/
def execOvJump (r : RingId) (s : State) : Host.Outcome State Fault Refusal :=
  answer (s.runInsn r (· == 0x02) (s.programCheck r 1 jumpFields) (fun c s =>
    (s.goTo r (s.jumpTarget r c)).endInstr r 0 0))

/-- BRANCH. -/
def execOvBranch (r : RingId) (s : State) : Host.Outcome State Fault Refusal :=
  answer (s.runInsn r (· == 0x03)
    (s.programCheck r 1 (fun c => c.op 1 17 3 == 0 && c.op 1 24 8 == 0 && decide (c.op 1 20 4 ≤ 10)))
    (fun c s => (if (s.thr r).holds (c.op 1 20 4) then s.goTo r (c.op 1 0 17) else s).endInstr r 0 0))

/-- LOOP: XC counts down, and the branch is taken while it is not 0. -/
def execOvLoop (r : RingId) (s : State) : Host.Outcome State Fault Refusal :=
  answer (s.runInsn r (· == 0x04)
    (s.programCheck r 1 (fun c => c.op 1 17 4 != 0 && c.op 1 21 11 == 0))
    (fun c s =>
      let left := ((s.thr r).reg (c.op 1 17 4) + (2 ^ 64 - 1)) % 2 ^ 64
      let s := s.setReg r (c.op 1 17 4) left
      (if left ≠ 0 then s.goTo r (c.op 1 0 17) else s).endInstr r 0 0))

/-- CALL: the next instruction's index is pushed on a return stack of 8. -/
def execOvCall (r : RingId) (s : State) : Host.Outcome State Fault Refusal :=
  answer (s.runInsn r (· == 0x05) (s.programCheck r 1 jumpFields) (fun c s =>
    if 8 ≤ (s.thr r).stack.length then s.endInstr r 0x05 0
    else
      ((s.modThr r (fun t => { t with stack := c.next :: t.stack })).goTo r (s.jumpTarget r c)).endInstr r 0 0))

/-- RET: the popped entry. -/
def execOvRet (r : RingId) (s : State) : Host.Outcome State Fault Refusal :=
  answer (s.runInsn r (· == 0x06) (s.programCheck r 0 (fun _ => true)) (fun _ s =>
    match (s.thr r).stack with
    | [] => s.endInstr r 0x05 0
    | w :: rest => ((s.modThr r (fun t => { t with stack := rest })).goTo r w).endInstr r 0 0))

/-- HALT (R345): the ring's state follows where the instruction ends. -/
def execOvHalt (r : RingId) (s : State) : Host.Outcome State Fault Refusal :=
  answer (s.runInsn r (· == 0x09) (s.programCheck r 0 (fun _ => true)) (fun _ s => s.endInstr r 0 0))

/-! ## WAIT_TIME (R343) -/

/-- The LENGTH that MODE asks for; the reserved mode accepts either. -/
def waitTimeLength (c : Cur) : Bool :=
  match c.op 1 0 2 with
  | 0 => c.length == 2
  | 3 => c.length == 1 || c.length == 2
  | _ => c.length == 1

def waitTimeCheck (c : Cur) : Option Nat :=
  formatCheck c (waitTimeLength c) (c.op 1 0 2 != 3 && c.op 1 2 2 == 0 && c.op 1 8 24 == 0) true

/-- What a WAIT_TIME waits for: none where its deadline has been reached. -/
def State.waitOf (s : State) (r : Nat) (c : Cur) : Option Wait :=
  let x := (s.thr r).reg (c.op 1 4 4)
  match c.op 1 0 2 with
  | 0 => some (.delay (c.word 2))
  | 1 => some (.delay x)
  | _ => if x ≤ s.shadow then none else some (.deadline x)

/-- WAIT_TIME: it waits without a pair, and ends when its wait has. -/
def execWaitTime (r : RingId) (s : State) : Host.Outcome State Fault Refusal :=
  answer (s.runInsn r (· == 0x07) waitTimeCheck
    (fun c s =>
      if c.reply.isSome then s.endOk r 0
      else match s.waitOf r c with
        | none => s.endOk r 0
        | some w => s.waitFor r w)
    (fun c s => if c.reply.isSome || (s.waitOf r c).isNone then .clean else .later))

/-- WAIT_TIME_END: the delay has passed, or the shadow has reached the deadline. -/
def execWaitTimeEnd (r : RingId) (s : State) : Host.Outcome State Fault Refusal :=
  answer (match (s.thr r).wait with
    | .delay _ => s.wakeThread r 0 0
    | .deadline d => if d ≤ s.shadow then s.wakeThread r 0 0 else s
    | _ => s)

/-! ## WAIT_EVENT (R344) -/

def State.waitEventCheck (s : State) (r : Nat) (c : Cur) : Option Nat :=
  let src := c.op 1 0 3
  formatCheck c (c.length == 2)
    (decide (src ≤ 2) && c.op 1 3 13 == 0 && c.op 1 28 4 == 0 && (src == 1 || c.op 1 16 12 == 0))
    (src != 0 || s.inProgram r)

/-- The condition of a source holds (R344). A partner's holds also while its port is RETIRED and the
final record has not been delivered (R421). -/
def State.eventHolds (s : State) (r source partner : Nat) : Bool :=
  match source with
  | 0 => (s.thr r).dbPend
  | 1 =>
    let x := s.partner partner
    !x.frames.isEmpty || (s.portState x.port == 5 && !x.final)
  | _ => (s.thr r).ppsPend

/-- The condition met is consumed. -/
def State.consume (s : State) (r source : Nat) : State :=
  match source with
  | 0 => s.modThr r (fun t => { t with dbPend := false })
  | 1 => s
  | _ => s.modThr r (fun t => { t with ppsPend := false })

/-- A WAIT_EVENT names a partner that the tenant does not own. -/
def State.eventDenied (s : State) (r : Nat) (c : Cur) : Bool :=
  c.op 1 0 3 == 1 && !ownedBy (s.partnerOwner (c.op 1 16 12)) (ringTenant r)

/-- WAIT_EVENT. The check of the partner is made again when the wait has ended (R397). -/
def execWaitEvent (r : RingId) (s : State) : Host.Outcome State Fault Refusal :=
  answer (s.runInsn r (· == 0x08) (s.waitEventCheck r)
    (fun c s =>
      let src := c.op 1 0 3
      let partner := c.op 1 16 12
      let done := fun (s : State) =>
        (if (s.ring r).state = .flushing then s else s.consume r src).endOk r 0
      if s.eventDenied r c then s.denyInsn r c (partnerAddr partner)
      else match c.reply with
        | some (0x12, _) => s.endInstr r 0x12 0
        | some _ => done s
        | none =>
          if s.eventHolds r src partner then done s
          else s.waitFor r (.event src partner (c.word 2)))
    (fun c s =>
      if c.reply.isSome || s.eventDenied r c || s.eventHolds r (c.op 1 0 3) (c.op 1 16 12) then .clean
      else .later))

/-- WAIT_EVENT_END: the condition has become visible. -/
def execWaitEventEnd (r : RingId) (s : State) : Host.Outcome State Fault Refusal :=
  answer (match (s.thr r).wait with
    | .event src partner _ => if s.eventHolds r src partner then s.wakeThread r 0 0 else s
    | _ => s)

/-- WAIT_EVENT_TIMEOUT: TIMEOUT ns have passed first. -/
def execWaitEventTimeout (r : RingId) (s : State) : Host.Outcome State Fault Refusal :=
  answer (match (s.thr r).wait with
    | .event src partner timeout =>
      if timeout ≠ 0 ∧ !s.eventHolds r src partner then s.wakeThread r 0x12 0 else s
    | _ => s)

end Sys2Proof.Machine
end

