-- ==== Sys2Proof/Machine/DeviceOps.lean ====
section
/-! DEFINITION. Device access and data movement (R350 to R358, R379 to R381): RD_DIA, WR_DIA, RD_FAB,
WR_FAB, COPY_IN, COPY_OUT, MOVE. -/

namespace Sys2Proof.Machine

/-! ## Addresses and ranges (R350, R352, R354, R379) -/

/-- A DIA address: a source plus an immediate, modulo 2^32. -/
def State.diaAddr (s : State) (r sel imm : Nat) : Nat := (s.src r sel + imm) % 2 ^ 32

/-- First DIA address of an island's user registers, and of a port's registers. -/
def fabricAddr (i : Nat) : Nat := 0x1000000 + 0x40000 * i
def portAddr (p : Nat) : Nat := 0x4000000 + 0x4000 * p

/-- The tenant of a ring owns an island, a port, a partner entry, a range of a memory. -/
def State.ownsIsland (s : State) (r i : Nat) : Bool := ownedBy (s.islandOwner i) (ringTenant r)
def State.ownsPort (s : State) (r p : Nat) : Bool := ownedBy (s.portOwner p) (ringTenant r)
def State.ownsPartner (s : State) (r i : Nat) : Bool := ownedBy (s.partnerOwner i) (ringTenant r)
def State.ownsBytes (s : State) (r a len : Nat) : Bool := s.ownsRange (ringTenant r) a len

/-- A data read has found an uncorrectable error (R354): the tenant's fault block, and DATA_ERROR. -/
def State.dataError (s : State) (r : Nat) : State :=
  (s.tenFault (ringTenant r) 3 (ringLocal r) 8).endInstr r 8 0

/-! ## Device access (R355, R356) -/

/-- One of the four: where the access goes, and what its end does with what has been read. -/
structure DeviceAccess where
  write : Bool
  addr : Nat
  len : Nat
  value : Nat := 0
  /-- the register that a read fills -/
  xd : Nat := 0
  /-- RD_DIA: RESULT is the low word of the value -/
  shown : Bool := false

/-- An access made once even where it does not reach user logic (R353): a read of a port's registers
or of an RC field. A misaligned read is refused, and reads no field (R15). A write is made when the instruction
commits. -/
def State.onceRead (s : State) (a : DeviceAccess) : Bool :=
  !a.write && aligned a.addr a.len && (regionOf a.addr == .ports || s.isRc a.addr || (a.len == 8 && s.isRc (a.addr + 4)))

/-- The end of an access. A read without data leaves XD at 0. One that a flush meets ends FLUSHED_PARTIAL,
whatever its answer (R380). -/
def State.accessEnds (s : State) (r : Nat) (a : DeviceAccess) (status value : Nat) : State :=
  let v := if status = 0 then value else 0
  let s := if a.write then s else s.setReg r a.xd v
  if status = 8 then s.dataError r
  else if status = 0 ∨ (s.ring r).state = .flushing then s.endOk r (if a.shown then lo32 v else 0)
  else s.endInstr r status 0

/-- An earlier access of a ring waits or is at an island's logic: a later one waits for it (R16). -/
def State.behindOwn (s : State) (r : Nat) : Bool := s.outstanding (.ring r) || s.behindOf (.ring r)

/-- An access of a thread cannot be made yet: an earlier one of its ring is still to come, or a crossing that
it needs reports full (R16, R24, R27). -/
def State.accessHeld (s : State) (r : Nat) (a : DeviceAccess) : Bool :=
  s.behindOwn r || s.crossingHeld (.ring r) a.write a.addr a.len a.value

/-- The access, or what follows its answer. An access of user logic is made once and keeps the pair. -/
def State.access (s : State) (r : Nat) (c : Cur) (a : DeviceAccess) : State :=
  match c.reply with
  | some (status, value) => s.accessEnds r a status value
  | none =>
    match s.diaAccess (.ring r) c.opcode a.write a.addr a.len a.value with
    | (.done status value, s) => s.accessEnds r a status value
    | (.waits i, s) => s.modThr r (fun t => { t with wait := .fabric i })

/-- What an armed pair fault meets: one whose access was presented is made once; a seal may have ended it
before (R353, R390). -/
def State.accessStrike (s : State) (r : Nat) (c : Cur) (a : DeviceAccess) : Strike :=
  if c.reply.isSome then (if c.once then .made s else .clean)
  else match s.diaAccess (.ring r) c.opcode a.write a.addr a.len a.value with
    | (.waits _, _) => .later
    | (.done status _, s') => if s.onceRead a ∧ status = 0 then .made s' else .clean

def rdDiaCheck (c : Cur) : Option Nat :=
  formatCheck c (c.length == 2) (srcOk (c.op 1 4 5) && c.op 1 10 22 == 0) true
def wrDiaCheck (c : Cur) : Option Nat :=
  formatCheck c (c.length == 2) (srcOk (c.op 1 0 5) && srcOk (c.op 1 5 5) && c.op 1 11 21 == 0) true
def rdFabCheck (c : Cur) : Option Nat :=
  formatCheck c (c.length == 2) (srcOk (c.op 1 4 5) && decide (c.op 1 16 6 ≤ 47) && c.op 1 9 7 == 0 &&
    c.op 1 22 10 == 0) true
def wrFabCheck (c : Cur) : Option Nat :=
  formatCheck c (c.length == 2) (srcOk (c.op 1 0 5) && srcOk (c.op 1 5 5) &&
    decide (c.op 1 16 6 ≤ 47) && c.op 1 10 6 == 0 && c.op 1 22 10 == 0) true

def State.rdDia (s : State) (r : Nat) (c : Cur) : DeviceAccess :=
  { write := false, addr := s.diaAddr r (c.op 1 4 5) (c.word 2)
    len := if bitAt (c.word 1) 9 then 8 else 4, xd := c.op 1 0 4, shown := true }
def State.wrDia (s : State) (r : Nat) (c : Cur) : DeviceAccess :=
  { write := true, addr := s.diaAddr r (c.op 1 5 5) (c.word 2)
    len := if bitAt (c.word 1) 10 then 8 else 4, value := s.src r (c.op 1 0 5) }

/-- The byte offset of RD_FAB and WR_FAB: no modulus applies to it. -/
def State.fabOffset (s : State) (r : Nat) (c : Cur) (lo : Nat) : Nat := s.src r (c.op 1 lo 5) + c.word 2

def State.rdFab (s : State) (r : Nat) (c : Cur) : DeviceAccess :=
  { write := false, addr := fabricAddr (c.op 1 16 6) + s.fabOffset r c 4, len := 4, xd := c.op 1 0 4 }
def State.wrFab (s : State) (r : Nat) (c : Cur) : DeviceAccess :=
  { write := true, addr := fabricAddr (c.op 1 16 6) + s.fabOffset r c 5, len := 4
    value := s.src r (c.op 1 0 5) }

/-- RD_DIA. -/
def execRdDia (r : RingId) (s : State) : Host.Outcome State Fault Refusal :=
  answer (s.runInsn r (· == 0x20) rdDiaCheck (fun c s => s.access r c (s.rdDia r c))
    (fun c s => s.accessStrike r c (s.rdDia r c)) (fun c s => c.reply.isNone && s.accessHeld r (s.rdDia r c)))

/-- WR_DIA. -/
def execWrDia (r : RingId) (s : State) : Host.Outcome State Fault Refusal :=
  answer (s.runInsn r (· == 0x21) wrDiaCheck (fun c s => s.access r c (s.wrDia r c))
    (fun c s => s.accessStrike r c (s.wrDia r c)) (fun c s => c.reply.isNone && s.accessHeld r (s.wrDia r c)))

/-- An offset past the island's 0x4_0000 bytes, looked at where the access is made. -/
def State.fabOutside (s : State) (r : Nat) (c : Cur) (lo : Nat) : Bool :=
  c.reply.isNone && decide (0x40000 ≤ s.fabOffset r c lo)

/-- RD_FAB: an offset outside the island is BAD_RANGE, found before any effect, and leaves XD as it was
(R322, R352; DESIGN CHOICE, log 59). -/
def execRdFab (r : RingId) (s : State) : Host.Outcome State Fault Refusal :=
  answer (s.runInsn r (· == 0x22) rdFabCheck
    (fun c s => if s.fabOutside r c 4 then s.endInstr r 0x20 0 else s.access r c (s.rdFab r c))
    (fun c s => if s.fabOutside r c 4 then .clean else s.accessStrike r c (s.rdFab r c))
    (fun c s => c.reply.isNone && s.accessHeld r (s.rdFab r c)))

/-- WR_FAB. -/
def execWrFab (r : RingId) (s : State) : Host.Outcome State Fault Refusal :=
  answer (s.runInsn r (· == 0x23) wrFabCheck
    (fun c s => if s.fabOutside r c 5 then s.endInstr r 0x20 0 else s.access r c (s.wrFab r c))
    (fun c s => if s.fabOutside r c 5 then .clean else s.accessStrike r c (s.wrFab r c))
    (fun c s => c.reply.isNone && s.accessHeld r (s.wrFab r c)))

/-! ## Data movement (R357, R358, R380, R397) -/

/-- The longest transfer. -/
def maxMove : Nat := 16777216

/-- The addresses and the length formed at the start are kept (R381). -/
def State.keepRange (s : State) (r a0 a1 len : Nat) : State :=
  s.modCur r (fun c => { c with a0 := a0, a1 := a1, len := len })

def copyCheck (c : Cur) : Option Nat :=
  formatCheck c (c.length == 5)
    (srcOk (c.op 1 0 5) && srcOk (c.op 1 5 5) && srcOk (c.op 1 10 5) && c.op 1 15 17 == 0) true
def moveCheck (c : Cur) : Option Nat :=
  formatCheck c (c.length == 4)
    (srcOk (c.op 1 0 5) && srcOk (c.op 1 5 5) && srcOk (c.op 1 10 5) && c.op 1 15 17 == 0) true

/-- The start of COPY_IN and COPY_OUT: the range rules, then the charter; then the first unit. -/
def State.copyStart (s : State) (r : Nat) (c : Cur) (unit : Cur → State → State) : State :=
  let host := (s.src r (c.op 1 0 5) + c.wide 2) % 2 ^ 64
  let dia := s.diaAddr r (c.op 1 5 5) (c.word 4)
  let len := s.src r (c.op 1 10 5) + c.word 5
  if maxMove < len then s.endInstr r 0x20 0
  else if len = 0 then s.endOk r 0
  else if !inMemory dia len then s.endInstr r 0x20 0
  else if !s.ownsBytes r dia len then s.denyInsn r c dia
  else
    unit { c with a0 := host, a1 := dia, len := len }
      ((s.keepRange r host dia len).askBegin r host (host + len) (c.opcode == 0x31))

/-- The unit of a copy in progress: its DIA address and its length. -/
def Cur.copyUnit (c : Cur) : Nat × Nat :=
  (c.a1 + c.progress, chunkLen ((c.a0 + c.progress) % 2 ^ 64) (c.len - c.progress))

/-- A unit of COPY_IN: its data is read without a pair, and written once the tenant still owns the
range. -/
def State.copyInUnit (s : State) (r : Nat) (c : Cur) : State :=
  let (a, len) := c.copyUnit
  if !s.ownsBytes r a len then s.denyInsn r c a
  else match c.staged with
    | none => s.waitFor r .dma
    | some bytes => (s.memPut a bytes).unitDone r len (c.progress + len == c.len)

/-- A unit of COPY_OUT: read into the commit buffer, then written by the DMA engine. Its thread waits for the
writes without a pair, so that each chunk takes a grant of its own (DESIGN CHOICE, log 61). -/
def State.copyOutUnit (s : State) (r : Nat) (c : Cur) : State :=
  let (a, len) := c.copyUnit
  if !s.ownsBytes r a len then s.denyInsn r c a
  else if s.memFails a len then (s.countBad a).dataError r
  else ((s.noteRead a len).modCur r (fun c => { c with staged := some (s.memBytes a len) })).waitFor r .dma

def State.copyIn (s : State) (r : Nat) (c : Cur) : State :=
  if c.started then s.copyInUnit r c else s.copyStart r c (fun c s => s.copyInUnit r c)

/-- A run has left its thread waiting, with nothing released: the instruction goes on, and no record of it has
been begun by that run (R385, R522). -/
def State.onlyWaits (s after : State) (r : Nat) : Bool :=
  (after.thr r).wait != .none && (after.thr r).cur.any (fun c => c.fin.isNone) &&
    !(after.recordBegun r && !s.recordBegun r)

/-- A run that only leaves its thread waiting releases nothing yet. -/
def State.waitStrike (r : Nat) (body : Cur → State → State) (c : Cur) (s : State) : Strike :=
  if s.onlyWaits (body c s) r then .later else .clean

/-- COPY_IN. -/
def execCopyIn (r : RingId) (s : State) : Host.Outcome State Fault Refusal :=
  answer (s.runInsn r (· == 0x30) copyCheck (fun c s => s.copyIn r c)
    (State.waitStrike r (fun c s => s.copyIn r c)) (fun c s => c.staged.isSome && s.behindOwn r))

/-- COPY_OUT. -/
def execCopyOut (r : RingId) (s : State) : Host.Outcome State Fault Refusal :=
  answer (s.runInsn r (· == 0x31) copyCheck (fun c s =>
    if c.started then s.copyOutUnit r c else s.copyStart r c (fun c s => s.copyOutUnit r c))
    (held := fun _ s => s.behindOwn r))

/-- A unit of MOVE: the bytes up to the next 4 KiB-aligned destination address. -/
def State.moveUnit (s : State) (r : Nat) (c : Cur) : State :=
  let src := c.a0 + c.progress
  let dst := c.a1 + c.progress
  let len := chunkLen dst (c.len - c.progress)
  if !s.ownsBytes r src len then s.denyInsn r c src
  else if !s.ownsBytes r dst len then s.denyInsn r c dst
  else if s.memFails src len then (s.countBad src).dataError r
  else ((s.noteRead src len).memPut dst (s.memBytes src len)).unitDone r len (c.progress + len == c.len)

/-- The start of MOVE: the range rules of both ranges, the overlap, then the charter. -/
def State.moveStart (s : State) (r : Nat) (c : Cur) : State :=
  let src := s.diaAddr r (c.op 1 0 5) (c.word 2)
  let dst := s.diaAddr r (c.op 1 5 5) (c.word 3)
  let len := s.src r (c.op 1 10 5) + c.word 4
  if maxMove < len then s.endInstr r 0x20 0
  else if len = 0 then s.endOk r 0
  else if !inMemory src len || !inMemory dst len || Sys2Proof.Machine.overlaps src len dst len then
    s.endInstr r 0x20 0
  else if !s.ownsBytes r src len then s.denyInsn r c src
  else if !s.ownsBytes r dst len then s.denyInsn r c dst
  else (s.keepRange r src dst len).moveUnit r { c with a0 := src, a1 := dst, len := len }

/-- MOVE. -/
def execOvMove (r : RingId) (s : State) : Host.Outcome State Fault Refusal :=
  answer (s.runInsn r (· == 0x32) moveCheck (fun c s =>
    if c.started then s.moveUnit r c else s.moveStart r c) (held := fun _ s => s.behindOwn r))

end Sys2Proof.Machine
end

