-- ==== Sys2Proof/Machine/FabricOps.lean ====
section
/-! DEFINITION. The fabric instructions (R359 to R366): ISLAND_SEAL, FRAME_BEGIN, FRAME_LOAD, FRAME_READ,
ISLAND_RELEASE, CAPTURE, and a capture's edge and timeout (R103 to R105). -/

namespace Sys2Proof.Machine

/-- ISLAND of operand word 1. -/
def Cur.island (c : Cur) : Nat := c.op 1 0 6

/-! ## ISLAND_SEAL (R360) -/

def islandSealCheck (c : Cur) : Option Nat :=
  formatCheck c (c.length == 1) (decide (c.island ≤ 47) && c.op 1 6 26 == 0) true

def State.islandSeal (s : State) (r : Nat) (c : Cur) : State :=
  if !s.ownsIsland r c.island then s.denyInsn r c (fabricAddr c.island)
  else (s.sealIsland c.island .command).endOk r 0

/-- ISLAND_SEAL. -/
def execIslandSeal (r : RingId) (s : State) : Host.Outcome State Fault Refusal :=
  answer (s.runInsn r (· == 0x40) islandSealCheck (fun c s => s.islandSeal r c))

/-! ## FRAME_BEGIN (R361) -/

/-- Bytes of a manifest, and of a frame record. -/
def manifestBytes : Nat := 1064
def recordBytes : Nat := 260

def frameBeginCheck (c : Cur) : Option Nat :=
  formatCheck c (c.length == 2)
    (decide (c.island ≤ 47) && srcOk (c.op 1 8 5) && c.op 1 6 2 == 0 && c.op 1 13 19 == 0) true

/-- No load may open on the island now (R129, R198, R361). A bitstream load declares its islands with its
MANIFEST (R120). -/
def State.islandBusy (s : State) (i : Nat) : Bool :=
  (s.isl i).loadState == .open || s.repairOn i ||
    s.ldr.load.any (fun l => (l.phase == .afterManifest || l.phase == .body) && l.islands.contains i)

/-- The bitmap of a manifest for one island, none where the manifest is refused (check 3). -/
def islandManifest (i : Nat) (p : List Word) : Option (BitVec 168) :=
  let bits := wordsNat ((p.drop 10).take 256)
  let mine := field bits (168 * i) 168
  if bitAt (wordAt p 0) 0 ∨ bits = 0 ∨ bits ≠ mine <<< (168 * i) ∨
      wordAt p 1 ≠ countBelow 168 (bitAt mine) then none
  else some (BitVec.ofNat 168 mine)

/-- The load opens (R174). The home ports stop when it writes an I/O column frame, not before: it has not
sealed the island (R173). -/
def State.beginFrames (s : State) (r i : Nat) (p : List Word) (bitmap : BitVec 168) : State :=
  let load : FrameLoad :=
    { ring := r, bitmap := bitmap, count := wordAt p 1, digest := wordsBytes ((p.drop 2).take 8) }
  s.modIsl i (fun x => { x with loadState := .open, frameLoad := some load })

def State.frameBegin (s : State) (r : Nat) (c : Cur) : State :=
  let i := c.island
  let a := s.diaAddr r (c.op 1 8 5) (c.word 2)
  if !inMemory a manifestBytes then s.endInstr r 0x20 0
  else if !s.ownsIsland r i then s.denyInsn r c (fabricAddr i)
  else if !s.ownsBytes r a manifestBytes then s.denyInsn r c a
  else if !(s.isl i).sealed then s.endInstr r 0x22 0
  else if s.islandBusy i then s.endInstr r 0x26 0
  else if s.memFails a manifestBytes then (s.countBad a).dataError r
  else
    let s := s.noteRead a manifestBytes
    let p := bytesWords (s.memBytes a manifestBytes)
    match islandManifest i p with
    | none => s.endInstr r 0x2C 0
    | some bitmap => (s.beginFrames r i p bitmap).endOk r 0

/-- FRAME_BEGIN. -/
def execFrameBegin (r : RingId) (s : State) : Host.Outcome State Fault Refusal :=
  answer (s.runInsn r (· == 0x41) frameBeginCheck (fun c s => s.frameBegin r c)
    (held := fun _ s => s.behindOwn r))

/-! ## FRAME_LOAD (R362, R363) -/

/-- FAR and COUNT of FRAME_LOAD and FRAME_READ. -/
def Cur.far (c : Cur) : Nat := c.op 2 0 16
def Cur.loadCount (c : Cur) : Nat := c.op 2 16 8
def Cur.readCount (c : Cur) : Nat := c.op 2 16 14

/-- The frame that FAR names, where it is an island's. -/
def Cur.islandFrame (c : Cur) : Option Nat := (denseOf c.far).filter (fun n => n < 8064)

def frameLoadCheck (c : Cur) : Option Nat :=
  formatCheck c (c.length == 3)
    (srcOk (c.op 1 0 5) && c.op 1 5 27 == 0 && decide (1 ≤ c.loadCount ∧ c.loadCount ≤ 168) &&
      c.op 2 24 8 == 0 && c.islandFrame.isSome) true

/-- The load of an island that a ring owns and that is open. -/
def State.loadOf (s : State) (r i : Nat) : Option FrameLoad :=
  (s.isl i).frameLoad.filter (fun f => f.ring == r && (s.isl i).loadState == .open)

/-- The checks of a record for frame n of a load (R362): the first that fails. -/
def FrameLoad.refuses (f : FrameLoad) (i n : Nat) (data : List Word) (crc : Word) : Option Nat :=
  if f.last.any (fun k => n ≤ k) then some 0x2E
  else if !(n / 168 == i && f.bitmap.getLsbD (n % 168)) then some 0x2D
  else if recordCrc (faddrOf n) data ≠ crc then some 0x2F
  else none

/-- A record's frame is written, and the load counts it. -/
def State.writeFrameRecord (s : State) (i n : Nat) (data : List Word) : State :=
  let more := fun (f : FrameLoad) => { f with
    last := some n, written := f.written + 1
    sha := shaMore f.sha (leBytes 2 (faddrOf n) ++ wordsBytes data) }
  (s.loadFrame n (BitVec.ofNat 2048 (wordsNat data)) true).modIsl i (fun x => { x with
    frameLoad := x.frameLoad.map more })

/-- The load completes (R175, R363, R510); on a quarantined island its re-check follows (R198). -/
def State.frameLoadDone (s : State) (i : Nat) (f : FrameLoad) : State :=
  let s := s.modIsl i (fun x => { x with loadState := .complete, frameLoad := none })
  let s := s.modLdr (fun l => { l with
    persPartial := true, marks := l.marks ||| BitVec.ofNat 8192 (f.bitmap.toNat <<< (168 * i)) })
  if (s.isl i).quarantined then s.modTide (fun t => { t with rechecks := t.rechecks ++ [i] }) else s

/-- What follows a written record: the load's end and the instruction's, the instruction's last unit,
or the next one (R363). -/
def State.frameWritten (s : State) (r : Nat) (c : Cur) (i : Nat) : State :=
  match (s.isl i).frameLoad with
  | none => s
  | some f =>
    if f.written = f.count then
      if shaFinal f.sha = f.digest then (s.frameLoadDone i f).unitDone r 1 true
      else (s.modCur r (fun c => { c with progress := c.progress + 1 })).endInstr r 0x32 0
    else s.unitDone r 1 (c.progress + 1 == c.loadCount)

/-- A unit of FRAME_LOAD: one record. The thread waits at a frame boundary while X11 reports full (R24,
R27). -/
def State.frameLoadUnit (s : State) (r : Nat) (c : Cur) (first : Nat) : State :=
  let i := first / 168
  let n := first + c.progress
  let a := c.a0 + recordBytes * c.progress
  if s.forcedFull 11 then s
  else if !s.ownsIsland r i then s.denyInsn r c (fabricAddr i)
  else if !s.ownsBytes r a recordBytes then s.denyInsn r c a
  else match s.loadOf r i with
    | none => s.endInstr r 0x23 0
    | some f =>
      if s.memFails a recordBytes then (s.countBad a).dataError r
      else
        let s := s.noteRead a recordBytes
        let rec_ := bytesWords (s.memBytes a recordBytes)
        match f.refuses i n (rec_.take 64) (rec_.getD 64 0) with
        | some status => s.endInstr r status 0
        | none => (s.writeFrameRecord i n (rec_.take 64)).frameWritten r c i

/-- The start of FRAME_LOAD. -/
def State.frameLoadStart (s : State) (r : Nat) (c : Cur) (first : Nat) : State :=
  let i := first / 168
  let a := s.diaAddr r (c.op 1 0 5) (c.word 3)
  let len := recordBytes * c.loadCount
  if !inMemory a len then s.endInstr r 0x20 0
  else if !s.ownsIsland r i then s.denyInsn r c (fabricAddr i)
  else if !s.ownsBytes r a len then s.denyInsn r c a
  else (s.keepRange r a 0 len).frameLoadUnit r { c with a0 := a } first

/-- A run of FRAME_LOAD. -/
def State.frameLoadRun (s : State) (r : Nat) (c : Cur) : State :=
  let first := c.islandFrame.getD 0
  if c.started then s.frameLoadUnit r c first else s.frameLoadStart r c first

/-- A run that stays at a unit whose crossing x is forced full releases nothing yet (R27, R522). -/
def State.crossingStrike (x r : Nat) (body : Cur → State → State) (c : Cur) (s : State) : Strike :=
  let after := body c (s.modCur r (fun c => { c with started := true }))
  if s.forcedFull x && (after.thr r).cur.any (fun c => c.started && c.fin.isNone) then .later else .clean

/-- FRAME_LOAD. -/
def execFrameLoad (r : RingId) (s : State) : Host.Outcome State Fault Refusal :=
  answer (s.runInsn r (· == 0x42) frameLoadCheck (fun c s => s.frameLoadRun r c)
    (State.crossingStrike 11 r (fun c s => s.frameLoadRun r c)) (fun _ s => s.behindOwn r))

/-! ## FRAME_READ (R364) -/

def frameReadCheck (c : Cur) : Option Nat :=
  formatCheck c (c.length == 3)
    (srcOk (c.op 1 0 5) && c.op 1 5 27 == 0 && decide (1 ≤ c.readCount ∧ c.readCount ≤ 8192) &&
      c.op 2 30 2 == 0 && (denseOf c.far).any (fun n => n + c.readCount ≤ 8192)) true

/-- DIA address of a frame's data by dense index (R20). -/
def frameAddr (n : Nat) : Nat := 0x2000000 + 256 * n

/-- A unit of FRAME_READ: one frame. The readback waits while X12 reports full (R24, R27). -/
def State.frameReadUnit (s : State) (r : Nat) (c : Cur) (first : Nat) : State :=
  let n := first + c.progress
  let a := c.a1 + 256 * c.progress
  if s.forcedFull 12 then s
  else if !s.mayReadFrame (ringTenant r) n then s.denyInsn r c (frameAddr n)
  else if !s.ownsBytes r a 256 then s.denyInsn r c a
  else (s.memPut a (leBytes 256 (s.frame n).data.toNat)).unitDone r 1 (c.progress + 1 == c.readCount)

/-- The start of FRAME_READ. -/
def State.frameReadStart (s : State) (r : Nat) (c : Cur) (first : Nat) : State :=
  let a := s.diaAddr r (c.op 1 0 5) (c.word 3)
  let len := 256 * c.readCount
  if !inMemory a len then s.endInstr r 0x20 0
  else if !(List.range c.readCount).all (fun k => s.mayReadFrame (ringTenant r) (first + k)) then
    s.denyInsn r c (frameAddr first)
  else if !s.ownsBytes r a len then s.denyInsn r c a
  else (s.keepRange r 0 a len).frameReadUnit r { c with a1 := a } first

/-- A run of FRAME_READ. -/
def State.frameReadRun (s : State) (r : Nat) (c : Cur) : State :=
  let first := (denseOf c.far).getD 0
  if c.started then s.frameReadUnit r c first else s.frameReadStart r c first

/-- FRAME_READ. -/
def execFrameRead (r : RingId) (s : State) : Host.Outcome State Fault Refusal :=
  answer (s.runInsn r (· == 0x43) frameReadCheck (fun c s => s.frameReadRun r c)
    (State.crossingStrike 12 r (fun c s => s.frameReadRun r c)) (fun _ s => s.behindOwn r))

/-! ## ISLAND_RELEASE (R365, R179, R180, R397) -/

def islandReleaseCheck (c : Cur) : Option Nat :=
  formatCheck c (c.length == 2) (decide (c.island ≤ 47) && c.op 1 6 26 == 0) true

/-- The release is asked for, or joined where one of the island waits for its leave. -/
def State.askRelease (s : State) (r : Nat) (c : Cur) : State :=
  let i := c.island
  match (s.isl i).release with
  | some rel =>
    (s.modIsl i (fun x => { x with release := some { rel with rings := rel.rings ++ [r] } })).waitFor r
      (.release i)
  | none =>
    let timeout := if c.word 2 = 0 then s.leave.defaultNs else c.word 2
    let who := Asker.release i (some (ringTenant r))
    ((s.modIsl i (fun x => { x with release := some { mech := .instruction, rings := [r] } })).leaveAsk
      (s.deviceReq who timeout)).waitFor r (.release i)

def State.islandRelease (s : State) (r : Nat) (c : Cur) : State :=
  let i := c.island
  if !s.ownsIsland r i then s.denyInsn r c (fabricAddr i)
  else match c.reply with
    | some (0, _) => s.endOk r 0
    | some (0x21, _) => s.denyInsn r c (fabricAddr i)
    | some (status, _) => s.endInstr r status 0
    | none =>
      if !(s.isl i).sealed then s.endOk r 0
      else match s.releaseRefusal i with
        | some status => s.endInstr r status 0
        | none => s.askRelease r c

/-- ISLAND_RELEASE. -/
def execIslandRelease (r : RingId) (s : State) : Host.Outcome State Fault Refusal :=
  answer (s.runInsn r (· == 0x44) islandReleaseCheck (fun c s => s.islandRelease r c)
    (State.waitStrike r (fun c s => s.islandRelease r c)))

/-! ## CAPTURE (R366, R102 to R105) -/

def captureCheck (c : Cur) : Option Nat :=
  formatCheck c (c.length == 4)
    (srcOk (c.op 1 4 5) && c.op 1 9 23 == 0 && c.op 3 16 16 == 0 && c.wide 2 != 0) true

/-- The islands named. -/
def Cur.captureIslands (c : Cur) : List Nat := (List.range 48).filter (bitAt (c.wide 2))

/-- The snapshot is written, and the instruction ends. -/
def State.captureEnds (s : State) (r a mask : Nat) (bytes : List Byte) : State :=
  ((s.memPut a bytes).modCur r (fun c => { c with
    progress := countBelow 48 (bitAt mask), staged := none })).endOk r (lo32 mask)

/-- The start of CAPTURE: taken at once while the fabric is frozen. -/
def State.captureStart (s : State) (r : Nat) (c : Cur) : State :=
  let l := c.op 1 0 4
  let islands := c.captureIslands
  let a := s.diaAddr r (c.op 1 4 5) (c.word 4)
  let len := 16 + 72 * islands.length
  if !inMemory a len then s.endInstr r 0x20 0
  else match islands.find? (fun i => !s.ownsIsland r i) with
    | some i => s.denyInsn r c (fabricAddr i)
    | none =>
      if !s.ownsBytes r a len then s.denyInsn r c a
      else if (s.captureOn l).isSome then s.endInstr r 0x26 0
      else if s.mode.frozen then
        let got := s.captured l islands
        let (stamp, s) := s.edgeStamp (time64 s.tb.sec s.tb.nsec)
        s.captureEnds r a (capturedMask got) (captureBytes stamp got)
      else
        let cap : Capture := { ring := r, islands := BitVec.ofNat 48 (c.wide 2) }
        ((s.keepRange r 0 a len).setCapture l (some cap)).modThr r (fun t => { t with wait := .capture l })

def State.capture (s : State) (r : Nat) (c : Cur) : State :=
  match c.reply with
  | some (0, mask) => s.captureEnds r c.a1 mask (c.staged.getD [])
  | some (status, _) => s.endInstr r status 0
  | none => s.captureStart r c

/-- CAPTURE. -/
def execOvCapture (r : RingId) (s : State) : Host.Outcome State Fault Refusal :=
  answer (s.runInsn r (· == 0x45) captureCheck (fun c s => s.capture r c)
    (State.waitStrike r (fun c s => s.capture r c))
    (fun c s => (c.reply.isSome || s.mode.frozen) && s.behindOwn r))

/-- CAPTURE_EDGE (R103, R104): the line's latest rising edge is the first since the command crossed X9.
What the registers held once that edge had acted is the snapshot; nothing else changes. -/
def execCaptureEdge (l : LineId) (s : State) : Host.Outcome State Fault Refusal :=
  answer (match s.captureOn l with
    | some { ring, edge := some (time, got), .. } =>
      let (stamp, s) := s.edgeStamp time
      s.takeCapture ring l stamp got
    | _ => s)

/-- CAPTURE_TIMEOUT (R105): 4,096 core cycles without an edge. -/
def execCaptureTimeout (l : LineId) (s : State) : Host.Outcome State Fault Refusal :=
  answer (match s.captureOn l with
    | some { ring, edge := none, .. } => (s.dropCapture l).wakeThread ring 0x25 0
    | _ => s)

end Sys2Proof.Machine
end

