-- ==== Sys2Proof/Machine/Ltr.lean ====
section
/-! DEFINITION. Latency tolerance (R257, R258). -/

namespace Sys2Proof.Machine

/-- A segment receives: it is the segment of a partner entry whose port is active. -/
def State.receives (s : State) (seg : Nat) : Bool :=
  anyBelow 4096 (fun i => (s.partner i).segment == seg && s.portActive (s.partner i).port)

/-- Bytes of a segment that hold no undelivered data. -/
def State.segmentFree (s : State) (seg : Nat) : Nat :=
  65536 - ((s.partners.filter (fun e => e.2.segment == seg)).map (fun e => 64 * e.2.used)).sum

/-- Nanoseconds until a segment is full, less the device's own 20 µs, from the bytes its ports wrote
into it over the last 100 µs. -/
def State.segmentTolerance (s : State) (seg bytes : Nat) : Nat :=
  s.segmentFree seg * 100000 / bytes - 20000

/-- Bytes that the device's ports have written into a segment over the last 100 µs. -/
def State.inflowOf (s : State) (seg : Nat) : Nat :=
  ((s.link.inflow.filter (fun e => e.2.1 == seg && decide (s.coreNs < e.1 + 100000))).map (fun e => e.2.2)).sum

/-- The receiving segments into which a port has written over the last 100 µs. -/
def State.inflowSegments (s : State) : List Nat :=
  (List.range 128).filter (fun seg => s.inflowOf seg != 0 && s.receives seg)

/-- T of R257, none for no requirement. -/
def State.tolerance (s : State) : Option Nat :=
  s.inflowSegments.foldl (fun t seg =>
    let x := s.segmentTolerance seg (s.inflowOf seg)
    some (match t with | none => x | some y => min x y)) none

/-- Nanoseconds of a latency field. -/
def ltrNs (f : Nat) : Nat := field f 0 10 * 32 ^ field f 10 3

/-- A latency field: the smallest scale whose value fits in 10 bits, rounded down (R258). -/
def ltrField : Option Nat → Nat
  | none => 0
  | some t =>
    match (List.range 6).find? (fun k => decide (t / 32 ^ k ≤ 1023)) with
    | some k => t / 32 ^ k + 1024 * k + 0x8000
    | none => 1023 + 1024 * 5 + 0x8000

/-- The tolerance within the limits that function 0 holds. -/
def State.limited (s : State) (t : Option Nat) : Option Nat :=
  t.map (fun t => min t (min (ltrNs (s.fn 0).ltrSnoop) (ltrNs (s.fn 0).ltrNoSnoop)))

/-- A tolerance differs enough from the one last reported. -/
def ltrDiffers : Option Nat → Option Nat → Bool
  | none, none => false
  | some t, some u => decide (4 * (max t u - min t u) > u)
  | _, _ => true

/-- LTR_MESSAGE (R258): the first message after the enable was set, or a change; 100 µs after the
last one at the earliest. -/
def execLtrMessage (s : State) : Host.Outcome State Fault Refusal :=
  let t := s.limited s.tolerance
  let due := match s.link.ltrTime with
    | none => true
    | some at_ => decide (at_ + 100000 ≤ s.coreNs) && ltrDiffers t s.link.ltrTol
  answer (if (s.fn 0).ltrEn && s.link.up && !s.link.l2 && !s.forcedFull 2 && s.mode.mode != .reset && due then
      let f := ltrField t
      (s.modLink (fun l => { l with
        ltrLast := f, ltrTol := t.map (fun _ => ltrNs f), ltrTime := some s.coreNs })).emit (.ltr f f)
    else s)

end Sys2Proof.Machine
end

