-- ==== Sys2Proof/Machine/PortOps.lean ====
section
/-! DEFINITION. The port instructions (R367 to R371, R422 to R425): PORT_XMIT, PORT_ARM, PARTNER_POLL,
STAMP. -/

namespace Sys2Proof.Machine

/-! ## Common checks (R368, R379) -/

/-- PARTNER of operand word 1. -/
def Cur.partner (c : Cur) : Nat := c.op 1 0 12

/-- The unit that the charter refuses an instruction on a partner: the entry, or its port (R379). -/
def State.partnerDenied (s : State) (r i : Nat) : Option Nat :=
  if !s.ownsPartner r i then some (partnerAddr i)
  else if !s.ownsPort r (s.partner i).port then some (portAddr (s.partner i).port)
  else none

/-- The status of a port that is not ACTIVE: RETIRED or STOPPED (R368). -/
def State.portRefusal (s : State) (p : Nat) : Option Nat :=
  match s.portState p with
  | 4 => none
  | 5 => some 0x2A
  | _ => some 0x2B

/-! ## PORT_XMIT (R368) -/

/-- LEN of PORT_XMIT. -/
def Cur.xmitLen (c : Cur) : Nat := c.op 3 0 11

def portXmitCheck (c : Cur) : Option Nat :=
  formatCheck c (c.length == 3)
    (srcOk (c.op 1 12 5) && c.op 1 17 7 == 0 && c.op 1 28 4 == 0 && decide (1 ≤ c.xmitLen) &&
      c.op 3 11 21 == 0) true

/-- The entry of a partner has an uncorrectable error in one of its 16 words (R354). -/
def State.partnerFails (s : State) (i : Nat) : Bool := s.partnerBad.any (fun w => w / 16 == i)

/-- The frame enters X19 (R24), which reports full once it holds its depth (R515), and its thread waits for the
port's outcome. -/
def State.handFrame (s : State) (r : Nat) (c : Cur) (p : Nat) (bytes : List Byte) : State :=
  let frame : TxFrame := { ring := r, partner := c.partner, bytes := bytes }
  let s := s.modPort p (fun x => { x with txq := x.txq ++ [frame] })
  let s := if (s.port p).x19Full then s.noteFull 19 else s
  (s.modCur r (fun c => { c with progress := bytes.length })).waitFor r (.tx p)

/-- A frame to hand over: the port's state, the data, the protocol's checks (R441), room. -/
def State.xmitFrame (s : State) (r : Nat) (c : Cur) (a : Nat) : State :=
  let i := c.partner
  let p := (s.partner i).port
  if s.partnerFails i then s.dataError r
  else match s.portRefusal p with
  | some status => s.endInstr r status 0
  | none =>
    if s.memFails a c.xmitLen then (s.countBad a).dataError r
    else
      let bytes := s.memBytes a c.xmitLen
      let s := s.noteRead a c.xmitLen
      if (s.port p).starting then s.waitFor r (.txSpace p)
      else match s.txCheck p i bytes with
        | some reason => (s.txFails p 1).endInstr r 0x13 reason
        | none =>
          if s.txRoom p c.xmitLen then s.handFrame r c p bytes
          else (s.noteFull 19).waitFor r (.txSpace p)

/-- The port's outcome (R368): OK with the stamp, or a status with its reason. -/
def State.xmitEnds (s : State) (r : Nat) (c : Cur) (status value : Nat) : State :=
  if status = 0 then (s.setReg r (c.op 1 24 4) value).endOk r (lo32 value)
  else (s.modCur r (fun c => { c with progress := 0 })).endInstr r status value

/-- A run of PORT_XMIT: its start, its way on once X19 has room, or its outcome. The charter is looked at
again after each wait (R397). -/
def State.portXmit (s : State) (r : Nat) (c : Cur) : State :=
  let a := if c.started then c.a0 else s.diaAddr r (c.op 1 12 5) (c.word 2)
  if !inMemory a c.xmitLen then s.endInstr r 0x20 0
  else match s.partnerDenied r c.partner with
    | some unit => s.denyInsn r c unit
    | none =>
      if !s.ownsBytes r a c.xmitLen then s.denyInsn r c a
      else match c.reply with
        | some (status, value) => s.xmitEnds r c status value
        | none => (s.keepRange r a 0 c.xmitLen).xmitFrame r c a

/-- PORT_XMIT. A thread that waits for room has released nothing; the frame is released with its
handing over. -/
def execPortXmit (r : RingId) (s : State) : Host.Outcome State Fault Refusal :=
  answer (s.runInsn r (· == 0x50) portXmitCheck (fun c s => s.portXmit r c)
    (fun c s => match ((s.portXmit r c).thr r).wait with
      | .txSpace _ => .later
      | _ => .clean)
    (fun c s => c.reply.isNone && s.behindOwn r))

/-! ## PORT_ARM (R369) -/

def portArmCheck (c : Cur) : Option Nat :=
  formatCheck c (c.length == 2)
    (srcOk (c.op 1 16 5) && c.op 1 12 2 != 3 && c.op 1 15 1 == 0 && c.op 1 21 11 == 0) true

/-- A trigger time that is still to come. -/
def State.armTrigger (s : State) (c : Cur) (t : Nat) : Option Nat :=
  if bitAt (c.word 1) 14 ∧ time64 s.tb.sec s.tb.nsec < t then some t else none

def State.portArm (s : State) (r : Nat) (c : Cur) : State :=
  let i := c.partner
  let p := (s.partner i).port
  let t := if c.started then c.a0 else (s.src r (c.op 1 16 5) + c.word 2) % 2 ^ 64
  match s.partnerDenied r i with
  | some unit => s.denyInsn r c unit
  | none =>
    if s.partnerFails i then s.dataError r
    else match s.portRefusal p with
    | some status => s.endInstr r status 0
    | none =>
      if (s.port p).starting then (s.keepRange r t 0 0).waitFor r (.txSpace p)
      else (s.armPartner i (c.op 1 12 2) (s.armTrigger c t)).endOk r 0

/-- PORT_ARM: its write of the partner entry comes behind the earlier accesses of its ring (R16). -/
def execPortArm (r : RingId) (s : State) : Host.Outcome State Fault Refusal :=
  answer (s.runInsn r (· == 0x51) portArmCheck (fun c s => s.portArm r c)
    (State.waitStrike r (fun c s => s.portArm r c)) (fun c s => c.reply.isNone && s.behindOwn r))

/-! ## Records that an instruction produces (R305, R370, R376) -/

/-- A body filled up with zeros to the end of its last slot (R376, R422). -/
def padBody (words : List Word) : List Word :=
  words ++ List.replicate (4 * ((words.length + 4) / 4) - 1 - words.length) 0

/-- What producing a record gives: it is out (written, or lost), the thread waits, or a translation
has failed. -/
inductive Produced where
  | out (s : State)
  | waits (s : State)
  | fails (s : State)

/-- The body of an instruction's record for ring `dst` carries Relaxed Ordering for this ring (R276, R277): the
function that writes it, the owner of `dst`, has it enabled. -/
def State.recordRo (s : State) (r dst : Nat) (c : Cur) : Option Nat :=
  if (s.ring r).hinted && c.flagO && (s.fn (ringTenant dst)).relaxed then some r else none

/-- A record of an instruction for a ring. What a wait for it has brought is in the reply. Its writes are those of the
function that owns the ring they go to, with that function's enables and sizes, whose thread it may be (DESIGN CHOICE,
log 61). -/
def State.produce (s : State) (r dst : Nat) (c : Cur) (x : Rec) : Produced :=
  let ro := s.recordRo r dst c
  let settled := fun (s : State) => s.modCur r (fun c => { c with dest := none })
  match c.reply with
  | some (0x44, 1) => .fails (settled (s.recordLost dst x))
  | some (0, 2) => .out (settled s)
  | _ =>
    match s.tryRecord dst x ro with
    | (.waits, s) => .waits (s.waitRecord r dst x.slots)
    | (_, s) => .out (settled s)

/-! ## PARTNER_POLL (R370, R422 to R425) -/

def partnerPollCheck (c : Cur) : Option Nat :=
  formatCheck c (c.length == 1) (c.op 1 20 4 == 0 && c.op 1 28 4 == 0) true

/-- Frames that a poll delivers at most. -/
def Cur.pollMax (c : Cur) : Nat := if c.op 1 12 8 = 0 then 256 else c.op 1 12 8

/-- A RECEIVE record (R422): the payload's length, the fragment, the stamp, its epoch. -/
def receiveRecord (r i : Nat) (retried : Bool) (payload : List Byte) (len frag stamp epoch : Nat) : Rec :=
  let part := (payload.drop (112 * frag)).take 112
  { type := 2, status := 0, tag := i, retried := retried, from_ := r
    body := padBody ([reg32 [place len 0 11, place frag 11 5, flag (frag + 1 == fragments len) 16,
        place epoch 24 8], BitVec.ofNat 32 (lo32 stamp), BitVec.ofNat 32 (hi32 stamp)] ++ bytesWords part) }

/-- The final record of a partner whose port is RETIRED (R424). -/
def retiredRecord (r i : Nat) (retried : Bool) : Rec :=
  { receiveRecord r i retried [] 0 0 0 0 with status := 0x2A }

/-- The ring that a partner's records go to (R398, R415). -/
def State.pollRing (s : State) (i : Nat) : Option Nat :=
  (s.partnerOwner i).map (fun o => 4 * o + (s.partner i).ring)

/-- The poll ends: XD and PROGRESS hold the frames delivered. -/
def State.pollEnds (s : State) (r : Nat) (c : Cur) (status : Nat) : State :=
  let s := s.setReg r (c.op 1 24 4) c.progress
  if status = 0 then s.endOk r 0 else s.endInstr r status 0

/-- A frame taken whose records will not all be written is lost (R370, R423). -/
def State.pollLoses (s : State) (r : Nat) (c : Cur) : State :=
  (s.loseTaken c).modCur r (fun c => { c with taken := none })

/-- The oldest frame of a partner leaves its area for a poll. -/
def State.pollTakes (s : State) (r i : Nat) (frame : List Byte × Nat × Nat × Nat) : State :=
  (s.modPartner i (fun x => { x with frames := x.frames.drop 1 })).modCur r (fun c => { c with
    taken := some frame, frag := 0, once := true })

/-- A record of the frame in hand is out: the next fragment follows, or the frame counts. -/
def State.pollNext (s : State) (r : Nat) (c : Cur) (len : Nat) : State :=
  let last := c.frag + 1 == fragments len
  let s := s.modCur r (fun c => { c with
    reply := none
    progress := if last then c.progress + 1 else c.progress
    taken := if last then none else c.taken
    frag := if last then 0 else c.frag + 1 })
  if last ∧ c.progress + 1 = c.pollMax then s.pollEnds r { c with progress := c.progress + 1 } 0
  else s.boundary r

/-- An uncorrectable error in the oldest frame (R425): discarded, counted, logged. -/
def State.pollBad (s : State) (r i : Nat) (c : Cur) (a : Nat) : State :=
  let p := (s.partner i).port
  let s := (s.modPartner i (fun x => { x.reject 1 with frames := x.frames.drop 1 })).countBad a
  let s := s.event 0x0512 2 (scopeO (s.partnerOwner i)) [(1, p), (1, 0), (2, i), (4, a)]
  (s.setReg r (c.op 1 24 4) c.progress).dataError r

/-- A record for the partner's ring; without an owner there is none to write to. -/
def State.pollRecord (s : State) (r i : Nat) (c : Cur) (x : Rec) : Produced :=
  match s.pollRing i with
  | none => .out s
  | some dst => s.produce r dst c x

/-- No frame is left: the poll ends, with the final record of R424 where the port is RETIRED. -/
def State.pollEmpty (s : State) (r i : Nat) (c : Cur) : State :=
  let x := s.partner i
  if s.portState x.port ≠ 5 then s.pollEnds r c 0
  else if x.final then s.pollEnds r c 0x2A
  else match s.pollRecord r i c (retiredRecord r i c.retried) with
    | .out s => (s.modPartner i (fun x => { x with final := true })).pollEnds r c 0x2A
    | .waits s => s
    | .fails s => s.pollEnds r c 0x44

/-- The oldest frame: its first record needs space before it is taken (R370). It is taken where that record is
begun. -/
def State.pollFrame (s : State) (r i : Nat) (c : Cur) (f : Stored) : State :=
  let x := s.partner i
  let payload := (s.storedBytes x f).drop 16
  match s.pollRecord r i c (receiveRecord r i c.retried payload f.len 0 f.stamp f.epoch) with
  | .waits s' =>
    if !s'.recordBegun r then s'
    else match s.storedFails x f with
      | some a => s.pollBad r i c a
      | none => (s'.storedCorrects x f).pollTakes r i (payload, f.len, f.stamp, f.epoch)
  | .fails s => s.pollEnds r c 0x44
  | .out s' =>
    match s.storedFails x f with
    | some a => s.pollBad r i c a
    | none => ((s'.storedCorrects x f).pollTakes r i (payload, f.len, f.stamp, f.epoch)).pollNext r
        { c with frag := 0 } f.len

/-- The next record of the frame in hand. -/
def State.pollFragment (s : State) (r i : Nat) (c : Cur) (frame : List Byte × Nat × Nat × Nat) : State :=
  let (payload, len, stamp, epoch) := frame
  match s.pollRecord r i c (receiveRecord r i c.retried payload len c.frag stamp epoch) with
  | .out s => s.pollNext r c len
  | .waits s => s
  | .fails s => (s.pollLoses r c).pollEnds r c 0x44

/-- A record that has been begun is finished whatever has come since (R302, R380): then the poll goes on behind
it. -/
def State.pollFinish (s : State) (r i d : Nat) (c : Cur) : State :=
  let final := (s.ring d).part.any (fun p => p.1.status == 0x2A)
  match s.finishPart d (s.recordRo r d c) with
  | (.waits, s) => s.waitFor r (.record d)
  | (_, s) =>
    let s := s.modCur r (fun c => { c with dest := none })
    match c.taken with
    | some frame => s.pollNext r c frame.2.1
    | none => if final then (s.modPartner i (fun x => { x with final := true })).pollEnds r c 0x2A else s.boundary r

/-- A poll's next record: of the frame in hand, of the oldest one, or the last of all. -/
def State.pollOn (s : State) (r i : Nat) (c : Cur) : State :=
  match c.taken, (s.partner i).frames with
  | some frame, _ => s.pollFragment r i c frame
  | none, f :: _ => s.pollFrame r i c f
  | none, [] => s.pollEmpty r i c

/-- A run of PARTNER_POLL: one record. Where the charter takes the entry from a poll that has begun, XD holds the
frames delivered, as at every end of it (R370, R397). One that has been lost is done as though it had been written (R305). A flush
ends the poll before another one (R423). -/
def State.poll (s : State) (r : Nat) (c : Cur) : State :=
  let i := c.partner
  match s.begunRing r with
  | some d => s.pollFinish r i d c
  | none =>
  if c.lostRecord then s.pollOn r i c
  else match s.partnerDenied r i with
  | some unit =>
    let s := s.pollLoses r c
    (if c.started then s.setReg r (c.op 1 24 4) c.progress else s).denyInsn r c unit
  | none =>
    if c.started ∧ (s.ring r).state = .flushing then (s.pollLoses r c).pollEnds r c 0x10
    else if (s.port (s.partner i).port).starting then s.waitFor r (.txSpace (s.partner i).port)
    else if s.partnerFails i then ((s.pollLoses r c).setReg r (c.op 1 24 4) c.progress).dataError r
    else s.pollOn r i c

/-- What an armed pair fault meets: a frame taken by this run and not committed is lost (R522). -/
def State.pollStrike (s : State) (r : Nat) (c : Cur) : Strike :=
  let i := c.partner
  let ends := !c.lostRecord &&
    ((s.partnerDenied r i).isSome || s.partnerFails i || (c.started && (s.ring r).state == .flushing))
  if s.onlyWaits (s.poll r c) r then .later
  else match c.taken, (s.partner i).frames with
  | none, f :: _ =>
    if s.recordBegun r || ends || (s.storedFails (s.partner i) f).isSome then .clean
    else .made (s.pollTakes r i (((s.storedBytes (s.partner i) f).drop 16), f.len, f.stamp, f.epoch))
  | _, _ => .clean

/-- A run of a poll that may take a frame out of the harbour buffer comes behind the earlier accesses of its
ring (R16); one with a record or a frame in hand makes no access. -/
def State.pollHeld (s : State) (r : Nat) (c : Cur) : Bool :=
  (s.begunRing r).isNone && c.taken.isNone && s.behindOwn r

/-- PARTNER_POLL. -/
def execPartnerPoll (r : RingId) (s : State) : Host.Outcome State Fault Refusal :=
  answer (s.runInsn r (· == 0x52) partnerPollCheck (fun c s => s.poll r c) (fun c s => s.pollStrike r c)
    (fun c s => s.pollHeld r c))

/-! ## STAMP (R371) -/

def stampCheck (c : Cur) : Option Nat :=
  formatCheck c (c.length == 2) (srcOk (c.op 1 8 5) && c.op 1 14 18 == 0) true

/-- The 16 bytes that STORE writes. -/
def stampBytes (r time epoch : Nat) : List Byte :=
  leBytes 8 time ++ leBytes 2 epoch ++ leBytes 1 r ++ leBytes 5 0

/-- STAMP's effect: the time is written before the epoch, so where XD and XE name one register the epoch stays
(DESIGN CHOICE, log 59). -/
def State.stamp (s : State) (r : Nat) (c : Cur) : State :=
  let a := s.diaAddr r (c.op 1 8 5) (c.word 2)
  let time := s.shadow
  let epoch := s.shadowEpoch
  let out := fun (s : State) =>
    ((s.setReg r (c.op 1 0 4) time).setReg r (c.op 1 4 4) epoch).endOk r (lo32 time)
  if !bitAt (c.word 1) 13 then out s
  else if !inMemory a 16 then s.endInstr r 0x20 0
  else if !s.ownsBytes r a 16 then s.denyInsn r c a
  else out (s.memPut a (stampBytes r time epoch))

/-- STAMP. -/
def execOvStamp (r : RingId) (s : State) : Host.Outcome State Fault Refusal :=
  answer (s.runInsn r (· == 0x53) stampCheck (fun c s => s.stamp r c)
    (held := fun c s => bitAt (c.word 1) 13 && s.behindOwn r))

end Sys2Proof.Machine
end

