-- ==== Sys2Proof/Machine/NotifyOps.lean ====
section
/-! DEFINITION. The power and notification instructions (R372 to R378): LEAVE_REQ, LEAVE_REL, EMIT,
SIGNAL, LOG_MARK. -/

namespace Sys2Proof.Machine

/-! ## LEAVE_REQ and LEAVE_REL (R372 to R374) -/

def leaveReqCheck (c : Cur) : Option Nat :=
  formatCheck c (c.length == 3)
    (c.op 1 0 12 != 0 && c.op 1 14 2 == 0 && c.op 1 20 12 == 0 &&
      decide (1 ≤ c.op 2 0 20 ∧ c.op 2 0 20 ≤ 1000000) && c.op 2 20 12 == 0) true

/-- A lease is a program lease of a tenant. -/
def Lease.programOf (x : Lease) (t : Nat) : Bool :=
  match x.who with
  | .program r => ringTenant r == t
  | _ => false

/-- Program leases that a tenant holds. -/
def Leave.programLeases (l : Leave) (t : Nat) : Nat := (l.leases.filter (fun x => x.programOf t)).length

/-- The request of a LEAVE_REQ. -/
def State.programReq (s : State) (r : Nat) (c : Cur) : LeaveReq :=
  { who := .program r, cost := c.op 1 0 12, prio := c.op 1 12 2, duration := c.op 2 0 20
    timeout := if c.word 3 = 0 then s.leave.defaultNs else c.word 3, at_ := s.coreNs }

/-- A run of LEAVE_REQ: the request, or its answer. A grant that a flush meets is released (R380). -/
def State.leaveReqRun (s : State) (r : Nat) (c : Cur) : State :=
  match c.reply with
  | some (0, h) =>
    if (s.ring r).state = .flushing then (s.leaveDrop h).endOk r 0
    else (s.setReg r (c.op 1 16 4) h).endInstr r 0 h
  | some (status, _) => s.endInstr r status 0
  | none =>
    if 16 ≤ s.leave.programLeases (ringTenant r) then s.endInstr r 0x26 0
    else (s.leaveAsk (s.programReq r c)).waitFor r .leave

/-- LEAVE_REQ. -/
def execLeaveReq (r : RingId) (s : State) : Host.Outcome State Fault Refusal :=
  answer (s.runInsn r (· == 0x60) leaveReqCheck (fun c s => s.leaveReqRun r c)
    (State.waitStrike r (fun c s => s.leaveReqRun r c)))

def leaveRelCheck (c : Cur) : Option Nat :=
  formatCheck c (c.length == 1) (srcOk (c.op 1 0 5) && c.op 1 5 27 == 0) true

/-- LEAVE_REL: any thread of the tenant that holds the lease. -/
def execLeaveRel (r : RingId) (s : State) : Host.Outcome State Fault Refusal :=
  answer (s.runInsn r (· == 0x61) leaveRelCheck (fun c s =>
    let h := s.src r (c.op 1 0 5) % 65536
    if s.leave.leases.any (fun x => x.handle == h && x.programOf (ringTenant r)) then
      (s.leaveDrop h).endOk r 0
    else s.endInstr r 0x33 0))

/-! ## EMIT (R375, R376) -/

/-- SRC, NW, XB of EMIT. -/
def Cur.emitSrc (c : Cur) : Nat := c.op 1 2 2
def Cur.emitWords (c : Cur) : Nat := c.op 1 4 5
def Cur.emitReg (c : Cur) : Nat := c.op 1 9 4

/-- The LENGTH that SRC and NW ask for; the reserved SRC accepts any with its operand word. -/
def emitLength (c : Cur) : Bool :=
  match c.emitSrc with
  | 0 => decide (c.emitWords ≤ 30) && c.length == 1 + c.emitWords
  | 1 => c.length == 2
  | 2 => c.length == 1
  | _ => decide (1 ≤ c.length)

def emitCheck (c : Cur) : Option Nat :=
  formatCheck c (emitLength c)
    (c.emitSrc != 3 && srcOk (c.op 1 13 5) && c.op 1 18 2 == 0 &&
      (c.emitSrc != 2 || c.emitWords == 0 || decide (c.emitReg + (c.emitWords - 1) / 2 ≤ 15))) true

/-- Body words from registers: each gives its low half and then its high half. -/
def State.emitRegs (s : State) (r : Nat) (c : Cur) : List Word :=
  (List.range c.emitWords).map (fun j =>
    BitVec.ofNat 32 (((s.thr r).reg (c.emitReg + j / 2)) >>> (32 * (j % 2))))

/-- The EMIT record. -/
def emitRecord (r : Nat) (c : Cur) (words : List Word) : Rec :=
  { type := 3, status := 0, tag := c.op 1 20 12, retried := c.retried, from_ := r, body := padBody words }

/-- The record is produced; an EMIT ends OK whether it is written or lost. -/
def State.emitOut (s : State) (r : Nat) (c : Cur) (words : List Word) : State :=
  match s.produce r (4 * ringTenant r + c.op 1 0 2) c (emitRecord r c words) with
  | .out s => (s.modCur r (fun c => { c with staged := none })).endOk r 0
  | .waits s => s.modCur r (fun c => { c with staged := some (wordsBytes words) })
  | .fails s => (s.modCur r (fun c => { c with staged := none })).endInstr r 0x44 0

/-- A run of EMIT. Its address is formed at the start (R381). What it has staged before a wait stays; the charter
is looked at again (R397) where its record has been neither begun nor lost. -/
def State.emitRun (s : State) (r : Nat) (c : Cur) : State :=
  let a := if c.started then c.a0 else s.diaAddr r (c.op 1 13 5) (c.word 2)
  let len := 4 * c.emitWords
  match c.emitSrc with
  | 0 => s.emitOut r c ((c.words.drop 2).take c.emitWords)
  | 2 => s.emitOut r c (s.emitRegs r c)
  | _ =>
    let s := s.keepRange r a 0 len
    if s.recordBegun r || c.lostRecord then s.emitOut r c (bytesWords (c.staged.getD []))
    else if len ≠ 0 ∧ !inMemory a len then s.endInstr r 0x20 0
    else if !s.ownsBytes r a len then s.denyInsn r c a
    else match c.staged with
      | some bytes => s.emitOut r c (bytesWords bytes)
      | none =>
        if s.memFails a len then (s.countBad a).dataError r
        else (s.noteRead a len).emitOut r c (bytesWords (s.memBytes a len))

/-- EMIT. -/
def execOvEmit (r : RingId) (s : State) : Host.Outcome State Fault Refusal :=
  answer (s.runInsn r (· == 0x70) emitCheck (fun c s => s.emitRun r c)
    (State.waitStrike r (fun c s => s.emitRun r c))
    (fun c s => c.emitSrc == 1 && c.staged.isNone && s.behindOwn r))

/-! ## SIGNAL and LOG_MARK (R377, R378) -/

def signalCheck (c : Cur) : Option Nat :=
  formatCheck c (c.length == 1) (decide (16 ≤ c.op 1 0 6) && c.op 1 6 26 == 0) true

/-- The message of a SIGNAL waits for X2, and its ferry with it (R24, R27, R267). -/
def State.signalWaits (s : State) (r : Nat) (c : Cur) : Bool :=
  let t := ringTenant r
  let v := c.op 1 0 6
  (s.fn t).msixEn && !s.vecBlocked t v && !(s.msx t v).pend && s.msixWaits

/-- SIGNAL. -/
def execOvSignal (r : RingId) (s : State) : Host.Outcome State Fault Refusal :=
  answer (s.runInsn r (· == 0x71) signalCheck (fun c s =>
    if s.signalWaits r c then s.noteCap else (s.raise (ringTenant r) (c.op 1 0 6)).endOk r 0)
    (fun c s => if s.signalWaits r c then .later else .clean))

def logMarkCheck (c : Cur) : Option Nat :=
  formatCheck c (c.length == 1) (srcOk (c.op 1 16 5) && c.op 1 21 11 == 0) true

/-- LOG_MARK: PROGRAM_MARK. -/
def execLogMark (r : RingId) (s : State) : Host.Outcome State Fault Refusal :=
  answer (s.runInsn r (· == 0x72) logMarkCheck (fun c s =>
    (s.event 0x0901 0 (ringTenant r)
      [(2, c.op 1 0 16), (1, r), (1, 0), (8, s.src r (c.op 1 16 5))]).endOk r 0))

end Sys2Proof.Machine
end

