-- ==== Sys2Proof/Machine/Dispatch.lean ====
section
/-! DEFINITION. One arm for each command: the call of its meaning. -/

namespace Sys2Proof.Machine

/-- The effect of a command on everything but the queue. -/
def exec (i : Instr) (s : State) : Host.Outcome State Fault Refusal :=
  match i with
  | .powerOnReset => Sys2Proof.Machine.execPowerOnReset s
  | .sysRstNLow => Sys2Proof.Machine.execSysRstNLow s
  | .progNLow => Sys2Proof.Machine.execProgNLow s
  | .resetRelease chainFirst bench pull selftestPass tbRef => Sys2Proof.Machine.execResetRelease chainFirst bench pull selftestPass tbRef s
  | .flashSfdpDiscovery sigOk density erase64 modes suspends => Sys2Proof.Machine.execFlashSfdpDiscovery sigOk density erase64 modes suspends s
  | .containerVerify => Sys2Proof.Machine.execContainerVerify s
  | .firmwareSectionLoaded => Sys2Proof.Machine.execFirmwareSectionLoaded s
  | .microcodeSectionLoaded => Sys2Proof.Machine.execMicrocodeSectionLoaded s
  | .doneRelease => Sys2Proof.Machine.execDoneRelease s
  | .doneRise => Sys2Proof.Machine.execDoneRise s
  | .wakeGsrRelease => Sys2Proof.Machine.execWakeGsrRelease s
  | .wakeBankOutputEnable => Sys2Proof.Machine.execWakeBankOutputEnable s
  | .wakeClockStart => Sys2Proof.Machine.execWakeClockStart s
  | .wakeComplete => Sys2Proof.Machine.execWakeComplete s
  | .chainTimeout => Sys2Proof.Machine.execChainTimeout s
  | .transitionComplete => Sys2Proof.Machine.execTransitionComplete s
  | .enterService freeze => Sys2Proof.Machine.execEnterService freeze s
  | .resume => Sys2Proof.Machine.execResume s
  | .leaveTest => Sys2Proof.Machine.execLeaveTest s
  | .freezeOn => Sys2Proof.Machine.execFreezeOn s
  | .freezeOff => Sys2Proof.Machine.execFreezeOff s
  | .reservedModeCmd cmd => Sys2Proof.Machine.execReservedModeCmd cmd s
  | .testUnlockWrite key => Sys2Proof.Machine.execTestUnlockWrite key s
  | .testUnlockExpiry => Sys2Proof.Machine.execTestUnlockExpiry s
  | .diaAccess who write addr len data => Sys2Proof.Machine.execDiaAccess who write addr len data s
  | .uack isl => Sys2Proof.Machine.execUack isl s
  | .fabricAccessTimeout isl => Sys2Proof.Machine.execFabricAccessTimeout isl s
  | .lreqRise isl => Sys2Proof.Machine.execLreqRise isl s
  | .lreqFall isl => Sys2Proof.Machine.execLreqFall isl s
  | .synthLock c => Sys2Proof.Machine.execSynthLock c s
  | .synthLockWaitEnd c => Sys2Proof.Machine.execSynthLockWaitEnd c s
  | .synthLossOfLock c => Sys2Proof.Machine.execSynthLossOfLock c s
  | .captureEdge l => Sys2Proof.Machine.execCaptureEdge l s
  | .captureTimeout l => Sys2Proof.Machine.execCaptureTimeout l s
  | .syncWord p w => Sys2Proof.Machine.execSyncWord p w s
  | .badPacketHeader p w => Sys2Proof.Machine.execBadPacketHeader p w s
  | .nopPacket p payload => Sys2Proof.Machine.execNopPacket p payload s
  | .idchk p w0 w1 => Sys2Proof.Machine.execIdchk p w0 w1 s
  | .stampPacket p w0 w1 w2 w3 => Sys2Proof.Machine.execStampPacket p w0 w1 w2 w3 s
  | .manifest p payload => Sys2Proof.Machine.execManifest p payload s
  | .startFull p rest => Sys2Proof.Machine.execStartFull p rest s
  | .startPartial p rest => Sys2Proof.Machine.execStartPartial p rest s
  | .abort p rest => Sys2Proof.Machine.execAbort p rest s
  | .reservedLoadCmd p w => Sys2Proof.Machine.execReservedLoadCmd p w s
  | .lockPacket p w => Sys2Proof.Machine.execLockPacket p w s
  | .farPacket p w => Sys2Proof.Machine.execFarPacket p w s
  | .fdataRecord p count words => Sys2Proof.Machine.execFdataRecord p count words s
  | .endPacket p crc => Sys2Proof.Machine.execEndPacket p crc s
  | .chainBegin frame overflow => Sys2Proof.Machine.execChainBegin frame overflow s
  | .chainSection frame overflow => Sys2Proof.Machine.execChainSection frame overflow s
  | .chainData frame overflow => Sys2Proof.Machine.execChainData frame overflow s
  | .chainStreamEnd frame overflow => Sys2Proof.Machine.execChainStreamEnd frame overflow s
  | .chainRestart frame overflow => Sys2Proof.Machine.execChainRestart frame overflow s
  | .chainCredit frame overflow => Sys2Proof.Machine.execChainCredit frame overflow s
  | .chainStatus frame overflow => Sys2Proof.Machine.execChainStatus frame overflow s
  | .chainRepairReq frame overflow => Sys2Proof.Machine.execChainRepairReq frame overflow s
  | .chainRepairAnswer failed => Sys2Proof.Machine.execChainRepairAnswer failed s
  | .chainRepairData frame overflow failed => Sys2Proof.Machine.execChainRepairData frame overflow failed s
  | .ldrLockWrite v => Sys2Proof.Machine.execLdrLockWrite v s
  | .ldrBenchWrite v => Sys2Proof.Machine.execLdrBenchWrite v s
  | .ldrHostDataWrite lo hi => Sys2Proof.Machine.execLdrHostDataWrite lo hi s
  | .closeStream => Sys2Proof.Machine.execCloseStream s
  | .hostLoadTimeout => Sys2Proof.Machine.execHostLoadTimeout s
  | .flashRead => Sys2Proof.Machine.execFlashRead s
  | .flashProgram => Sys2Proof.Machine.execFlashProgram s
  | .flashErase64k => Sys2Proof.Machine.execFlashErase64k s
  | .flashVerifyA => Sys2Proof.Machine.execFlashVerifyA s
  | .flashVerifyB => Sys2Proof.Machine.execFlashVerifyB s
  | .flashCmdDone failed => Sys2Proof.Machine.execFlashCmdDone failed s
  | .flashBusyTimeout => Sys2Proof.Machine.execFlashBusyTimeout s
  | .jtagIdcode => Sys2Proof.Machine.execJtagIdcode s
  | .jtagSamplePreload shifted => Sys2Proof.Machine.execJtagSamplePreload shifted s
  | .jtagExtest shifted => Sys2Proof.Machine.execJtagExtest shifted s
  | .jtagClamp => Sys2Proof.Machine.execJtagClamp s
  | .jtagHighz => Sys2Proof.Machine.execJtagHighz s
  | .iscEnable => Sys2Proof.Machine.execIscEnable s
  | .iscDisable => Sys2Proof.Machine.execIscDisable s
  | .iscNoop => Sys2Proof.Machine.execIscNoop s
  | .iscProgram w => Sys2Proof.Machine.execIscProgram w s
  | .jtagLoadStatus => Sys2Proof.Machine.execJtagLoadStatus s
  | .jtagBypass opcode => Sys2Proof.Machine.execJtagBypass opcode s
  | .tapReset trstLow => Sys2Proof.Machine.execTapReset trstLow s
  | .tideSlot => Sys2Proof.Machine.execTideSlot s
  | .tideBurst => Sys2Proof.Machine.execTideBurst s
  | .repairStart => Sys2Proof.Machine.execRepairStart s
  | .goldenFrameRead failed => Sys2Proof.Machine.execGoldenFrameRead failed s
  | .repairAnswerTimeout => Sys2Proof.Machine.execRepairAnswerTimeout s
  | .recheckComplete => Sys2Proof.Machine.execRecheckComplete s
  | .islandReleaseDone isl => Sys2Proof.Machine.execIslandReleaseDone isl s
  | .checkWordReadback index => Sys2Proof.Machine.execCheckWordReadback index s
  | .checkWordReady => Sys2Proof.Machine.execCheckWordReady s
  | .rcFieldRead who addr => Sys2Proof.Machine.execRcFieldRead who addr s
  | .vccoSample b cls => Sys2Proof.Machine.execVccoSample b cls s
  | .bankEnableRetry b => Sys2Proof.Machine.execBankEnableRetry b s
  | .perstAsserted => Sys2Proof.Machine.execPerstAsserted s
  | .perstRelease => Sys2Proof.Machine.execPerstRelease s
  | .linkUp width => Sys2Proof.Machine.execLinkUp width s
  | .hotReset disabled => Sys2Proof.Machine.execHotReset disabled s
  | .linkDown => Sys2Proof.Machine.execLinkDown s
  | .flr t => Sys2Proof.Machine.execFlr t s
  | .flrDone t => Sys2Proof.Machine.execFlrDone t s
  | .d3hotEntry t => Sys2Proof.Machine.execD3hotEntry t s
  | .d0Entry t => Sys2Proof.Machine.execD0Entry t s
  | .pmeTurnOff => Sys2Proof.Machine.execPmeTurnOff s
  | .l1Entry => Sys2Proof.Machine.execL1Entry s
  | .ltrMessage => Sys2Proof.Machine.execLtrMessage s
  | .windowRequest t n v => Sys2Proof.Machine.execWindowRequest t n v s
  | .windowCheckDone t n => Sys2Proof.Machine.execWindowCheckDone t n s
  | .windowInvalidate t n => Sys2Proof.Machine.execWindowInvalidate t n s
  | .windowInvalidDone t n => Sys2Proof.Machine.execWindowInvalidDone t n s
  | .windowAccess t write off len data => Sys2Proof.Machine.execWindowAccess t write off len data s
  | .registerWrite t config off len data => Sys2Proof.Machine.execRegisterWrite t config off len data s
  | .busMasterEnableWrite t v => Sys2Proof.Machine.execBusMasterEnableWrite t v s
  | .dmaChunkIssue r parity testFail => Sys2Proof.Machine.execDmaChunkIssue r parity testFail s
  | .dmaCompletion tag status data => Sys2Proof.Machine.execDmaCompletion tag status data s
  | .dmaCompletionTimeout tag => Sys2Proof.Machine.execDmaCompletionTimeout tag s
  | .dmaRateWindow => Sys2Proof.Machine.execDmaRateWindow s
  | .translationCompletion id ok page size r w => Sys2Proof.Machine.execTranslationCompletion id ok page size r w s
  | .invalidateRequest t addr itag => Sys2Proof.Machine.execInvalidateRequest t addr itag s
  | .invalidateReadWaitEnd t itag => Sys2Proof.Machine.execInvalidateReadWaitEnd t itag s
  | .invalidationCompletion t itag => Sys2Proof.Machine.execInvalidationCompletion t itag s
  | .atsEnableClear t => Sys2Proof.Machine.execAtsEnableClear t s
  | .vectorUnblock t v => Sys2Proof.Machine.execVectorUnblock t v s
  | .dmaBytesLoRead t writes len => Sys2Proof.Machine.execDmaBytesLoRead t writes len s
  | .ringEnable r v => Sys2Proof.Machine.execRingEnable r v s
  | .ringDisable r v => Sys2Proof.Machine.execRingDisable r v s
  | .ringFlush r v => Sys2Proof.Machine.execRingFlush r v s
  | .flushDone r => Sys2Proof.Machine.execFlushDone r s
  | .doorbell r v => Sys2Proof.Machine.execDoorbell r v s
  | .programDoorbell r v => Sys2Proof.Machine.execProgramDoorbell r v s
  | .ringHeadWrite r v => Sys2Proof.Machine.execRingHeadWrite r v s
  | .issueTimeout r => Sys2Proof.Machine.execIssueTimeout r s
  | .ringWmWrite r v => Sys2Proof.Machine.execRingWmWrite r v s
  | .wmArm r v => Sys2Proof.Machine.execWmArm r v s
  | .clrCount r v => Sys2Proof.Machine.execClrCount r v s
  | .pairGrant p => Sys2Proof.Machine.execPairGrant p s
  | .reservedOpcode r => Sys2Proof.Machine.execReservedOpcode r s
  | .ovNop r => Sys2Proof.Machine.execOvNop r s
  | .ovFence r => Sys2Proof.Machine.execOvFence r s
  | .ovJump r => Sys2Proof.Machine.execOvJump r s
  | .ovBranch r => Sys2Proof.Machine.execOvBranch r s
  | .ovLoop r => Sys2Proof.Machine.execOvLoop r s
  | .ovCall r => Sys2Proof.Machine.execOvCall r s
  | .ovRet r => Sys2Proof.Machine.execOvRet r s
  | .waitTime r => Sys2Proof.Machine.execWaitTime r s
  | .waitTimeEnd r => Sys2Proof.Machine.execWaitTimeEnd r s
  | .waitEvent r => Sys2Proof.Machine.execWaitEvent r s
  | .waitEventEnd r => Sys2Proof.Machine.execWaitEventEnd r s
  | .waitEventTimeout r => Sys2Proof.Machine.execWaitEventTimeout r s
  | .ovHalt r => Sys2Proof.Machine.execOvHalt r s
  | .loadImm r => Sys2Proof.Machine.execLoadImm r s
  | .ovAdd r => Sys2Proof.Machine.execOvAdd r s
  | .ovSub r => Sys2Proof.Machine.execOvSub r s
  | .ovAnd r => Sys2Proof.Machine.execOvAnd r s
  | .ovOr r => Sys2Proof.Machine.execOvOr r s
  | .ovXor r => Sys2Proof.Machine.execOvXor r s
  | .ovShift r => Sys2Proof.Machine.execOvShift r s
  | .ovCmp r => Sys2Proof.Machine.execOvCmp r s
  | .rdDia r => Sys2Proof.Machine.execRdDia r s
  | .wrDia r => Sys2Proof.Machine.execWrDia r s
  | .rdFab r => Sys2Proof.Machine.execRdFab r s
  | .wrFab r => Sys2Proof.Machine.execWrFab r s
  | .copyIn r => Sys2Proof.Machine.execCopyIn r s
  | .copyOut r => Sys2Proof.Machine.execCopyOut r s
  | .ovMove r => Sys2Proof.Machine.execOvMove r s
  | .islandSeal r => Sys2Proof.Machine.execIslandSeal r s
  | .frameBegin r => Sys2Proof.Machine.execFrameBegin r s
  | .frameLoad r => Sys2Proof.Machine.execFrameLoad r s
  | .frameRead r => Sys2Proof.Machine.execFrameRead r s
  | .islandRelease r => Sys2Proof.Machine.execIslandRelease r s
  | .ovCapture r => Sys2Proof.Machine.execOvCapture r s
  | .portXmit r => Sys2Proof.Machine.execPortXmit r s
  | .portArm r => Sys2Proof.Machine.execPortArm r s
  | .partnerPoll r => Sys2Proof.Machine.execPartnerPoll r s
  | .ovStamp r => Sys2Proof.Machine.execOvStamp r s
  | .leaveReq r => Sys2Proof.Machine.execLeaveReq r s
  | .leaveRel r => Sys2Proof.Machine.execLeaveRel r s
  | .ovEmit r => Sys2Proof.Machine.execOvEmit r s
  | .ovSignal r => Sys2Proof.Machine.execOvSignal r s
  | .logMark r => Sys2Proof.Machine.execLogMark r s
  | .pairFailure p cause => Sys2Proof.Machine.execPairFailure p cause s
  | .pairNoResult p => Sys2Proof.Machine.execPairNoResult p s
  | .charterWrite off v => Sys2Proof.Machine.execCharterWrite off v s
  | .charterEffect => Sys2Proof.Machine.execCharterEffect s
  | .portFrameEnd p f => Sys2Proof.Machine.execPortFrameEnd p f s
  | .portFrameReceived p => Sys2Proof.Machine.execPortFrameReceived p s
  | .i3cIbi p da mdb data stamp => Sys2Proof.Machine.execI3cIbi p da mdb data stamp s
  | .portTxOutcome p o => Sys2Proof.Machine.execPortTxOutcome p o s
  | .canRecovered p => Sys2Proof.Machine.execCanRecovered p s
  | .canRecover p => Sys2Proof.Machine.execCanRecover p s
  | .canTxTimeout p => Sys2Proof.Machine.execCanTxTimeout p s
  | .portArmTrigger isl => Sys2Proof.Machine.execPortArmTrigger isl s
  | .sentSpcPulse isl => Sys2Proof.Machine.execSentSpcPulse isl s
  | .sentNoResponse p => Sys2Proof.Machine.execSentNoResponse p s
  | .psi5Sync p => Sys2Proof.Machine.execPsi5Sync p s
  | .spiPeriodicTransfer isl late => Sys2Proof.Machine.execSpiPeriodicTransfer isl late s
  | .i3cStartSequence p scan => Sys2Proof.Machine.execI3cStartSequence p scan s
  | .redoDaa p => Sys2Proof.Machine.execRedoDaa p s
  | .portRetire p cause => Sys2Proof.Machine.execPortRetire p cause s
  | .portRunWrite p run => Sys2Proof.Machine.execPortRunWrite p run s
  | .partnerValidate who isl v => Sys2Proof.Machine.execPartnerValidate who isl v s
  | .partnerInvalidate who isl v => Sys2Proof.Machine.execPartnerInvalidate who isl v s
  | .clrTally who isl v => Sys2Proof.Machine.execClrTally who isl v s
  | .tallyLoRead who isl rejected => Sys2Proof.Machine.execTallyLoRead who isl rejected s
  | .tbRefLost frequency => Sys2Proof.Machine.execTbRefLost frequency s
  | .tbRefLocked => Sys2Proof.Machine.execTbRefLocked s
  | .tbAddendWrite v => Sys2Proof.Machine.execTbAddendWrite v s
  | .tbStepCmd => Sys2Proof.Machine.execTbStepCmd s
  | .tbSetCmd => Sys2Proof.Machine.execTbSetCmd s
  | .ppsSecond => Sys2Proof.Machine.execPpsSecond s
  | .ppsOutPulseEnd => Sys2Proof.Machine.execPpsOutPulseEnd s
  | .ppsInEdge stamp => Sys2Proof.Machine.execPpsInEdge stamp s
  | .tbNowLoRead who => Sys2Proof.Machine.execTbNowLoRead who s
  | .tbTodSecLoRead who => Sys2Proof.Machine.execTbTodSecLoRead who s
  | .tbPpsInLoRead who => Sys2Proof.Machine.execTbPpsInLoRead who s
  | .leaveRequest => Sys2Proof.Machine.execLeaveRequest s
  | .leaveRequestTimeout who => Sys2Proof.Machine.execLeaveRequestTimeout who s
  | .leaseTransientEnd handle => Sys2Proof.Machine.execLeaseTransientEnd handle s
  | .leaseEnd handle => Sys2Proof.Machine.execLeaseEnd handle s
  | .wakeLeaseRelease => Sys2Proof.Machine.execWakeLeaseRelease s
  | .leaveBudgetWrite v => Sys2Proof.Machine.execLeaveBudgetWrite v s
  | .leaveFloorWrite v => Sys2Proof.Machine.execLeaveFloorWrite v s
  | .currentSample units => Sys2Proof.Machine.execCurrentSample units s
  | .thermalSample sensors => Sys2Proof.Machine.execThermalSample sensors s
  | .logSearch t v => Sys2Proof.Machine.execLogSearch t v s
  | .logSearchDone t => Sys2Proof.Machine.execLogSearchDone t s
  | .logAckWrite v => Sys2Proof.Machine.execLogAckWrite v s
  | .faultStatusWrite v => Sys2Proof.Machine.execFaultStatusWrite v s
  | .queuePressure v => Sys2Proof.Machine.execQueuePressure v s
  | .queuePressureEnd => Sys2Proof.Machine.execQueuePressureEnd s
  | .doorbellDelayEnd r => Sys2Proof.Machine.execDoorbellDelayEnd r s
  | .dmaStretchEnd tag => Sys2Proof.Machine.execDmaStretchEnd tag s
  | .checkWordInject v => Sys2Proof.Machine.execCheckWordInject v s
  | .pairFaultArm v => Sys2Proof.Machine.execPairFaultArm v s
  | .leaveDelayEnd who => Sys2Proof.Machine.execLeaveDelayEnd who s
  | .tbSlowWrite v => Sys2Proof.Machine.execTbSlowWrite v s
  | .l1Exit => Sys2Proof.Machine.execL1Exit s
  | .linkRetrain speed width => Sys2Proof.Machine.execLinkRetrain speed width s
  | .globalLineRestart l => Sys2Proof.Machine.execGlobalLineRestart l s
  | .lineInactive l => Sys2Proof.Machine.execLineInactive l s
  | .ppsOutRise => Sys2Proof.Machine.execPpsOutRise s

end Sys2Proof.Machine
end

