-- ==== Sys2Proof/Machine/Tick.lean ====
section
/-! DEFINITION. What passes with a timebase cycle: 4 ns of core time, device time (R428), the shadow of
X22 (R24), a cycle of the fabric, and the accesses to the DIA that wait (log 2). -/

namespace Sys2Proof.Machine

/-- The timebase keeps the time and the step epoch of its cycle, and of 18 before. -/
def Timebase.keep (t : Timebase) : Timebase :=
  { t with past := ((t.sec, t.nsec, t.epoch) :: t.past).take 19, shAge := t.shAge + 1 }

/-- The shadow of X22 is the time and the epoch of one cycle, 2 to 18 cycles back (8 to 72 ns); which the rules
leave open. It does not go back to an older one. -/
def State.refreshShadow (s : State) : State :=
  let (n, s) := s.draw
  let lag := 2 + Config.shadowLag n % 17
  s.modTb (fun t => match t.keep.past[lag]? with
    | some (sec, nsec, epoch) =>
      if lag ≤ t.keep.shAge then { t.keep with shSec := sec, shNsec := nsec, shEpoch := epoch, shAge := lag }
      else t.keep
    | none => t.keep)

/-- Core time advances by one timebase cycle. -/
def State.coreCycle (s : State) : State := { s with coreNs := s.coreNs + 4 }

/-- One timebase cycle with no command: in RESET core time alone passes (R37). -/
def State.tick (s : State) : State :=
  if s.mode.mode = .reset then s.coreCycle
  else ((s.modTb (fun t => t.move (s.tbStepUnits : Int))).refreshShadow).fabricCycle.serveBehind.coreCycle

end Sys2Proof.Machine
end

