-- ==== Sys2Proof/Safety.lean ====
section
/-! DEFINITION. What a safe state is, and how two states compare: the terms the statements use. -/

namespace Sys2Proof.Machine

/-! ## Invariants -/

/-- Every byte memory has its canonical form. -/
def State.memoriesWf (s : State) : Bool :=
  memWf 0 s.harbour && memWf 0 s.progMem && memWf 0xFF s.flash.cells && memWf 0 s.flash.buffer

/-- Nothing of a step is left over: no event waits to be written (R493), no evaluation of the leave
queue (R480). -/
def State.settled (s : State) : Bool := s.log.staged.isEmpty && !s.leave.stale

/-- FAULT_N is at the level that R42 and R508 give it, and the mode mirror of R49 shows SUP_MODE
[12:0] while no transition is in progress. -/
def State.shows (s : State) : Bool :=
  s.mode.faultShown == s.faultLevel &&
    (s.mode.trans.isSome || s.mode.mirror == s.supMode % 2 ^ 13)

/-! ## Comparing states -/

/-- The logbook without what a step's end may still change of it: its entries and their counts, and
bit 11 of SUP_FAULT_STATUS. -/
def Log.beside (l : Log) : Log :=
  { l with
    slots := [], recent := [], next := 0, overflow := 0, kept := 0, lost := 0, staged := []
    faultStatus := l.faultStatus &&& 0x7FF }

/-- The DMA engine without what an MSI-X message changes of it: the messages that wait, the bytes counted in
the present microsecond, and the note that the rate cap held something back (R267). -/
def Dma.beside (d : Dma) : Dma := { d with msgs := [], winBytes := 0, delayed := false }

/-- The state without what events and a step's end may change of it: messages put out, pending MSI-X
bits, the L1 flag, what a message changes of the DMA engine, FAULT_N's level as shown, the mode mirror,
and the entries of the logbook. Two states that agree beside these differ in nothing else. -/
def State.beside (s : State) : State :=
  { s with
    out := [], msix := [], link := { s.link with l1 := false }, dma := s.dma.beside
    mode := { s.mode with faultShown := false, mirror := 0 }
    log := s.log.beside }

/-- `s` with what the end of an instruction may change taken from `t`: threads, rings, the tenants'
fault blocks and counters, the DMA engine, which pairs are held, free values drawn, the transition of a
degradation, and what `State.beside` leaves out. -/
def State.endedAs (s t : State) : State :=
  { s with
    threads := t.threads, rings := t.rings, tens := t.tens, dma := t.dma
    ferry := { s.ferry with pairs := t.ferry.pairs }, freeCounter := t.freeCounter
    out := t.out, msix := t.msix, link := { s.link with l1 := t.link.l1 }
    mode := { s.mode with
      faultShown := t.mode.faultShown, mirror := t.mode.mirror, trans := t.mode.trans, waitT8 := t.mode.waitT8 }
    log := { s.log with
      slots := t.log.slots, recent := t.log.recent, next := t.log.next, overflow := t.log.overflow
      kept := t.log.kept, lost := t.log.lost, staged := t.log.staged, faultStatus := t.log.faultStatus } }

/-- A thread but for what the end of an instruction may change of it: the instruction in flight, S,
PC, the wait, the pair and the pause. -/
def Thread.program (x : Thread) : Thread :=
  { x with cur := none, s := 0, pc := 0, wait := .none, pair := none, paused := false }

/-- No transition has started from `s` to `t`, unless a way of the ATC is retired: a record's lookup may have
met a parity error and its storage failed the test (R272). -/
def State.staysUndegraded (s t : State) : Prop :=
  (s.dma.atcRetired ≠ 0 → t.dma.atcRetired ≠ 0) ∧
    (t.dma.atcRetired = 0 → t.mode.trans = s.mode.trans ∧ t.mode.waitT8 = s.mode.waitT8)

/-- `t` follows from `s` by no more than ends of instructions: every general register, flag, return
stack and pending bit of every thread, every memory and every other unit is as in `s`. -/
def onlyEnds (s t : State) : Prop :=
  t = s.endedAs t ∧ (∀ q, (t.thr q).program = (s.thr q).program) ∧ s.staysUndegraded t

/-- The end of a step leaves a state beside which `t` is as in `s` (the form of most statements: the
command answers a next state that is the state written out, beside what its events and the step's end
may change). -/
def answersLike (o : Host.Outcome State Fault Refusal) (s : State) : Prop :=
  ∃ t, o = .next t ∧ t.beside = s.beside

/-- The command answers a next state that follows from `s` by no more than ends of instructions. -/
def answersEnding (o : Host.Outcome State Fault Refusal) (s : State) : Prop :=
  ∃ t, o = .next t ∧ onlyEnds s t

/-! ## Instructions of the Ovdor threads -/

/-- Thread r runs c: it holds a pair, waits for nothing, may go on (R37, R38), has not ended c, no armed
pair fault meets it (R522), and its ring keeps no record begun (R302). -/
def State.runs (s : State) (r : Nat) (c : Cur) : Prop :=
  (s.thr r).cur = some c ∧ (s.thr r).pair.isSome = true ∧ (s.thr r).wait = .none ∧ c.unread = none ∧
    c.fin = none ∧ s.mayRun r = true ∧ s.struck r = none ∧ (s.ring r).state = .running ∧
    s.recordBegun r = false

/-- Thread r runs c for the first time: its reserved header bits are zero (R319), and its fence, where
it has one, holds nothing back (R335) and has been honoured or needs no read (R336). -/
def State.starts (s : State) (r : Nat) (c : Cur) : Prop :=
  s.runs r c ∧ c.started = false ∧ c.reply = none ∧ c.headerOk = true ∧
    s.fenceHeld r c = false ∧ (c.flagF = true ∨ c.opcode = 1 → c.fenced = true ∨ s.fenceRead r = false)

/-- The command answers a next state that follows from `s`, the state with the instruction's effects,
by no more than ends of instructions. Where no record is due, c has ended there: a PROGRAM thread's PC
is `pc`, and S is the status if c sets it (R325, R328). -/
def State.ends (s : State) (r : Nat) (c : Cur) (pc status : Nat)
    (o : Host.Outcome State Fault Refusal) : Prop :=
  ∃ t, o = .next t ∧ onlyEnds s t ∧ (s.recordWanted r c status = false →
    ((s.ring r).kind = 2 → stops status = false → (t.thr r).pc = pc) ∧
    (setsS c.opcode = true → (t.thr r).s = status))

/-- The command answers a next state that follows from `s` by no more than ends of instructions, and in
which c has stopped its ring with this code and status (R299, R325): no instruction is in flight, the PC is
as it was, and the ring's fault fields hold the code and the status unless an earlier fault stands there. -/
def State.stopsWith (s : State) (r : Nat) (c : Cur) (code status : Nat)
    (o : Host.Outcome State Fault Refusal) : Prop :=
  ∃ t, o = .next t ∧ onlyEnds s t ∧ (t.ring r).state = .stopped ∧ (t.ring r).fault = true ∧
    ((s.ring r).fault = false → (t.ring r).faultCode = code ∧ (t.ring r).faultStatus = status) ∧
    (t.thr r).cur = none ∧ (t.thr r).pc = (s.thr r).pc ∧
    (t.thr r).s = if setsS c.opcode then status else (s.thr r).s

/-- The command answers a next state that follows from `s` by no more than ends of instructions, and in
which thread r waits for w and holds no pair (R332). -/
def State.waits (s : State) (r : Nat) (w : Wait) (o : Host.Outcome State Fault Refusal) : Prop :=
  ∃ t, o = .next t ∧ onlyEnds s t ∧ (t.thr r).wait = w ∧ (t.thr r).pair = none

/-- A run that has answered. -/
def answered (o : Host.Outcome State Fault Refusal) : Option State :=
  match o with
  | .next s => some s
  | .fault _ => none
  | .refused _ => none

/-! ## Bitstream loads, and resets of every function -/

/-- A load stands between two packets. -/
def State.between (s : State) (l : Load) : Prop := s.ldr.load = some l ∧ l.part = []

/-- The words that a path delivers next reach the loader: the host link in every mode but RESET, where X1 takes
writes and until a load of it has ended (R166), the TAP likewise (R169) with no word waiting in X17, the flash where its own section holds just them and
goes on behind them (R140), the chain where they stand in the section for this device (R151). -/
def State.brings (s : State) (p : Path) (ws : List Word) : Prop :=
  match p with
  | .host => s.x1Holds = false ∧ s.mode.mode ≠ .reset ∧ s.ldr.hostDiscard = false
  | .jtag => s.ldr.jtagDiscard = false ∧ s.forcedFull 17 = false ∧ s.jtag.x17 = []
  | .flash =>
    s.mode.mode = .load ∧ s.ldr.phase = .ownSection ∧
      s.flash.bytes s.ownAddr (4 * ws.length) = wordsBytes ws ∧
      4 * (s.ownPos + ws.length) < (s.flash.personality s.ldr.trying 0).slen
  | .chain =>
    s.mode.mode = .load ∧ s.chain.stopped = false ∧ s.ldr.ownDone = false ∧
      s.chain.section_.any (fun x =>
        x.1 == 3 && x.2.1 == s.ldr.chainIndex && decide (ws.length < x.2.2.2.1)) = true

/-- A path has delivered words: LDR_HOST_WORDS counts those of the host link, and what is left of a section
on the chain, with its running CRC. -/
def State.brought (s : State) (p : Path) (ws : List Word) : State :=
  match p with
  | .host => s.modLdr (fun x => { x with hostWords := (x.hostWords + ws.length) % 2 ^ 32 })
  | .jtag | .flash => s
  | .chain => s.modChain (fun c => { c with
      section_ := c.section_.map (fun x =>
        (x.1, x.2.1, x.2.2.1, x.2.2.2.1 - ws.length, x.2.2.2.2.1, crcMore x.2.2.2.2.2 (wordsBytes ws))) })

/-- The load has taken words, which its CRC covers; `f` is what they change of it beside. -/
def State.took (s : State) (l : Load) (ws : List Word) (f : Load → Load) : State :=
  (s.brought l.path ws).modLdr (fun x => { x with
    load := some (f { l with
      off := l.off + ws.length, crc := crcMore l.crc (wordsBytes ws), records := 0 }) })

/-- A load of the host link or of the TAP, with no island that it leaves INCOMPLETE, meets an error with
these words. -/
def State.failing (s : State) (l : Load) (ws : List Word) : Prop :=
  s.brings l.path ws ∧ (l.path = .host ∨ l.path = .jtag) ∧ s.failedIslands = []

/-- A load of the host link or of the TAP has ended with an error after n words: the path's further words
are discarded until CLOSE or ISC_DISABLE (R130, R166, R169). -/
def State.loadStopped (s : State) (p : Path) (n code : Nat) : State :=
  s.modLdr (fun x => { x with
    hostWords := if p = .host then (x.hostWords + n) % 2 ^ 32 else x.hostWords, load := none
    hostDiscard := p == .host || x.hostDiscard, jtagDiscard := p == .jtag || x.jtagDiscard
    forceHost := false, lastError := code, lastPath := p.code })

/-- What a reset of every function leaves (R248, R249, R251): configuration space but for the sticky
fields (R233), windows, rings and threads at their reset values, no load of the host path, and everything
that lies below the functions as it was. -/
def State.functionsReset (s t : State) : Prop :=
  (∀ q : TenantId, t.fn q = (s.fn q).sticky) ∧
  (∀ (q : TenantId) (n : WindowId), t.win q n = {}) ∧
  (∀ r : RingId, t.ring r = {} ∧ t.thr r = {}) ∧
  (∀ l, t.ldr.load = some l → l.path ≠ .host) ∧ t.mode.mode = s.mode.mode ∧ t.frames = s.frames ∧
  t.harbour = s.harbour ∧ t.progMem = s.progMem ∧ t.charter = s.charter ∧ t.tb = s.tb

end Sys2Proof.Machine
end

