-- ==== Sys2Proof/Certificates/Slice0/Obligations.lean ====
section
/-! DEFINITION. The statements for the provers. Where a statement says `answersLike` it says that the
command answers a next state and names every change it makes: beside the log, the messages put out, the
pending MSI-X bits, the L1 flag, FAULT_N's shown level and the mode mirror, nothing else differs. -/

open Sys2Proof Sys2Proof.Machine

/-- A step with a command at the front of the queue is that command on the state with the queue's rest;
on an empty queue it is one timebase cycle (the model's choice, log 2). -/
def Obligations.StepRunsFront : Prop :=
  (∀ (c : Instr) (q : List Instr) (s : State),
    step { s with pending := c :: q } = exec c { s with pending := q }) ∧
  (∀ s : State, s.pending = [] → step s = .next s.tick.finish)

/-- No command stops the block: every step of every state answers a next state. That every meaning
answers one is the model's choice (DEDUCED, log 1).
Where it rests on the model's choices: log entry 1. -/
def Obligations.StepAlwaysAnswers : Prop := ∀ s : State, ∃ t, step s = .next t

/-- After every step no event waits to be written and no evaluation of the leave queue is left over
(R480, R493), FAULT_N is at the level of R42 and R508, and while no transition is in progress the
mode mirror shows SUP_MODE [12:0] (R49). A step keeps the canonical form of the byte memories.
Where it rests on the model's choices: log entries 6, 8. -/
def Obligations.StepSettles : Prop :=
  ∀ s t : State, step s = .next t →
    t.settled = true ∧ t.shows = true ∧ (s.memoriesWf = true → t.memoriesWf = true)

/-- The state after reset has that form, and its memories have the canonical form. -/
def Obligations.ResetSettled : Prop :=
  State.reset.settled = true ∧ State.reset.shows = true ∧ State.reset.memoriesWf = true

/-! ## Resets and modes (02) -/

/-- R50: what a power-on reset and a reset input leave. A power-on reset keeps nothing of the device's
own state; SYS_RST_N and PROG_N keep the logbook, the lock bits, the charters, configuration space,
the link and the MSI-X tables, set their bit of SUP_RESET_CAUSE, and put everything else back.
Inside RESET a reset input joins the reset in progress.
Completes: powerOnReset, progNLow, sysRstNLow.
Where it rests on the model's choices: log entry 5. -/
def Obligations.ResetInputs : Prop :=
  (∀ s : State, ∃ t, exec .powerOnReset s = .next t ∧ t.log = {} ∧ t.mode.mode = .reset ∧
    t.mode.trans = some { id := 1, target := .reset } ∧ t.charter = {} ∧ t.ldr = {} ∧ t.fns = [] ∧
    t.msix = [] ∧ t.islands = [] ∧ t.frames = [] ∧ t.rings = [] ∧ t.threads = [] ∧ t.ports = [] ∧
    t.partners = [] ∧ t.harbour = [] ∧ t.progMem = [] ∧ t.ferry = {} ∧ t.tb = {} ∧ t.leave = {} ∧
    t.tide = {} ∧ (∀ b : IslandId, t.bank b = { cls := (s.bank b).cls, valid := (s.bank b).valid }) ∧
    t.dma = {} ∧ t.wins = [] ∧
    t.tens = [] ∧ t.ptu = {} ∧
    t.flash = { cells := s.flash.cells } ∧ t.pending = s.pending) ∧
  (∀ (prog : Bool) (s : State), s.mode.mode ≠ .reset →
    ∃ t, exec (if prog then .progNLow else .sysRstNLow) s = .next t ∧
      t.mode.mode = .reset ∧ t.mode.prev = s.mode.mode ∧ t.mode.resetBegan = some s.mode.mode ∧
      t.mode.trans = some { id := 2, target := .reset } ∧ t.mode.changes = s.mode.changes ∧
      t.mode.causeProg = (prog || s.mode.causeProg) ∧ t.mode.causeSys = (!prog || s.mode.causeSys) ∧
      t.mode.doneLow = true ∧ t.mode.holdCause = 0 ∧ t.mode.untested = false ∧
      t.log.slots = s.log.slots ∧ t.log.next = s.log.next ∧ t.log.ack = s.log.ack ∧
      t.log.policy = s.log.policy ∧ t.ldr.locks = s.ldr.locks ∧ t.charter = s.charter ∧
      t.fns = s.fns ∧ t.msix = s.msix ∧ t.link = s.link ∧ t.flash.cells = s.flash.cells ∧
      t.islands = [] ∧ t.frames = [] ∧ t.rings = [] ∧ t.threads = [] ∧ t.wins = [] ∧ t.dma.atc = [] ∧
      t.ports = [] ∧ t.partners = [] ∧ t.harbour = [] ∧ t.progMem = [] ∧ t.ferry = {} ∧ t.tb = {} ∧
      t.ptu = {} ∧ t.leave.leases = [] ∧ t.leave.queue = [] ∧ t.tide.enabled = false ∧
      t.pending = s.pending) ∧
  (∀ (prog : Bool) (s : State), s.settled = true → s.mode.mode = .reset →
    answersLike (exec (if prog then .progNLow else .sysRstNLow) s)
      (s.modMode (fun m => { m with
        trans := m.trans.filter (fun x => x.id != 3), cfgRstLow := true
        causeProg := prog || m.causeProg, progLow := prog || m.progLow
        causeSys := !prog || m.causeSys, sysLow := !prog || m.sysLow })))

/-- R31 T3, R136, R391: when every reset input is released, T1 or T2 has completed (CHANGES counts it),
the straps are latched, the pairs that failed their self-test, and no others, are out of service,
and T3 is in progress.
R46, R31 T12, R112: RESUME in SERVICE where the guard of T11 fails starts T12 if every strait and global
frame has been written by a completed load and passes its check, a correctable error found being
corrected, and is refused if not.
Completes: resetRelease, resume.
Where it rests on the model's choices: log entries 4, 5, 53. -/
def Obligations.ReleaseAndResume : Prop :=
  (∀ (first bench : Bool) (pull : Fin 3) (pass : BitVec 8) (ref : Fin 4) (s : State),
     s.mode.mode = .reset → (∀ x, s.mode.trans = some x → x.id ≠ 3) → s.settled = true →
     ∃ t, exec (.resetRelease first bench pull pass ref) s = .next t ∧
       t.mode.mode = .reset ∧ t.mode.trans = some { id := 3, target := .load } ∧
       t.mode.changes = (if s.mode.trans.isSome then (s.mode.changes + 1) % 256 else s.mode.changes) ∧
       t.mode.chainFirst = first ∧ t.mode.benchEn = bench ∧ t.mode.shorePull = some pull.val ∧
       t.mode.cfgRstLow = false ∧
       t.mode.sysLow = false ∧ t.mode.progLow = false ∧ t.mode.porActive = false ∧
       t.tb.ref = ref.val ∧ t.tb.holdover = decide (ref.val = 0) ∧
       (∀ p : PairId, (t.pair p).retired = !pass.getLsbD p) ∧
       t.frames = s.frames ∧ t.rings = s.rings ∧ t.threads = s.threads ∧ t.ldr = s.ldr ∧
       t.charter = s.charter ∧ t.islands = s.islands ∧ t.harbour = s.harbour) ∧
  (∀ s : State, s.settled = true → s.x1Holds = false → s.mode.mode = .service → s.mode.trans = none →
     s.mode.wakeDone = false ∨ s.mode.globalWritten = true →
     ((∀ k, k < 128 →
         s.ldr.marks.getLsbD (8064 + k) = true ∧ (s.findingOf (8064 + k)).2.passes = true) →
       ∃ t, exec .resume s = .next t ∧ t.mode.trans = some { id := 12, target := .wake, cmd := true } ∧
         t.mode.lastCmd = 2 ∧ t.mode.result = 1 ∧ t.mode.mode = .service ∧
         (∀ n, n < 8064 → t.frame n = s.frame n) ∧ t.islands = s.islands ∧ t.rings = s.rings) ∧
     ((∀ k, k < 128 →
         s.ldr.marks.getLsbD (8064 + k) = true ∧ (s.findingOf (8064 + k)).2 = .clean) →
       (∀ p ∈ s.frames, p.1 < 8192) →
       answersLike (exec .resume s) (s.modMode (fun m => { m with
         unlock := false, lastCmd := 2, result := 1, trans := some { id := 12, target := .wake, cmd := true }
         wakeFaultKept := some m.faultShown }))) ∧
     (∀ k, k < 128 → s.ldr.marks.getLsbD (8064 + k) = false ∨
         (s.findingOf (8064 + k)).2.passes = false →
       ∃ t, exec .resume s = .next t ∧ t.mode.trans = none ∧ t.mode.lastCmd = 2 ∧ t.mode.result = 3 ∧
         t.mode.mode = .service ∧ t.mode.unlock = false ∧ t.islands = s.islands ∧ t.rings = s.rings))

/-- R40, R46: the commands of SUP_MODE_CMD. While a transition is in progress each is refused with
RESULT 5. In the modes of the table each is accepted with its transition, FREEZE_ON and FREEZE_OFF
being done at once; elsewhere it is refused with RESULT 3. Each is a write that first breaks an
unlock sequence (R47); in RESET it is dropped (R37), and where X1 takes none it stays with the host.
Where FREEZE_OFF lets no island leave its seal (R41), nothing else changes. That a freeze has RESULT
2 at once, that T11's target is the one of the command, and that a freeze takes the captures that
wait are the model's choices.
Completes: enterService, resume, leaveTest, freezeOn, freezeOff, reservedModeCmd.
Where it rests on the model's choices: log entries 4, 22, 29. -/
def Obligations.ModeCommands : Prop :=
  (∀ (s : State) (f : Bool) (c : BitVec 4), s.settled = true → s.mode.mode = .reset ∨ s.x1Holds = true →
    answersLike (exec (.enterService f) s) s ∧ answersLike (exec .resume s) s ∧
    answersLike (exec .leaveTest s) s ∧ answersLike (exec .freezeOn s) s ∧
    answersLike (exec .freezeOff s) s ∧ answersLike (exec (.reservedModeCmd c) s) s) ∧
  ∀ s : State, s.settled = true → s.mode.mode ≠ .reset → s.x1Holds = false →
    let told := fun (n result : Nat) =>
      s.modMode (fun m => { m with unlock := false, lastCmd := n, result := result })
    let taken := fun (n id : Nat) (m : Mode) (freeze : Bool) =>
      s.modMode (fun x => { x with
        unlock := false, lastCmd := n, result := 1
        trans := some { id := id, target := m, cmd := true, freeze := freeze } })
    (s.mode.trans ≠ none →
      (∀ f, answersLike (exec (.enterService f) s) (told 1 5)) ∧
      answersLike (exec .resume s) (told 2 5) ∧ answersLike (exec .leaveTest s) (told 3 5) ∧
      answersLike (exec .freezeOn s) (told 4 5) ∧ answersLike (exec .freezeOff s) (told 5 5) ∧
      (∀ c : BitVec 4, c = 0 ∨ 5 < c → answersLike (exec (.reservedModeCmd c) s) (told c.toNat 5))) ∧
    (s.mode.trans = none →
      (∀ f, answersLike (exec (.enterService f) s)
        (if s.inRun then taken 1 10 .service f
         else if s.mode.mode = .hold ∧ s.leave.temp.junction < 460 then taken 1 13 .service false
         else told 1 3)) ∧
      (s.mode.mode = .service → s.mode.wakeDone = true → s.mode.globalWritten = false →
        answersLike (exec .resume s)
          (taken 2 11 (if s.anyQuarantine || s.unitRetired then .degraded else .run) false)) ∧
      (s.mode.mode ≠ .service → answersLike (exec .resume s) (told 2 3)) ∧
      answersLike (exec .leaveTest s)
        (if s.mode.mode = .test then taken 3 15 .service false else told 3 3) ∧
      (s.mode.mode = .service ∨ s.mode.mode = .test →
        (∃ t, exec .freezeOn s = .next t ∧ t.mode.frozen = true ∧ t.mode.lastCmd = 4 ∧ t.mode.result = 2 ∧
          t.mode.trans = none ∧ t.mode.mode = s.mode.mode ∧ (∀ l : LineId, t.captureOn l = none) ∧
          (s.mode.frozen = true → t.islands = s.islands) ∧ t.frames = s.frames ∧ t.rings = s.rings ∧
          t.harbour = s.harbour) ∧
        (∃ t, exec .freezeOff s = .next t ∧ t.mode.frozen = false ∧ t.mode.lastCmd = 5 ∧ t.mode.result = 2 ∧
          t.mode.trans = none ∧ t.mode.mode = s.mode.mode ∧ t.frames = s.frames ∧ t.rings = s.rings ∧
          t.harbour = s.harbour) ∧
        ((s.mode.frozen = true → ∀ (i : IslandId) (rel : Release), (s.isl i).release = some rel →
            s.releaseGoes i rel = false) →
          answersLike (exec .freezeOff s) ((told 5 2).modMode (fun m => { m with frozen := false })))) ∧
      (s.mode.mode ≠ .service → s.mode.mode ≠ .test →
        answersLike (exec .freezeOn s) (told 4 3) ∧ answersLike (exec .freezeOff s) (told 5 3)) ∧
      (∀ c : BitVec 4, c = 0 ∨ 5 < c → answersLike (exec (.reservedModeCmd c) s) (told c.toNat 3)))

/-- R47: the unlock sequence.
Completes: testUnlockWrite, testUnlockExpiry. -/
def Obligations.UnlockSequence : Prop :=
  ∀ (v : Word) (s : State), s.settled = true → s.mode.mode ≠ .reset → s.x1Holds = false →
    let told := fun (result : Nat) (u : Bool) =>
      s.modMode (fun m => { m with unlock := u, lastCmd := 0xF, result := result })
    (s.mode.trans ≠ none → answersLike (exec (.testUnlockWrite v) s) (told 5 false)) ∧
    (s.mode.trans = none →
      (s.mode.mode ≠ .service → answersLike (exec (.testUnlockWrite v) s) (told 3 false)) ∧
      (s.mode.mode = .service →
        (s.mode.unlock = false → v = 0x7E570001#32 →
          answersLike (exec (.testUnlockWrite v) s) (s.modMode (fun m => { m with unlock := true }))) ∧
        (s.mode.unlock = false → v ≠ 0x7E570001#32 →
          answersLike (exec (.testUnlockWrite v) s) (told 3 false)) ∧
        (s.mode.unlock = true → v ≠ 0x7E5700FE#32 →
          answersLike (exec (.testUnlockWrite v) s) (told 3 (v = 0x7E570001#32))) ∧
        (s.mode.unlock = true → v = 0x7E5700FE#32 →
          answersLike (exec (.testUnlockWrite v) s)
            (if s.ldr.locks.getLsbD 4 then told 4 false
             else s.modMode (fun m => { m with
               unlock := false, lastCmd := 0xF, result := 1
               trans := some { id := 14, target := .test, cmd := true } }))))) ∧
    answersLike (exec .testUnlockExpiry s) (if s.mode.unlock then told 3 false else s)

/-- R31, R32, R45, R46, R48: a transition in progress completes. SUP_MODE shows the new mode, the old
one in PREV and one CHANGES more, modulo 256; a command's RESULT becomes 2; FREEZE takes effect with
T10 and freezing ends with T4, T11 and T12 (R40); HOLD sets and RUN or DEGRADED ends the HOLD level
of FAULT_N (R42); a wake starts the tide (R183). Vector 9 of function 0 follows where
SUP_MODE_NOTICE asks for it: its message, or its pending bit. Memories, charters, lock bits and the
flash keep what they hold.
Completes: transitionComplete.
Where it rests on the model's choices: log entry 4. -/
def Obligations.TransitionCompletes : Prop :=
  ∀ (x : Trans) (s : State), s.settled = true → s.mode.trans = some x → x.id ≠ 1 → x.id ≠ 2 →
    s.mode.waitT8 = false → s.mode.waitT9 = false → (x.target = .wake → 2 ≤ s.pairsInService) →
    (x.target = .degraded → s.leave.queue = []) →
    (x.id = 15 ∨ x.id = 16 → x.target ≠ .run ∧ x.target ≠ .degraded) →
    ∃ t, exec .transitionComplete s = .next t ∧
      t.mode.mode = x.target ∧ t.mode.prev = s.mode.mode ∧
      t.mode.changes = (s.mode.changes + 1) % 256 ∧ t.mode.trans = none ∧ t.mode.unlock = false ∧
      t.mode.result = (if x.cmd then 2 else s.mode.result) ∧ t.mode.lastCmd = s.mode.lastCmd ∧
      t.mode.frozen = (if x.id = 10 then x.freeze
        else if x.id = 4 ∨ x.id = 11 ∨ x.id = 12 then false else s.mode.frozen) ∧
      t.mode.holdFault = (if x.target = .hold then true
        else if x.target = .run ∨ x.target = .degraded then false else s.mode.holdFault) ∧
      t.tide.enabled = (decide (x.id = 6 ∨ x.id = 7) || s.tide.enabled) ∧
      t.harbour = s.harbour ∧ t.progMem = s.progMem ∧ t.flash.cells = s.flash.cells ∧
      t.charter = s.charter ∧ t.ldr.locks = s.ldr.locks ∧ t.log.ack = s.log.ack ∧
      t.pending = s.pending ∧
      (x.target ≠ .reset → bitAt s.mode.noticeEn (x.target.code - 1) = true → (s.fn 0).msixEn = true →
        (s.vecBlocked 0 9 = true ∨ (s.msx 0 9).pend = true → (t.msx 0 9).pend = true) ∧
        (s.vecBlocked 0 9 = false → (s.msx 0 9).pend = false → s.forcedFull 2 = false → s.dma.rate = .held →
          s.link.l2 = false →
          OutMsg.msix 0 9 (s.msx 0 9).addr (s.msx 0 9).data ∈ t.out))

/-- R155, R157, R69, R31 T4, T6 and T7: the release of DONE, its rise, and the steps of a wake after it.
Step 3 releases global set/reset: every register holds INIT; step 5 starts the island clocks. Step 4
enables the banks that are present and no others (R220); step 6 ends in DEGRADED while an island is
quarantined or a unit is retired, else in RUN.
R33, R179: step 3 of a wake that T12 began releases every sealed island whose load is neither open nor
incomplete and whose reasons are HOLD, a quarantine that has ended, and LOAD where no START_FULL is in
progress (R170; DEDUCED, log 19). An island that is not sealed stays so.
Completes: doneRelease, doneRise, wakeGsrRelease, wakeBankOutputEnable, wakeClockStart,
wakeComplete.
Where it rests on the model's choices: log entries 19, 52, 53. -/
def Obligations.Wake : Prop :=
  (∀ s : State, s.settled = true → s.mode.trans = none →
     (s.mode.mode = .load → s.mode.doneLow = true → s.ldr.ownDone = true → s.clocks.waiting = 0 →
       s.chain.stopped = false → (if s.mode.chainFirst then s.ldr.copy ≠ 0 else s.chain.statusSent = true) →
       answersLike (exec .doneRelease s)
         (s.modMode (fun m => { m with doneLow := false, doneReleased := true }))) ∧
     (s.mode.mode = .load → s.mode.doneLow = false →
       answersLike (exec .doneRise s)
         (s.modMode (fun m => { m with trans := some { id := 4, target := .wake } }))) ∧
     (s.mode.mode = .wake → s.mode.wakeStep = 2 → s.mode.wakeT12 = false →
       ∃ t, exec .wakeGsrRelease s = .next t ∧ t.mode.wakeStep = 3 ∧ t.mode.gsrOff = true ∧
         (∀ i : IslandId, t.isl i =
           { s.isl i with user := s.initBits i, cause := 0, ptclk := (t.isl i).ptclk }) ∧
         t.frames = s.frames ∧ t.rings = s.rings ∧ t.threads = s.threads) ∧
     (s.mode.mode = .wake → s.mode.wakeStep = 3 →
       ∃ t, exec .wakeBankOutputEnable s = .next t ∧ t.mode.wakeStep = 4 ∧
         (∀ b : IslandId, t.bank b = if s.bankPresent b then
           { s.bank b with enabled := true, asking := false, retry := false } else s.bank b) ∧
         t.frames = s.frames ∧ t.islands = s.islands ∧ t.rings = s.rings ∧ t.threads = s.threads) ∧
     (s.mode.mode = .wake → s.mode.wakeStep = 4 →
       answersLike (exec .wakeClockStart s) (s.modMode (fun m => { m with wakeStep := 5, clocksOn := true }))) ∧
     (s.mode.mode = .wake → s.mode.wakeStep = 5 →
       answersLike (exec .wakeComplete s) (s.modMode (fun m => { m with
         wakeStep := 6
         trans := some (if s.anyQuarantine || s.unitRetired then { id := 7, target := .degraded }
           else { id := 6, target := .run }) })))) ∧
  (∀ s : State, s.settled = true → s.mode.mode = .wake → s.mode.trans = none → s.mode.wakeStep = 2 →
     s.mode.wakeT12 = true →
     ∃ t, exec .wakeGsrRelease s = .next t ∧ t.mode.wakeStep = 3 ∧
       (∀ i : IslandId, (s.isl i).sealed = true → (s.isl i).command = false → (s.isl i).flr = false →
         ((s.isl i).quarantine = true → (s.isl i).healed = true) →
         ((s.isl i).load = true → s.fullLoading = false) →
         (s.isl i).loadState = .none ∨ (s.isl i).loadState = .complete →
         (t.isl i).sealed = false ∧ (t.isl i).loadState = .none ∧ (t.isl i).quarantined = false) ∧
       (∀ i : IslandId, (s.isl i).sealed = true → (s.isl i).command = true ∨ (s.isl i).flr = true →
         (t.isl i).sealed = true) ∧
       (∀ i : IslandId, (s.isl i).sealed = false → (t.isl i).sealed = false))

/-! ## The choice of a copy (05) -/

/-- R139, R140: SFDP discovery in LOAD. A flash that fails it is HOLD cause 1; one that passes gives the
copies to try, in their order.
R140, R141, R144: the first of the copies left is verified. One that fails is passed over; so is an
incompatible one where FORCE_BOOT may not be used; the other starts the first attempt, the directory's
personality sections giving the number of devices. Where the copy passed over is the last, T5 starts:
with HOLD_CAUSE 2 where a copy has verified and none was compatible, else 1 (R31 T5).
Completes: flashSfdpDiscovery, containerVerify.
Where it rests on the model's choices: log entry 14. -/
def Obligations.FlashBoot : Prop :=
  (∀ (sig erase64 suspends : Bool) (density : Nat) (modes : BitVec 4) (s : State), s.settled = true →
     s.mode.mode = .load → s.ldr.phase = .sfdp →
     (sig = true → 0x2000000 ≤ density → erase64 = true → s.flash.copyOrder ≠ [] →
       answersLike (exec (.flashSfdpDiscovery sig density erase64 modes suspends) s)
         ((s.modFlash (fun f => { f with
             readMode := if modes.getLsbD 3 then 3 else if modes.getLsbD 2 then 2
               else if modes.getLsbD 1 then 1 else 0
             found := true, suspends := suspends })).modLdr (fun l => { l with
               phase := .verify, left := s.flash.copyOrder }))) ∧
     (sig = false ∨ density < 0x2000000 ∨ erase64 = false → s.mode.trans = none →
       ∃ t, exec (.flashSfdpDiscovery sig density erase64 modes suspends) s = .next t ∧
         t.mode.trans = some { id := 5, target := .hold } ∧ t.mode.holdCause = 1 ∧ t.mode.mode = .load ∧
         t.flash = s.flash ∧ t.frames = s.frames ∧ t.charter = s.charter)) ∧
  (∀ (c : Nat) (rest : List Nat) (s : State), s.settled = true → s.mode.mode = .load →
     s.ldr.phase = .verify → s.ldr.left = c :: rest → s.chain.downPresent = false → s.chain.credits = 0 →
     let passed := { s with freeCounter := s.freeCounter + 1 }
     (s.flash.verify c = false → rest ≠ [] →
       answersLike (exec .containerVerify s) (passed.modLdr (fun l => { l with left := rest }))) ∧
     (s.flash.verify c = true → s.flash.refusal c ≠ 0 → s.forceBootNow = false → rest ≠ [] →
       answersLike (exec .containerVerify s) (passed.modLdr (fun l => { l with
         left := rest, verifiedA := l.verifiedA || c == 1, verifiedB := l.verifiedB || c == 2
         incompat := (s.flash.kilOf c, s.flash.pmlOf c, s.flash.refusal c) }))) ∧
     (rest = [] → s.mode.trans = none → s.flash.verify c = false ∨ (s.flash.refusal c ≠ 0 ∧ s.forceBootNow = false) →
       ∃ t, exec .containerVerify s = .next t ∧ t.mode.trans = some { id := 5, target := .hold } ∧
         t.mode.mode = .load ∧
         t.mode.holdCause = (if (s.ldr.verifiedA || s.ldr.verifiedB || (s.flash.verify c && (c == 1 || c == 2))) = true ∧
           s.ldr.compatSeen = 0 then 2 else 1) ∧
         t.ldr.phase = .ended ∧ t.ldr.left = [] ∧ t.ldr.ownDone = s.ldr.ownDone ∧
         t.flash = s.flash ∧ t.frames = s.frames ∧ t.charter = s.charter) ∧
     (s.flash.verify c = true → s.flash.refusal c = 0 ∨ s.forceBootNow = true →
       answersLike (exec .containerVerify s) (s.modLdr (fun l => { l with
         verifiedA := l.verifiedA || c == 1, verifiedB := l.verifiedB || c == 2
         incompat := if s.flash.refusal c = 0 then l.incompat
           else (s.flash.kilOf c, s.flash.pmlOf c, s.flash.refusal c)
         compatSeen := l.compatSeen + 1, trying := c, attempt := 1, phase := .firmware
         devices := s.flash.sectionsOf c - 2, override := s.flash.refusal c != 0 }))))

/-- R144, R135: in an attempt the firmware section and then the microcode section set the keeper's and
the port engines' levels.
R156, R31 T5: DONE still low when the chain timeout has passed is HOLD cause 3 where the stream brought
no section for this device, else 4. A load from the flash or the chain ends.
Completes: firmwareSectionLoaded, microcodeSectionLoaded, chainTimeout.
Where it rests on the model's choices: log entry 7. -/
def Obligations.LevelsAndChain : Prop :=
  (∀ s : State, s.settled = true → s.mode.mode = .load → s.chain.downPresent = false → s.chain.txq = [] →
     let whole := fun (k : Nat) => crc32c (s.flash.bytes (copyBase s.ldr.trying +
       (s.flash.entry s.ldr.trying k).off) (s.flash.entry s.ldr.trying k).slen) =
         (s.flash.entry s.ldr.trying k).scrc
     (s.ldr.phase = .firmware → whole 0 →
       answersLike (exec .firmwareSectionLoaded s) (s.modLdr (fun l => { l with
         kil := (s.flash.entry l.trying 0).level, keeperUp := true, phase := .microcode }))) ∧
     (s.ldr.phase = .microcode → whole 1 →
       answersLike (exec .microcodeSectionLoaded s) (s.modLdr (fun l => { l with
         pml := (s.flash.entry l.trying 1).level, microUp := true, phase := .ownSection })))) ∧
  (∀ s : State, s.settled = true → s.mode.mode = .load → s.mode.trans = none → s.mode.doneLow = true →
     ∃ t, exec .chainTimeout s = .next t ∧ t.mode.trans = some { id := 5, target := .hold } ∧
       t.mode.holdCause = (if s.ldr.noSection then 3 else 4) ∧ t.mode.mode = .load ∧
       (s.ldr.load.any (fun l => l.path == .flash || l.path == .chain) → t.ldr.load = none) ∧
       t.frames = s.frames ∧ t.harbour = s.harbour ∧ t.flash = s.flash ∧ t.charter = s.charter)

/-! ## The Gojan chain (05) -/

/-- R148 to R151, R153: good frames of the stream at a device behind another that has none behind it, in
LOAD. Each counts in the sequence and gives a CREDIT back. BEGIN gives the chain index, the number
of devices and the stream's header; SECTION announces a section, DATA brings its words, and the
whole firmware or microcode section sets its level; STREAM_END without an own section is reported,
and the device stops; RESTART clears the configuration and counts the link anew.
R148, R150, R152, R154: good frames from the next device. A CREDIT counts; a STATUS is passed on by a
device behind another, and VERIFIED is kept; a REPAIR_REQ is passed on, or the first device queues it.
Completes: chainBegin, chainSection, chainData, chainStreamEnd, chainRestart, chainCredit,
chainStatus, chainRepairReq.
Where it rests on the model's choices: log entries 15, 57. -/
def Obligations.ChainFrames : Prop :=
  (∀ (frame : List Word) (s : State), s.settled = true → s.mode.mode = .load → s.mode.chainFirst = false →
     s.chain.stopped = false → s.chain.downPresent = false → s.chain.credits = 0 → s.ldr.ownDone = false →
     frameError true s.chain.rxUp frame false = none →
     let p := framePayload frame
     let counted := s.modChain (fun c => { c with rxUp := (c.rxUp + 1) % 256, seqUp := (c.seqUp + 1) % 256 })
     (frameType frame = 1 → s.chain.begun = false →
       answersLike (exec (.chainBegin frame false) s)
         ((counted.modLdr (fun l => { l with
             chainIndex := frameIndex frame, devices := field (wordAt p 16) 0 4 })).modChain (fun c => { c with
           begun := true, stamp := (p.drop 4).take 4, copy := field (wordAt p 16) 4 2
           attempt := field (wordAt p 16) 6 2, forced := bitAt (wordAt p 16) 8 }))) ∧
     (frameType frame = 2 →
       let e := sectionOf (wordsBytes p)
       let noted := counted.modChain (fun c => { c with
         section_ := some (e.type, e.index, e.level, e.slen / 4, e.scrc, crcInit) })
       (e.type = 3 → e.index = s.ldr.chainIndex →
         answersLike (exec (.chainSection frame false) s) (noted.modChain (fun c => { c with ownSeen := true }))) ∧
       (e.type = 1 →
         answersLike (exec (.chainSection frame false) s)
           (noted.modChain (fun c => { c with fwLevel := e.level, steppings := e.steppings })))) ∧
     (frameType frame = 3 → ∀ (type index level left : Nat) (scrc crc : Word),
       s.chain.section_ = some (type, index, level, left, scrc, crc) → type = 1 ∨ type = 2 →
       s.chain.streamEnd = false → p.length ≤ left →
       let sum := crcMore crc (wordsBytes p)
       let taken := counted.modChain (fun c => { c with
         section_ := some (type, index, level, left - p.length, scrc, sum) })
       (p.length < left → answersLike (exec (.chainData frame false) s) taken) ∧
       (p.length = left → crcFinal sum = scrc →
         answersLike (exec (.chainData frame false) s)
           (taken.modLdr (fun l =>
             if type = 1 then { l with kil := level, keeperUp := true }
             else { l with pml := level, pmlRefused := pmlOutside s.chain.stamp level, microUp := true })))) ∧
     (frameType frame = 4 →
       (s.chain.ownSeen = true →
         answersLike (exec (.chainStreamEnd frame false) s)
           ((counted.modChain (fun c => { c with streamEnd := true })).modLdr (fun l => { l with
             noSection := false }))) ∧
       (s.chain.ownSeen = false →
         answersLike (exec (.chainStreamEnd frame false) s)
           ((counted.modChain (fun c => { c with
               seqUp := (s.chain.seqUp + 2) % 256, streamEnd := true, stopped := true, txq := [] })).modLdr
             (fun l => { l with noSection := true })))) ∧
     (frameType frame = 5 → s.mode.firstWake = false →
       ∃ t, exec (.chainRestart frame false) s = .next t ∧ t.frames = [] ∧ t.ldr.marks = 0 ∧
         t.ldr.ownDone = false ∧ t.ldr.keeperUp = false ∧ t.ldr.microUp = false ∧ t.ldr.kil = 0 ∧
         t.ldr.pml = 0 ∧ t.ldr.chainIndex = 0 ∧ t.ldr.devices = 0 ∧ t.chain.begun = false ∧
         t.chain.section_ = none ∧ t.chain.ownSeen = false ∧ t.chain.streamEnd = false ∧
         t.chain.rxUp = 0 ∧ t.chain.seqUp = 2 ∧ t.ldr.locks = s.ldr.locks ∧ t.mode.mode = .load)) ∧
  (∀ (frame : List Word) (s : State), s.settled = true → s.mode.mode ≠ .reset → s.chain.txq = [] →
     s.chain.streamEnd = false → s.ldr.phase ≠ .done →
     frameError false s.chain.rxDown frame false = none →
     let v := wordAt (framePayload frame) 0
     let counted := s.modChain (fun c => { c with rxDown := (c.rxDown + 1) % 256 })
     let passed := counted.modChain (fun c => { c with seqUp := (c.seqUp + 1) % 256 })
     (frameType frame = 8 →
       answersLike (exec (.chainCredit frame false) s)
         (counted.modChain (fun c => { c with credits := c.credits + 1 }))) ∧
     (frameType frame = 9 → s.mode.chainFirst = false →
       answersLike (exec (.chainStatus frame false) s)
         (if field v 4 4 = 1 then passed.modChain (fun c => { c with
           verifiedSet := c.verifiedSet ||| BitVec.ofNat 8 (2 ^ field v 0 3) })
          else passed)) ∧
     (frameType frame = 9 → s.mode.chainFirst = true → s.mode.mode = .load → s.ldr.phase = .ownSection →
       field v 4 4 = 1 →
       answersLike (exec (.chainStatus frame false) s) (counted.modChain (fun c => { c with
         verifiedSet := c.verifiedSet ||| BitVec.ofNat 8 (2 ^ field v 0 3) }))) ∧
     (frameType frame = 0xA → s.mode.mode ≠ .load → s.mode.chainFirst = false →
       answersLike (exec (.chainRepairReq frame false) s) passed) ∧
     (frameType frame = 0xA → s.mode.mode ≠ .load → s.mode.chainFirst = true →
       ∀ n, denseOf (field v 0 16) = some n →
       answersLike (exec (.chainRepairReq frame false) s) (counted.modTide (fun t => { t with
         queue := t.queue ++ [(.chain (field v 0 16) (field v 16 3), n)] }))))

/-! ## The device internal address space (01) -/

/-- R15, R16, R18: aligned accesses of 4 bytes that the keeper makes to the two byte memories. A write
stores its four bytes, the lowest first, and nothing else; a read changes nothing, where no word of
the memory holds an error. An access at a reserved address changes nothing (R17). One made while an
earlier one of its requester is at an island's logic waits behind it.
Completes: diaAccess.
Where it rests on the model's choices: log entries 33, 44. -/
def Obligations.MemoryAccesses : Prop :=
  ∀ (a : Nat) (v : Word) (s : State), s.settled = true → s.mode.mode ≠ .reset → a % 4 = 0 → s.behind = [] →
    (s.outstanding .keeper = true → ∀ w,
      answersLike (exec (.diaAccess .keeper w a 4 (leBytes 4 v.toNat)) s)
        { s with behind := [{ who := .keeper, write := w, addr := a, len := 4, data := leBytes 4 v.toNat }] }) ∧
    (s.outstanding .keeper = false →
    (a < 0x800000 → s.harbourBad = [] → s.harbourSoft = [] →
      answersLike (exec (.diaAccess .keeper true a 4 (leBytes 4 v.toNat)) s)
        { s with harbour := memWrite 0 s.harbour a (leBytes 4 v.toNat) } ∧
      answersLike (exec (.diaAccess .keeper false a 4 []) s) s) ∧
    (0x3100000 ≤ a → a < 0x3180000 → s.progBad = [] →
      answersLike (exec (.diaAccess .keeper true a 4 (leBytes 4 v.toNat)) s)
        { s with progMem := memWrite 0 s.progMem (a - 0x3100000) (leBytes 4 v.toNat) } ∧
      answersLike (exec (.diaAccess .keeper false a 4 []) s) s) ∧
    (regionOf a = .reserved → ∀ w,
      answersLike (exec (.diaAccess .keeper w a 4 (leBytes 4 v.toNat)) s) s))

/-- R74, R75, R76: an access of the windows, or of a ring's thread, waits at an island's interface until
the interface clock samples UACK, which ends it with the URDATA sampled, or until 4,096 core cycles
have passed, a read then giving zeros; then the next one that waits is presented. An access of 64
bits is two, the second at the next word (R15). An access presented is one its thread's instruction
has made (R353). Without UACK nothing ends: the edge that ends the UREQ cycle and every later one
sample it, and a frozen fabric has no edge.
Completes: uack, fabricAccessTimeout.
Where it rests on the model's choices: log entry 33. -/
def Obligations.FabricHandshake : Prop :=
  ∀ (i : IslandId) (d : Word) (a : FabAccess) (s : State), s.settled = true → s.behind = [] →
    (s.isl i).ureg.busy = some a → s.cplHeld a = false →
    let idle := s.modIsl i (fun x => { x with ureg := { x.ureg with
      busy := none, shown := false, ack := none } })
    let told := fun (r status value : Nat) => idle.modThr r (fun t => { t with
      wait := .none, cur := t.cur.map (fun c => { c with reply := some (status, value) }) })
    let sampled := (s.isl i).ureg.ack
    (sampled = none → answersLike (exec (.uack i) s) s) ∧
    (sampled = some d → answersLike (exec (.fabricAccessTimeout i) s) s) ∧
    (sampled = some d → ∀ hi, a.upper = some hi →
      answersLike (exec (.uack i) s) ((s.modIsl i (fun x => { x with ureg := { x.ureg with
        busy := some { a with
          addr := a.addr + 1, data := hi, upper := none, got := if a.write then [] else a.got ++ [d] }
        shown := false, ack := none } })).madeOnce a.who)) ∧
    ((s.isl i).ureg.waiting = [] →
      (∀ q, a.who = .window q →
        (sampled = some d → a.upper = none → answersLike (exec (.uack i) s) idle) ∧
        (sampled = none → answersLike (exec (.fabricAccessTimeout i) s) idle)) ∧
      (∀ r, a.who = .ring r → r < 32 → (s.thr r).wait = .fabric i →
        (sampled = some d → a.upper = none →
          answersLike (exec (.uack i) s) (told r 0 (if a.write then 0 else wordsNat (a.got ++ [d])))) ∧
        (sampled = none → answersLike (exec (.fabricAccessTimeout i) s) (told r 0x25 0)))) ∧
    (∀ b rest, (s.isl i).ureg.waiting = b :: rest → ∀ q, a.who = .window q →
      let next := (s.modIsl i (fun x => { x with ureg := { x.ureg with
        busy := some b, waiting := rest, shown := false, ack := none } })).madeOnce b.who
      (sampled = some d → a.upper = none → answersLike (exec (.uack i) s) next) ∧
      (sampled = none → answersLike (exec (.fabricAccessTimeout i) s) next))

/-! ## Leave ports and clocks (04, 17) -/

/-- R78, R485: after a rise of LREQ that the interface clock has sampled, with its LSEL, the request
with the class's cost sets out. After a fall the request is withdrawn and the lease released. A rise
sampled while LGRANT or LDENY is 1 makes no request, nor does the fall after it end one.
Completes: lreqRise, lreqFall.
Where it rests on the model's choices: log entry 33. -/
def Obligations.LeavePorts : Prop :=
  ∀ (i : IslandId) (sel : Fin 4) (later : List (Option Nat)) (s : State), s.settled = true →
    ((s.isl i).leave.edges = some sel.val :: later →
      let reg := s.leave.iclsReg i sel
      answersLike (exec (.lreqRise i) s)
        ((s.modIsl i (fun x => { x with leave := { x.leave with edges := later } })).modLeave
          (fun l => { l with arriving := l.arriving ++
            [{ who := .island i, cost := field reg 0 12, prio := field reg 12 2, duration := field reg 14 18
               timeout := 1000 * l.defTimeout, at_ := s.coreNs }] }))) ∧
    ((s.isl i).leave.edges = none :: later → s.leave.queue = [] →
      answersLike (exec (.lreqFall i) s)
        ((s.modIsl i (fun x => { x with leave := { x.leave with
            edges := later, granted := false, denied := false } })).modLeave
          (fun l => { l with
            arriving := l.arriving.filter (fun q => q.who != .island i)
            leases := l.leases.filter (fun x => x.who != .island i), stale := false }))) ∧
    (∀ (x : LeavePort) (n : Nat), x.seen = false →
      (x.lgrant = false → x.ldeny = false →
        (x.sample true n).edges = x.edges ++ [some n] ∧
        ((x.sample true n).sample false n).edges = x.edges ++ [some n, none]) ∧
      (x.lgrant = true ∨ x.ldeny = true → x.asked = false →
        ((x.sample true n).sample false n).edges = x.edges))

/-- R94, R95, R96: a synthesizer that is enabled with a setup inside the limits locks, and its lease
ends, and outside them it does not lock; a lock not reached in time, and a loss of lock, set bit 8
of SUP_FAULT_STATUS (R509).
R97, R182: a global line counts as active from an edge on until 10 µs without one. When it restarts, the
registers of released islands that it clocks leave reset.
Completes: synthLock, synthLockWaitEnd, synthLossOfLock, lineInactive, globalLineRestart. -/
def Obligations.Clocks : Prop :=
  (∀ (c : SynthId) (s : State), s.settled = true → s.leave.queue = [] →
     let mask := BitVec.ofNat 4 (2 ^ c.val)
     let freed := fun (s : State) => s.modLeave (fun l => { l with
       leases := l.leases.filter (fun x => x.who != .synth c), stale := false })
     let fault := fun (s : State) => s.modLog (fun l => { l with faultStatus := l.faultStatus ||| 0x100 })
     (s.mode.mode ≠ .reset → s.synthEn c = true → s.clocks.lock.getLsbD c = false →
       s.synthSetupOk c = true →
       answersLike (exec (.synthLock c) s) (freed (s.modClocks (fun k => { k with
         lock := k.lock ||| mask, ran := k.ran ||| mask, waiting := k.waiting &&& ~~~mask })))) ∧
     (s.synthSetupOk c = false → answersLike (exec (.synthLock c) s) s) ∧
     (s.clocks.waiting.getLsbD c = true →
       answersLike (exec (.synthLockWaitEnd c) s)
         (fault (freed (s.modClocks (fun k => { k with waiting := k.waiting &&& ~~~mask }))))) ∧
     (s.clocks.lock.getLsbD c = true → s.clocks.lineHigh = 0 →
       answersLike (exec (.synthLossOfLock c) s)
         (fault (s.modClocks (fun k => { k with lock := k.lock &&& ~~~mask, loss := k.loss ||| mask }))))) ∧
  (∀ (l : LineId) (s : State), s.settled = true →
     let mask := BitVec.ofNat 16 (2 ^ l.val)
     answersLike (exec (.lineInactive l) s)
       (s.modClocks (fun c => { c with lineActive := c.lineActive &&& ~~~mask })) ∧
     (s.lineRuns l = true →
       ∃ t, exec (.globalLineRestart l) s = .next t ∧ t.clocks.lineActive = s.clocks.lineActive ||| mask ∧
         (s.clocksRun = true → ∀ (i : IslandId) (j : Fin 4), (t.isl i).coldClocks.getLsbD j =
           ((s.isl i).coldClocks.getLsbD j && s.iclkLine i j != l.val)) ∧
         (∀ i : IslandId, (t.isl i).user = (s.isl i).user ∧ (t.isl i).sealed = (s.isl i).sealed) ∧
         t.frames = s.frames ∧ t.rings = s.rings ∧ t.threads = s.threads))

/-! ## Bitstreams on the host path (05) -/

/-- R115, R127, R129: the first word of a bitstream. On every path the sync word starts a load where the
path is not locked and no load is open; on the host path each other case ends the bitstream with its
error.
R161, R166: LDR_BENCH, the words of LDR_HOST_DATA, CLOSE and the timeout of the host path.
Completes: syncWord, ldrBenchWrite, ldrHostDataWrite, closeStream, hostLoadTimeout.
Where it rests on the model's choices: log entries 12, 53, 57. -/
def Obligations.HostLoads : Prop :=
  (∀ (w : Word) (s : State), s.settled = true → s.brings .host [w] →
     let refused := fun (code : Nat) => s.modLdr (fun x => { x with
       hostDiscard := true, forceHost := false, lastError := code, lastPath := 2 })
     (s.ldr.locks.getLsbD 1 = true → s.loadOn .host = false →
       answersLike (exec (.syncWord .host w) s) (refused 0x13)) ∧
     (s.ldr.locks.getLsbD 1 = false →
       (∀ l, s.ldr.load = some l → l.path ≠ .host →
         answersLike (exec (.syncWord .host w) s) (refused 0x15)) ∧
       (s.ldr.load = none → w ≠ 0x6E1FA7D2#32 → answersLike (exec (.syncWord .host w) s) (refused 0x01)))) ∧
  (∀ (p : Path) (s : State), s.settled = true → s.brings p [0x6E1FA7D2#32] → s.pathLocked p = false →
     s.ldr.load = none →
     answersLike (exec (.syncWord p 0x6E1FA7D2#32) s)
       ((s.brought p [0x6E1FA7D2#32]).modLdr (fun x => { x with
         load := some { path := p }, hostWords := if p = .host then 1 else x.hostWords }))) ∧
  (∀ s : State, s.settled = true → s.mode.mode ≠ .reset → s.mode.unlock = false → s.x1Holds = false →
     (∀ v : Word,
       (s.mode.benchEn = true → s.ldr.locks.getLsbD 5 = false → s.mode.mode = .service ∨ s.mode.mode = .test →
         answersLike (exec (.ldrBenchWrite v) s) (s.modLdr (fun l => { l with
           forceHost := bitAt v.toNat 0, forceBoot := bitAt v.toNat 1 }))) ∧
       (s.mode.benchEn = false ∨ s.ldr.locks.getLsbD 5 = true ∨
           (s.mode.mode ≠ .service ∧ s.mode.mode ≠ .test) →
         s.ldr.forceHost = false → bitAt v.toNat 0 = true → answersLike (exec (.ldrBenchWrite v) s) s)) ∧
     (s.ldr.hostDiscard = false → s.ldr.locks.getLsbD 1 = false → s.ldr.load = none →
       answersLike (exec (.ldrHostDataWrite 0x6E1FA7D2#32 (some 0xC5000000#32)) s)
         (s.modLdr (fun x => { x with
           hostWords := 2
           load := some { path := .host, off := 2, crc := crcMore crcInit (wordsBytes [0xC5000000#32]) } }))) ∧
     (s.loadOn .host = false →
       answersLike (exec .closeStream s) (s.modLdr (fun l => { l with hostDiscard := false }))) ∧
     (s.failedIslands = [] → ∀ l, s.ldr.load = some l → l.path = .host →
       let stopped := s.modLdr (fun x => { x with
         load := none, forceHost := false, lastError := 0x12, lastPath := 2 })
       answersLike (exec .closeStream s) (stopped.modLdr (fun x => { x with hostDiscard := false })) ∧
       answersLike (exec .hostLoadTimeout s) (stopped.modLdr (fun x => { x with hostDiscard := true }))))

/-- R116 to R120, R122 to R124, R130: the packets that write no frame and open no island, each in its
place and on every path, and the errors of the checks made before them on the host link and the TAP.
Completes: badPacketHeader, nopPacket, idchk, stampPacket, manifest, abort, reservedLoadCmd,
lockPacket, farPacket.
Where it rests on the model's choices: log entries 12, 13, 53. -/
def Obligations.PacketsTaken : Prop :=
  ∀ (l : Load) (s : State), s.settled = true → s.between l →
    let p := l.path
    (∀ w : Word, hdrMark w ≠ 0xC5 → s.failing l [w] →
      answersLike (exec (.badPacketHeader p w) s) (s.loadStopped p 1 0x02)) ∧
    (∀ w : Word, hdrMark w = 0xC5 → regOk (hdrReg w) = false → s.failing l [w] →
      answersLike (exec (.badPacketHeader p w) s) (s.loadStopped p 1 0x03)) ∧
    (∀ w : Word, hdrMark w = 0xC5 → regOk (hdrReg w) = true → countOk (hdrReg w) (hdrCount w) = false →
      s.failing l [w] → answersLike (exec (.badPacketHeader p w) s) (s.loadStopped p 1 0x04)) ∧
    (∀ ws : List Word, ws.length < 65536 → s.brings p (packetHeader 0 ws.length :: ws) →
      answersLike (exec (.nopPacket p ws) s) (s.took l (packetHeader 0 ws.length :: ws) id)) ∧
    (l.phase = .afterSync → ∀ w0 w1 : Word,
      (field w0.toNat 0 24 = 0x014800 → field w1.toNat 0 3 = s.ldr.chainIndex →
        s.brings p [packetHeader 1 2, w0, w1] →
        answersLike (exec (.idchk p w0 w1) s)
          (s.took l [packetHeader 1 2, w0, w1] (fun l => { l with phase := .afterId }))) ∧
      (field w0.toNat 0 24 ≠ 0x014800 → s.failing l [packetHeader 1 2, w0, w1] →
        answersLike (exec (.idchk p w0 w1) s) (s.loadStopped p 3 0x06)) ∧
      (field w0.toNat 0 24 = 0x014800 → field w1.toNat 0 3 ≠ s.ldr.chainIndex →
        s.failing l [packetHeader 1 2, w0, w1] →
        answersLike (exec (.idchk p w0 w1) s) (s.loadStopped p 3 0x07))) ∧
    (l.phase = .afterId → ∀ w0 w1 w2 w3 : Word,
      let st := [w0, w1, w2, w3]
      (stampOrdered st = true → stampRange st s.ldr.kil s.ldr.pml = true → s.ldr.keeperUp = true →
        s.ldr.microUp = true → s.ldr.override = false → s.brings p (packetHeader 2 4 :: st) →
        answersLike (exec (.stampPacket p w0 w1 w2 w3) s)
          (s.took l (packetHeader 2 4 :: st) (fun l => { l with
            phase := .afterStamp, stamp := st, forced := false }))) ∧
      (stampRange st s.ldr.kil s.ldr.pml = false → s.ldr.forceHost = false →
        s.failing l (packetHeader 2 4 :: st) →
        answersLike (exec (.stampPacket p w0 w1 w2 w3) s) (s.loadStopped p 5 0x08))) ∧
    (l.phase = .afterStamp → ∀ ws : List Word, ws.length = 10 ∨ ws.length = 266 →
      (manifestOk ws = true → s.brings p (packetHeader 3 ws.length :: ws) →
        answersLike (exec (.manifest p ws) s)
          (s.took l (packetHeader 3 ws.length :: ws) (fun l => { l with
            phase := .afterManifest, all := bitAt (wordAt ws 0) 0, count := wordAt ws 1
            digest := wordsBytes ((ws.drop 2).take 8)
            bitmap := BitVec.ofNat 8192 (wordsNat (ws.drop 10)) }))) ∧
      (manifestOk ws = false → s.failing l (packetHeader 3 ws.length :: ws) →
        answersLike (exec (.manifest p ws) s) (s.loadStopped p (ws.length + 1) 0x09))) ∧
    (∀ rest : BitVec 28, s.failing l [packetHeader 4 1, cmdWord 3 rest] →
      answersLike (exec (.abort p rest) s) (s.loadStopped p 2 0x14)) ∧
    (∀ w : Word, field w.toNat 0 4 = 0 ∨ 3 < field w.toNat 0 4 → s.failing l [packetHeader 4 1, w] →
      answersLike (exec (.reservedLoadCmd p w) s)
        (s.loadStopped p 2 (if l.phase = .afterManifest then 0x0A else 0x05))) ∧
    (l.phase = .body → ∀ w : Word,
      (l.lockSeen = false → s.brings p [packetHeader 5 1, w] →
        answersLike (exec (.lockPacket p w) s) (s.took l [packetHeader 5 1, w] (fun l => { l with
          lockSeen := true, locks := BitVec.ofNat 7 w.toNat }))) ∧
      (denseOf (field w.toNat 0 16) ≠ none → s.brings p [packetHeader 6 1, w] →
        answersLike (exec (.farPacket p w) s) (s.took l [packetHeader 6 1, w] (fun l => { l with
          far := field w.toNat 0 16, farSeen := true, farEnd := false }))) ∧
      (denseOf (field w.toNat 0 16) = none → s.failing l [packetHeader 6 1, w] →
        answersLike (exec (.farPacket p w) s) (s.loadStopped p 2 0x0B)))

/-- R122, R127, R128, R173 to R177: where the path and the mode allow it, START_FULL and START_PARTIAL
open the load of every island of which the manifest declares a frame. Outside LOAD START_FULL first
seals every island and clears every frame, a global frame after the first wake keeping what it
drives until the next one (R109, R110), and START_PARTIAL seals the islands it opens and clears
nothing; in LOAD, where nothing runs, START_FULL does neither. That no frame counts as written after
the clearing is the model's choice (log 11). The bits of the command word above the command have no
meaning.
Completes: startFull, startPartial.
Where it rests on the model's choices: log entries 11, 53. -/
def Obligations.LoadStarts : Prop :=
  ∀ (l : Load) (rest : BitVec 28) (s : State), s.settled = true → s.between l → l.phase = .afterManifest →
    let taken := fun (t : State) (full : Bool) =>
      t.ldr.load = some { l with
        full := full, phase := .body, records := 0, off := l.off + 2
        crc := crcMore l.crc (wordsBytes [packetHeader 4 1, cmdWord (if full then 1 else 2) rest]) }
    let declared := fun (i : IslandId) => ∃ k : Fin 168, l.declares (168 * i + k) = true
    (s.brings l.path [packetHeader 4 1, cmdWord 1 rest] → startMode l.path true s.mode.mode = true →
      (s.mode.mode = .load →
        ∃ t, exec (.startFull l.path rest) s = .next t ∧ taken t true ∧
          (∀ i : IslandId, (declared i → (t.isl i).loadState = .open) ∧
            (¬ declared i → t.isl i = s.isl i)) ∧
          t.frames = s.frames ∧ t.ldr.marks = s.ldr.marks) ∧
      (s.mode.mode ≠ .load → (∀ i : IslandId, declared i → s.loadBusy i = false) →
        ∃ t, exec (.startFull l.path rest) s = .next t ∧ taken t true ∧
          (∀ i : IslandId, (t.isl i).load = true ∧ (t.isl i).replaced = true ∧
            (t.isl i).portsStopped = true ∧ (declared i → (t.isl i).loadState = .open) ∧
            (¬ declared i → (t.isl i).loadState = (s.isl i).loadState)) ∧
          (s.mode.firstWake = false → t.frames = []) ∧
          (s.mode.firstWake = true → (∀ n, n < 8160 → t.frame n = clearedFrame n) ∧
            ∀ k, k < 32 → t.frame (8160 + k) =
              { clearedFrame (8160 + k) with logic := some (BitVec.ofNat 2048 (s.frame (8160 + k)).live) }) ∧
          t.ldr.marks = 0 ∧ t.mode.globalWritten = true)) ∧
    (s.brings l.path [packetHeader 4 1, cmdWord 2 rest] → startMode l.path false s.mode.mode = true →
      l.all = false → s.mode.mode ≠ .load → (∀ i : IslandId, declared i → s.loadBusy i = false) →
      ∃ t, exec (.startPartial l.path rest) s = .next t ∧ taken t false ∧
        (∀ i : IslandId, (declared i → (t.isl i).load = true ∧ (t.isl i).loadState = .open) ∧
          (¬ declared i → (t.isl i).load = (s.isl i).load ∧ (t.isl i).loadState = (s.isl i).loadState)) ∧
        t.frames = s.frames ∧ t.ldr.marks = s.ldr.marks)

/-- R121, R125, R108: a frame record whose address is declared and ascends and whose CRC is good writes
its frame, data and check word together, and no other frame; FAR advances. So does a further record
of the same FDATA packet. On the host link and the TAP one that fails a check ends the load with
that check's error.
Completes: fdataRecord.
Where it rests on the model's choices: log entry 12. -/
def Obligations.FrameRecords : Prop :=
  ∀ (l : Load) (ws : List Word) (s : State), s.settled = true → s.ldr.load = some l → l.phase = .body →
    l.farSeen = true → l.farEnd = false → ws.length = 65 → s.forcedFull 11 = false →
    ∀ n, denseOf l.far = some n →
    let data := ws.take 64
    let record := fun (count : Option Nat) (h : Word) (left : Nat) (words : List Word) =>
      let run := exec (.fdataRecord l.path count ws) s
      (s.brings l.path words → (∀ k, l.last = some k → k < n) → l.declares n = true →
        recordCrc l.far data = ws.getD 64 0 →
        ∃ t, run = .next t ∧
          (t.frame n).data = BitVec.ofNat 2048 (wordsNat data) ∧
          (t.frame n).check = checkWord (faddrOf n) (BitVec.ofNat 2048 (wordsNat data)) ∧
          (∀ m, m ≠ n → t.frame m = s.frame m) ∧
          t.ldr.load = some { l with
            off := l.off + words.length, records := left - 1, part := if left = 1 then [] else [h]
            crc := crcMore l.crc (wordsBytes words), last := some n
            written := l.written + 1, sha := shaMore l.sha (leBytes 2 l.far ++ wordsBytes data)
            far := if n = 8191 then l.far else faddrOf (n + 1), farEnd := n == 8191 }) ∧
      (s.brings l.path words → l.path = .host ∨ l.path = .jtag →
        let failed := fun (code : Nat) => ∃ t, run = .next t ∧ t.ldr.load = none ∧ t.ldr.lastError = code ∧
          t.ldr.lastPath = l.path.code ∧ t.frames = s.frames
        ((∃ k, l.last = some k ∧ n ≤ k) → failed 0x0C) ∧
        ((∀ k, l.last = some k → k < n) → l.declares n = false → failed 0x0D) ∧
        ((∀ k, l.last = some k → k < n) → l.declares n = true → recordCrc l.far data ≠ ws.getD 64 0 →
          failed 0x0E))
    (∀ k, l.part = [] → 1 ≤ k → k ≤ 1008 →
      record (some k) (packetHeader 7 (65 * k)) k (packetHeader 7 (65 * k) :: ws)) ∧
    (∀ h, l.part = [h] → hdrReg h = 7 → record none h l.records ws)

/-- R126, R123, R160, R175: END ends the load. With the CRC, the count and the digest good it has
completed: the lock bits of its LOCK packet are set, its frames count as written, and its islands'
load states are COMPLETE.
R162, R163: LDR_LOCK sets the bits written with 1 and clears none; BENCH_LOCK clears the two bench
overrides, and WINDOW_FRAME_OFF refuses no window where it does not change.
Completes: endPacket, ldrLockWrite.
Where it rests on the model's choices: log entries 11, 53. -/
def Obligations.LoadEnds : Prop :=
  (∀ (l : Load) (crc : Word) (s : State), s.settled = true → s.between l → l.phase = .body →
     s.brings l.path [packetHeader 0x0F 1, crc] →
     let sum := crcMore l.crc (wordsBytes [packetHeader 0x0F 1])
     (crc = crcFinal sum → l.written = l.count → shaFinal l.sha = l.digest →
       ∃ t, exec (.endPacket l.path crc) s = .next t ∧ t.ldr.load = none ∧ t.ldr.lastError = 0 ∧
         t.ldr.lastPath = l.path.code ∧ t.ldr.loads = (s.ldr.loads + 1) % 256 ∧
         (l.path = .host → t.ldr.hostDiscard = true) ∧
         (l.path = .flash ∨ l.path = .chain → t.ldr.ownDone = true) ∧
         t.ldr.locks = s.ldr.locks ||| l.locks ∧ t.frames = s.frames ∧
         t.ldr.marks = s.ldr.marks ||| l.frames ∧
         (∀ i : IslandId, (s.isl i).loadState = .open → (s.isl i).frameLoad = none →
           (t.isl i).loadState = .complete) ∧
         (∀ i : IslandId, (s.isl i).loadState ≠ .open → (t.isl i).loadState = (s.isl i).loadState) ∧
         (l.forced = true → t.mode.untested = true ∧ t.ldr.forced = true)) ∧
     (l.path = .host ∨ l.path = .jtag →
       let failed := fun (code : Nat) => ∃ t, exec (.endPacket l.path crc) s = .next t ∧ t.ldr.load = none ∧
         t.ldr.lastError = code ∧ t.ldr.lastPath = l.path.code ∧ t.ldr.loads = s.ldr.loads ∧
         t.ldr.locks = s.ldr.locks ∧ t.frames = s.frames
       (crc ≠ crcFinal sum → failed 0x0F) ∧
       (crc = crcFinal sum → l.written ≠ l.count → failed 0x10) ∧
       (crc = crcFinal sum → l.written = l.count → shaFinal l.sha ≠ l.digest → failed 0x11))) ∧
  (∀ (v : Word) (s : State), s.settled = true → s.mode.mode ≠ .reset → s.mode.unlock = false →
     s.x1Holds = false →
     ∃ t, exec (.ldrLockWrite v) s = .next t ∧ t.ldr.locks = s.ldr.locks ||| BitVec.ofNat 7 v.toNat ∧
       (s.ldr.locks.getLsbD 5 = false → bitAt v.toNat 5 = true →
         t.ldr.forceHost = false ∧ t.ldr.forceBoot = false) ∧
       (bitAt v.toNat 5 = false → t.ldr.forceHost = s.ldr.forceHost ∧ t.ldr.forceBoot = s.ldr.forceBoot) ∧
       (bitAt v.toNat 6 = false → t.wins = s.wins) ∧
       t.frames = s.frames ∧ t.islands = s.islands ∧ t.mode.mode = s.mode.mode)

/-! ## Loader registers, flash and TAP (05) -/

/-- R164, R165: a flash command written while none is in progress. It runs in SERVICE and TEST; PROGRAM
and ERASE_64K are refused under FLASH_WRITE_LOCK, in the copy in use, and across a block.
R164: the end of a flash command at the first device, which acts with the address, length and data it
was given. READ fills the buffer; PROGRAM clears bits of the flash's bytes; ERASE_64K leaves a block of
ones; VERIFY tells whether the copy verifies. A command that fails has RESULT 5, and changes no byte of
the flash outside the range it was given. No flash answers a device behind CHAIN_FIRST low (R138).
Completes: flashRead, flashProgram, flashErase64k, flashVerifyA, flashVerifyB, flashCmdDone,
flashBusyTimeout.
Where it rests on the model's choices: log entries 32, 55. -/
def Obligations.FlashCommands : Prop :=
  (∀ s : State, s.settled = true → s.mode.mode ≠ .reset → s.mode.unlock = false → s.x1Holds = false →
     s.flash.busy = none →
     let begun := fun (op : FlashOp) => s.modFlash (fun f => { f with
       result := 0
       busy := some { op := op, addr := f.addr, len := if op = .erase then 0x10000 else f.len
                      data := memRead 0 f.buffer 0 f.len } })
     let refused := fun (r : Nat) => s.modFlash (fun f => { f with result := r })
     let a := s.flash.addr
     (s.mode.mode ≠ .service → s.mode.mode ≠ .test →
       answersLike (exec .flashRead s) (refused 1) ∧ answersLike (exec .flashProgram s) (refused 1) ∧
       answersLike (exec .flashErase64k s) (refused 1) ∧ answersLike (exec .flashVerifyA s) (refused 1) ∧
       answersLike (exec .flashVerifyB s) (refused 1)) ∧
     (s.mode.mode = .service ∨ s.mode.mode = .test →
       answersLike (exec .flashRead s) (begun .read) ∧
       answersLike (exec .flashVerifyA s) (begun .verifyA) ∧
       answersLike (exec .flashVerifyB s) (begun .verifyB) ∧
       (s.ldr.locks.getLsbD 2 = true →
         answersLike (exec .flashProgram s) (refused 2) ∧ answersLike (exec .flashErase64k s) (refused 2)) ∧
       (s.ldr.locks.getLsbD 2 = false →
         let used := fun (n : Nat) => s.ldr.copy ≠ 0 ∧ a < copyBase s.ldr.copy + 0x1000000 ∧
           copyBase s.ldr.copy < a + n
         (used s.flash.len → answersLike (exec .flashProgram s) (refused 3)) ∧
         (used 0x10000 → answersLike (exec .flashErase64k s) (refused 3)) ∧
         (¬ used s.flash.len → 1 ≤ s.flash.len →
           0x2000000 < a + s.flash.len ∨ a / 0x10000 ≠ (a + s.flash.len - 1) / 0x10000 →
           answersLike (exec .flashProgram s) (refused 4)) ∧
         (¬ used 0x10000 → 0x2000000 < a + 0x10000 ∨ a % 0x10000 ≠ 0 →
           answersLike (exec .flashErase64k s) (refused 4))) ∧
       (s.ldr.locks.getLsbD 2 = false → s.ldr.copy = 0 →
         (1 ≤ s.flash.len → a + s.flash.len ≤ 0x2000000 → a / 0x10000 = (a + s.flash.len - 1) / 0x10000 →
           answersLike (exec .flashProgram s) (begun .program)) ∧
         (a % 0x10000 = 0 → a < 0x2000000 → answersLike (exec .flashErase64k s) (begun .erase))))) ∧
  (∀ (j : FlashJob) (s : State), s.settled = true → s.flash.busy = some j →
     let f := s.flash
     let ended := fun (r : Nat) => s.modFlash (fun f => { f with busy := none, result := r })
     let done := exec (.flashCmdDone false) s
     (s.mode.chainFirst = false → ∀ c, c = Instr.flashBusyTimeout ∨ (∃ e, c = Instr.flashCmdDone e) →
       answersLike (exec c s) (ended (if j.op = .verifyA ∨ j.op = .verifyB then 6 else 5))) ∧
     (s.mode.chainFirst = true →
       (j.op = .read → answersLike done ((ended 0).modFlash (fun f => { f with
         buffer := memWrite 0 f.buffer 0 (memRead 0xFF f.cells j.addr j.len) }))) ∧
       (j.op = .erase → answersLike done ((ended 0).modFlash (fun f => { f with
         cells := memWrite 0xFF f.cells j.addr (List.replicate 0x10000 0xFF) }))) ∧
       (j.op = .program →
         let got := List.zipWith (· &&& ·) (memRead 0xFF f.cells j.addr j.len) j.data
         answersLike done ((ended (if got = j.data then 0 else 5)).modFlash (fun f => { f with
           cells := memWrite 0xFF f.cells j.addr got }))) ∧
       (j.op = .verifyA → answersLike done (ended (if f.verify 1 then 7 else 6))) ∧
       (j.op = .verifyB → answersLike done (ended (if f.verify 2 then 7 else 6))) ∧
       (∀ c, c = Instr.flashCmdDone true ∨ c = .flashBusyTimeout →
         ∃ t, exec c s = .next t ∧ t.flash.busy = none ∧ t.flash.result = 5 ∧
           t.flash.addr = f.addr ∧ t.flash.len = f.len ∧
           (∀ a, a < j.addr ∨ j.addr + j.len ≤ a → memByte 0xFF t.flash.cells a = memByte 0xFF f.cells a) ∧
           (j.op ≠ .program → j.op ≠ .erase → t.flash.cells = f.cells) ∧
           (j.op ≠ .read → t.flash.buffer = f.buffer))))

/-- R168, R169, R44, R209: the instructions of the TAP while TRST_N is high. Each is selected with the
register it captures; a scan of the boundary-scan register captures the pins and, where it is
updated, puts what was shifted in into it. Of the programming instructions ISC_ENABLE works in
SERVICE, TEST and HOLD while JTAG_ISP_OFF is clear, and ISC_DISABLE and Test-Logic-Reset end the
programming and a load of the TAP. A word of ISC_PROGRAM waits in X17 while the loader waits at a
frame boundary for X11 (R24, R27); one that finds X17 with eight words is lost, its load with it,
and so is a first word that X17, forced full, does not take (log 60). Every other opcode is BYPASS.
While TRST_N is low no instruction does anything.
Completes: tapReset, iscDisable, jtagIdcode, jtagClamp, jtagHighz, iscEnable, iscNoop,
jtagLoadStatus, iscProgram, jtagSamplePreload, jtagExtest, jtagBypass.
Where it rests on the model's choices: log entries 22, 43, 60. -/
def Obligations.TapInstructions : Prop :=
  ∀ s : State, s.settled = true →
    let sel := fun (ir : TapIr) (dr : Nat) => s.modJtag (fun j => { j with ir := ir, dr := BitVec.ofNat 32 dr })
    let off := s.modLdr (fun l => { l with jtagDiscard := false })
    let stopped := s.modLdr (fun l => { l with
      load := none, jtagDiscard := false, forceHost := false, lastError := 0x12, lastPath := Path.jtag.code })
    (s.loadOn .jtag = false → ∀ low : Bool,
      answersLike (exec (.tapReset low) s)
        (off.modJtag (fun j => { j with
          isc := false, x17 := [], ir := .idcode, dr := 0x148009E3, trstLow := low }))) ∧
    (s.loadOn .jtag = true → s.failedIslands = [] →
      (∀ low : Bool, answersLike (exec (.tapReset low) s)
        (stopped.modJtag (fun j => { j with
          isc := false, x17 := [], ir := .idcode, dr := 0x148009E3, trstLow := low }))) ∧
      (s.jtag.trstLow = false → answersLike (exec .iscDisable s)
        (stopped.modJtag (fun j => { j with isc := false, x17 := [], ir := .iscDisable, dr := 0 })))) ∧
    (s.jtag.trstLow = true → ∀ c, c = Instr.jtagIdcode ∨ c = .jtagClamp ∨ c = .jtagHighz ∨ c = .iscEnable ∨
        c = .iscDisable ∨ c = .iscNoop ∨ c = .jtagLoadStatus ∨ (∃ w, c = Instr.iscProgram w) ∨
        (∃ x, c = Instr.jtagSamplePreload x) ∨ (∃ x, c = Instr.jtagExtest x) ∨
        (∃ op, c = Instr.jtagBypass op) →
      answersLike (exec c s) s) ∧
    (s.jtag.trstLow = false →
    answersLike (exec .jtagIdcode s) (sel .idcode 0x148009E3) ∧
    (∀ shifted : Option (BitVec 3072),
      answersLike (exec (.jtagSamplePreload shifted) s) ((sel .sample 0).modJtag (fun j => { j with
        captured := s.sampledPins, bsr := shifted.getD j.bsr })) ∧
      answersLike (exec (.jtagExtest shifted) s) ((sel .extest 0).modJtag (fun j => { j with
        captured := s.sampledPins, bsr := shifted.getD j.bsr }))) ∧
    answersLike (exec .jtagClamp s) (sel .clamp 0) ∧
    answersLike (exec .jtagHighz s) (sel .highz 0) ∧ answersLike (exec .iscNoop s) (sel .iscNoop 0) ∧
    answersLike (exec .jtagLoadStatus s) (sel .loadStatus s.ldrStatus) ∧
    (∀ op : BitVec 8, op = 0 ∨ (5 < op ∧ op < 0x10) ∨ (0x13 < op ∧ op < 0x20) ∨ 0x20 < op →
      answersLike (exec (.jtagBypass op) s) (sel .bypass 0)) ∧
    (s.mode.mode = .service ∨ s.mode.mode = .test ∨ s.mode.mode = .hold → s.ldr.locks.getLsbD 0 = false →
      s.jtag.isc = false →
      answersLike (exec .iscEnable s) (((sel .iscEnable 0).modJtag (fun j => { j with isc := true })).modLdr
        (fun l => { l with jtagDiscard := false }))) ∧
    (s.ldr.locks.getLsbD 0 = true ∨ s.jtag.isc = true → answersLike (exec .iscEnable s) (sel .iscEnable 0)) ∧
    (s.loadOn .jtag = false →
      answersLike (exec .iscDisable s)
        (off.modJtag (fun j => { j with isc := false, x17 := [], ir := .iscDisable, dr := 0 }))) ∧
    (s.jtag.isc = true → s.ldr.locks.getLsbD 0 = false → s.ldr.jtagDiscard = false →
      (let lost := fun (w : Word) => ((sel .iscProgram w.toNat).modLdr (fun l => { l with
          jtagDiscard := true, forceHost := false, lastError := 0x12, lastPath := Path.jtag.code })).modJtag
            (fun j => { j with x17 := [] })
       (s.ldr.load = none → s.forcedFull 17 = true → ∀ w : Word,
         answersLike (exec (.iscProgram w) s) (lost w)) ∧
       (s.loadOn .jtag = true → s.failedIslands = [] → s.forcedFull 17 = true ∨ 8 ≤ s.jtag.x17.length →
         ∀ w : Word, answersLike (exec (.iscProgram w) s)
           ((lost w).modLdr (fun l => { l with load := none })))) ∧
      (s.forcedFull 17 = false →
      (s.ldr.load = none → s.jtag.x17 = [] →
        answersLike (exec (.iscProgram 0x6E1FA7D2#32) s)
          ((sel .iscProgram 0x6E1FA7D2).modLdr (fun l => { l with load := some { path := .jtag } }))) ∧
      (s.loaderHeld .jtag = true → s.jtag.x17.length < 8 → ∀ w : Word,
        answersLike (exec (.iscProgram w) s)
          (let t := (sel .iscProgram w.toNat).modJtag (fun j => { j with x17 := j.x17 ++ [w] })
           if s.jtag.x17.length = 7 then t.modPtu (fun u => { u with qSeen := u.qSeen ||| 2 ^ 17 }) else t)))))

/-! ## The tide and repairs (06) -/

/-- R184, R186, R187, R190: one slot of the sweep. The position moves on, and a sweep ends with frame
8,191. A frame of an island whose load is open and a clean frame change nothing else; a correctable
finding is counted and its frame corrected in place, and a synthesizer whose setup that changes is
no longer locked (R94; DEDUCED, log 62); a finding in a strait or global frame is HOLD cause 5 or 6.
R185, R200, R8, R521: a burst asks for its leave; a check word is read back; the counters of the tide
and of the power leave unit, LEAVE_DENIALS, LEAVE_TIMEOUTS and LEAVE_PEAK, read to zero; in TEST a check
word is injected.
Completes: tideSlot, tideBurst, checkWordReadback, checkWordReady, rcFieldRead, checkWordInject.
Where it rests on the model's choices: log entries 21, 62. -/
def Obligations.Tide : Prop :=
  (∀ s : State, s.settled = true → s.tide.enabled = true → s.inRun = true → s.mode.trans = none →
     s.tide.now = none → s.tide.burst = false → s.tide.position < 8192 →
     let n := s.tide.position
     let moved := s.modTide (fun t => { t with
       position := if n = 8191 then 0 else n + 1
       sweeps := if n = 8191 then (t.sweeps + 1) % 65536 else t.sweeps })
     let found := (s.findingOf n).2
     (∀ i, frameIsland n = some i → (s.isl i).loadState = .open → answersLike (exec .tideSlot s) moved) ∧
     (found = .clean → answersLike (exec .tideSlot s) moved) ∧
     (found ≠ .clean → found.passes = true →
       (∀ i, frameIsland n = some i → (s.isl i).loadState ≠ .open) → (n < 8064 → n % 168 < 160) →
       let data := secCorrect found (s.frame n).data
       let fixed := (moved.modTide (fun t => { t with
           corrected := min 0xFFFFFFFF (t.corrected + 1)
           lastFind := lastFindOf n (s.findingOf n).1 found })).setFrame n
         { s.frame n with data := data, check := checkWord (faddrOf n) data }
       (n < 8160 ∨ (∀ c : SynthId, fixed.synthSetup c = s.synthSetup c) → answersLike (exec .tideSlot s) fixed) ∧
       ∃ t, exec .tideSlot s = .next t ∧ t.frames = fixed.frames ∧ t.tide = fixed.tide ∧
         ∀ c : SynthId, t.clocks.lock.getLsbD c =
           (s.clocks.lock.getLsbD c && decide (fixed.synthSetup c = s.synthSetup c))) ∧
     (found.passes = false → 8064 ≤ n → s.forcedFull 13 = false →
       ∃ t, exec .tideSlot s = .next t ∧ t.mode.trans = some { id := 16, target := .hold } ∧
         t.mode.holdCause = (if n < 8160 then 5 else 6) ∧ t.tide.position = moved.tide.position ∧
         t.frames = s.frames ∧ (∀ i : IslandId, (t.isl i).hold = true))) ∧
  (∀ s : State, s.settled = true → s.mode.mode ≠ .reset → s.mode.unlock = false → s.x1Holds = false →
     (s.tide.enabled = true → s.tide.burst = false → s.tide.burstWait = false →
       let reg := s.leave.kindReg 4
       answersLike (exec .tideBurst s)
         ((s.modTide (fun t => { t with burstWait := true })).modLeave (fun l => { l with
           arriving := l.arriving ++ [{ who := .burst, cost := field reg 0 12, prio := field reg 12 2
                                        duration := field reg 14 18, timeout := 1000 * l.defTimeout
                                        at_ := s.coreNs }] }))) ∧
     (∀ k, answersLike (exec (.checkWordReadback k) s) (s.modTide (fun t => { t with
       checkAddr := k % 8192, checkValid := false, checkAsked := true }))) ∧
     (s.tide.checkAsked = true → s.forcedFull 12 = false →
       answersLike (exec .checkWordReady s) (s.modTide (fun t => { t with
         checkAsked := false, checkValid := true, checkWord := (s.frame t.checkAddr).check }))) ∧
     (s.behind = [] → s.outstanding .keeper = false →
       let read := fun (a : Nat) => exec (.rcFieldRead .keeper (0x8000000 + a)) s
       answersLike (read 0x8010) (s.modTide (fun t => { t with corrected := 0 })) ∧
       answersLike (read 0x8014) (s.modTide (fun t => { t with uncorrectable := 0 })) ∧
       answersLike (read 0x8018) (s.modTide (fun t => { t with mismatch := 0 })) ∧
       answersLike (read 0x10010) (s.modLeave (fun l => { l with peak := 0 })) ∧
       answersLike (read 0x10020) (s.modLeave (fun l => { l with denials := 0 })) ∧
       answersLike (read 0x10024) (s.modLeave (fun l => { l with timeouts := 0 }))) ∧
     (∀ v : Word, s.mode.mode = .test → s.ptu.injIndex < 8064 → bitAt v.toNat 5 = false →
       (∀ i, frameIsland s.ptu.injIndex = some i → (s.isl i).loadState ≠ .open ∧ s.repairOn i = false) →
       answersLike (exec (.checkWordInject v) s)
         ((s.modPtu (fun u => { u with injResult := 1 })).setFrame s.ptu.injIndex
           { s.frame s.ptu.injIndex with check :=
               (s.frame s.ptu.injIndex).check ^^^ BitVec.ofNat 32 (2 ^ field v.toNat 0 5) })))

/-- R192, R30, R31 T8: a sweep that finds an uncorrectable frame in an island seals and quarantines it,
queues its repair, sets bit 0 of SUP_FAULT_STATUS, and in RUN starts T8. No frame and no other
island changes.
Completes: tideSlot. -/
def Obligations.Quarantines : Prop :=
  ∀ (i : Nat) (s : State), s.settled = true → s.leave.queue = [] → s.tide.enabled = true →
    s.mode.mode = .run → s.mode.trans = none → s.tide.now = none → s.tide.burst = false →
    frameIsland s.tide.position = some i → (s.isl i).quarantined = false → (s.isl i).loadState ≠ .open →
    (s.findingOf s.tide.position).2.passes = false →
    ∃ t, exec .tideSlot s = .next t ∧
      (t.isl i).sealed = true ∧ (t.isl i).quarantine = true ∧ (t.isl i).quarantined = true ∧
      (t.isl i).qcount = min 15 ((s.isl i).qcount + 1) ∧ (t.isl i).repair = 1 ∧
      t.tide.queue = s.tide.queue ++ [(.island i, s.tide.position)] ∧
      t.mode.trans = some { id := 8, target := .degraded } ∧ t.log.faultStatus.getLsbD 0 = true ∧
      t.frames = s.frames ∧ (∀ j, j ≠ i → t.isl j = s.isl j)

/-- R193 to R195, R197: the repair that waits longest starts: at the first device with a read of the
flash, elsewhere with a REPAIR_REQ. An island whose frames were replaced is not repaired, and
neither is one quarantined for the third time within 60 s: its repair ends with REPEAT, and
QUARANTINE_REPEAT is logged with REPAIR_FAILED. The golden frame is written, data and check word,
and the re-check follows; a copy that cannot be read, a frame that cannot be written and an answer
that does not come end the repair with their results. A read waits for a flash operation that cannot
be suspended (R165), and while the device wakes (R37).
R192 step 5, R195, R196: a re-check that finds every frame clean ends the repair. With KEEP the
quarantine ends and the island stays sealed; without it, and with another seal reason, the same but for
COMMAND; else it asks for its release. Where the last quarantine ends so in DEGRADED and no unit is
retired, T9 starts (R30, R31).
Completes: repairStart, goldenFrameRead, repairAnswerTimeout, recheckComplete.
Where it rests on the model's choices: log entries 16, 20, 54, 61. -/
def Obligations.Repairs : Prop :=
  (∀ (i : IslandId) (n : Nat) (s : State), s.settled = true →
     (s.inRun = true → s.mode.trans = none → s.tide.now = none → s.tide.rechecks = [] →
       ∀ rest, s.tide.queue = (.island i, n) :: rest →
       (∀ last middle first more, (s.isl i).qtimes = last :: middle :: first :: more →
         last - first < 60000000000 →
         let told := (s.modTide (fun t => { t with queue := rest })).modIsl i (fun x => { x with repair := 7 })
         answersLike (exec .repairStart s) told ∧
           exec .repairStart s = answer
             (((told.event 0x0306 2 (scopeO (s.islandOwner i)) [(1, i), (1, 0), (2, faddrOf n), (1, 7)]).tideNotice).event
               0x0309 2 (scopeO (s.islandOwner i)) [(1, i), (1, 0), (2, faddrOf n), (1, (s.isl i).qcount)])) ∧
       ((s.isl i).repeats = false → (s.isl i).replaced = false → s.mode.chainFirst = true →
         answersLike (exec .repairStart s) (s.modTide (fun t => { t with
           queue := rest, now := some { job := .island i, frame := n, first := n } }))) ∧
       ((s.isl i).repeats = false → (s.isl i).replaced = false → s.mode.chainFirst = false →
         answersLike (exec .repairStart s) ((s.modTide (fun t => { t with
             queue := rest, now := some { job := .island i, frame := n, first := n, phase := .answer } })).modChain
           (fun c => { c with seqUp := (c.seqUp + 1) % 256 }))) ∧
       ((s.isl i).repeats = false → (s.isl i).replaced = true →
         answersLike (exec .repairStart s)
           ((s.modTide (fun t => { t with queue := rest })).modIsl i (fun x => { x with repair := 3 })))) ∧
     (∀ r, s.tide.now = some r → r.job = .island i →
       let ended := fun (result : Nat) =>
         (s.modTide (fun t => { t with now := none })).modIsl i (fun x => { x with repair := result })
       (s.flash.holdsRead = true ∨ s.mode.mode = .wake → ∀ f,
         answersLike (exec (.goldenFrameRead f) s) s) ∧
       (r.phase = .golden → s.mode.mode.executes = true → s.flash.holdsRead = false →
         s.forcedFull 11 = false → s.forcedFull 14 = false →
         (s.goldenFrame s.ldr.chainIndex r.frame = .lost ∨
           (∃ d c, s.goldenFrame s.ldr.chainIndex r.frame = .corrupt d c) → ∀ f,
           answersLike (exec (.goldenFrameRead f) s) (ended 4)) ∧
         (s.goldenFrame s.ldr.chainIndex r.frame = .absent →
           ∃ t, exec (.goldenFrameRead true) s = .next t ∧ t.tide.now = none ∧ (t.isl i).repair = 6 ∧
             (∀ m, m ≠ r.frame → t.frame m = s.frame m)) ∧
         (∀ data, s.goldenFrame s.ldr.chainIndex r.frame = .record data →
           ∃ t, exec (.goldenFrameRead false) s = .next t ∧
             (t.frame r.frame).data = data ∧ (t.frame r.frame).check = checkWord (faddrOf r.frame) data ∧
             (∀ m, m ≠ r.frame → t.frame m = s.frame m) ∧
             t.tide.now = some { r with rewritten := r.rewritten + 1, phase := .recheck })) ∧
       (r.phase = .answer → answersLike (exec .repairAnswerTimeout s) (ended 5)))) ∧
  (∀ (i : IslandId) (r : Repair) (s : State), s.settled = true → s.mode.mode.executes = true →
     s.mode.trans = none →
     s.tide.now = some r → r.job = .island i → r.phase = .recheck → r.afterLoad = false → r.place ≤ 167 →
     (∀ k, r.place ≤ k → k < 168 → (s.findingOf (168 * i + k)).2 = .clean) →
     let ended := fun (t : State) => t.tide.now = none ∧ (t.isl i).repair = 2 ∧
       (t.isl i).quarantine = false ∧ (t.isl i).quarantined = false ∧ t.frames = s.frames ∧
       t.mode.trans = if s.mode.mode = .degraded ∧ t.anyQuarantine = false ∧ t.unitRetired = false
         then some { id := 9, target := .run } else none
     ((s.isl i).keep = true →
       ∃ t, exec .recheckComplete s = .next t ∧ ended t ∧ (t.isl i).command = true) ∧
     ((s.isl i).keep = false → (s.isl i).quarantine = true → (s.isl i).quarantined = true →
       (s.isl i).command = true ∨ (s.isl i).load = true ∨ (s.isl i).flr = true ∨ (s.isl i).hold = true →
       ∃ t, exec .recheckComplete s = .next t ∧ ended t ∧ (t.isl i).command = (s.isl i).command ∧
         (t.isl i).load = (s.isl i).load ∧ (t.isl i).flr = (s.isl i).flr ∧ (t.isl i).hold = (s.isl i).hold ∧
         (t.isl i).release = (s.isl i).release) ∧
     ((s.isl i).keep = false → (s.isl i).quarantine = true → (s.isl i).command = false →
       (s.isl i).load = false → (s.isl i).flr = false → (s.isl i).hold = false → (s.isl i).release = none →
       ∃ t, exec .recheckComplete s = .next t ∧ t.tide.now = none ∧ (t.isl i).repair = 2 ∧
         (t.isl i).healed = true ∧ (t.isl i).sealed = true ∧
         (t.isl i).release = some { mech := .repairEnd } ∧
         t.leave.arriving.length = s.leave.arriving.length + 1 ∧ t.frames = s.frames))

/-- R149, R154, R194: the first device answers another device's request from the flash with the record
its section holds, or with NONE, and a device takes the answer to its own: a record whose CRC is
good is written, an answer of no record is a frame of zeros, and a write that fails its test twice
ends the repair with VERIFY_FAILED. A record whose CRC is bad ends it with BAD_GOLDEN, a framing
error, an overflow of X16 among them (R148), with NO_ANSWER, and no frame changes. A record whose
CRC fails is sent as it stands; where the section cannot be read or followed no answer is sent (the
model's choice, log 16).
Completes: chainRepairAnswer, chainRepairData.
Where it rests on the model's choices: log entries 16, 54. -/
def Obligations.RepairTraffic : Prop :=
  ∀ (frame : List Word) (r : Repair) (s : State), s.settled = true → s.tide.now = some r →
    let free := s.modTide (fun t => { t with now := none })
    (∀ a k, r.job = .chain a k → s.flash.holdsRead = false → s.forcedFull 14 = false →
      answersLike (exec (.chainRepairAnswer true) s) free ∧
      (s.goldenFrame k r.frame = .lost → answersLike (exec (.chainRepairAnswer false) s) free) ∧
      (∀ (data : BitVec 2048) (crc : Word), s.goldenFrame k r.frame = .corrupt data crc → s.chain.credits = 0 →
        answersLike (exec (.chainRepairAnswer false) s) (free.modChain (fun c => { c with
          txq := c.txq ++ [(6, 0, reg32 [place a 0 16, place k 16 3] :: natWords 64 data.toNat ++ [crc])] }))) ∧
      (∀ data : BitVec 2048, s.goldenFrame k r.frame = .record data → s.chain.credits = 0 →
        let words := natWords 64 data.toNat
        answersLike (exec (.chainRepairAnswer false) s) (free.modChain (fun c => { c with
          txq := c.txq ++ [(6, 0, reg32 [place a 0 16, place k 16 3] :: words ++ [recordCrc a words])] }))) ∧
      (∀ data : BitVec 2048, s.goldenFrame k r.frame = .record data → s.mode.chainFirst = true →
        s.chain.credits ≠ 0 → s.chain.txq = [] →
        answersLike (exec (.chainRepairAnswer false) s) (free.modChain (fun c => { c with
          credits := c.credits - 1, seqDown := (c.seqDown + 1) % 256 }))) ∧
      (s.goldenFrame k r.frame = .absent → s.chain.credits = 0 →
        let zeros := List.replicate 64 (0 : Word)
        answersLike (exec (.chainRepairAnswer false) s) (free.modChain (fun c => { c with
          txq := c.txq ++ [(6, 0,
            reg32 [place a 0 16, place k 16 3, 2 ^ 19] :: zeros ++ [recordCrc a zeros])] })))) ∧
    (∀ i : IslandId, r.job = .island i → r.phase = .answer → s.inRun = true → s.mode.chainFirst = false →
      let p := framePayload frame
      let v := wordAt p 0
      let words := (p.drop 1).take 64
      let good := field v 0 16 = faddrOf r.frame ∧ field v 16 3 = s.ldr.chainIndex ∧ frameType frame = 6 ∧
        frameError true s.chain.rxUp frame false = none
      let writes := fun (data : BitVec 2048) =>
        (∃ t, exec (.chainRepairData frame false false) s = .next t ∧
          (t.frame r.frame).data = data ∧ (t.frame r.frame).check = checkWord (faddrOf r.frame) data ∧
          (∀ m, m ≠ r.frame → t.frame m = s.frame m) ∧
          t.tide.now = some { r with rewritten := r.rewritten + 1, phase := .recheck } ∧
          t.chain.rxUp = (s.chain.rxUp + 1) % 256) ∧
        (∃ t, exec (.chainRepairData frame false true) s = .next t ∧ t.tide.now = none ∧
          (t.isl i).repair = 6 ∧ (∀ m, m ≠ r.frame → t.frame m = s.frame m) ∧
          t.chain.rxUp = (s.chain.rxUp + 1) % 256)
      let ends := fun (overflow : Bool) (result : Nat) => ∀ failed,
        ∃ t, exec (.chainRepairData frame overflow failed) s = .next t ∧ t.tide.now = none ∧
          (t.isl i).repair = result ∧ t.frames = s.frames ∧ t.chain.rxUp = (s.chain.rxUp + 1) % 256
      (good → bitAt v 19 = true → writes 0) ∧
      (good → bitAt v 19 = false → recordCrc (field v 0 16) words = p.getD 65 0 →
        writes (BitVec.ofNat 2048 (wordsNat words))) ∧
      (good → bitAt v 19 = false → recordCrc (field v 0 16) words ≠ p.getD 65 0 → ends false 4) ∧
      (∀ overflow, (frameError true s.chain.rxUp frame overflow).isSome = true → ends overflow 5))

/-- R178, R179, R181, R182, R220: a release, its leave granted, reaches its end where every reason of
the island is one that its mechanism clears: LOAD for a completed load, an ended quarantine for a
repair, any of the five for an ISLAND_RELEASE of the owner or the supervisor. The island leaves the
seal with its registers at INIT and load state NONE, its quarantine ends, its bank is enabled where
it is present, and the leases of both are held for DURATION from here on (R479). The instructions
that wait for it end with status OK. Where the last quarantine ends so in DEGRADED and no unit is
retired, T9 starts (R30, R31). While the fabric is frozen it waits.
Completes: islandReleaseDone.
Where it rests on the model's choices: log entry 19. -/
def Obligations.ReleaseEnds : Prop :=
  ∀ (i : IslandId) (rel : Release) (s : State), s.settled = true → s.leave.queue = [] → s.inRun = true →
    s.mode.trans = none → (s.isl i).release = some rel → rel.granted = true →
    let x := s.isl i
    (s.mode.frozen = true → answersLike (exec (.islandReleaseDone i) s) s) ∧
    (s.mode.frozen = false → x.loadState = .none ∨ x.loadState = .complete →
      (x.load = true → s.fullLoading = false) → (x.quarantine = true → x.healed = true) →
      (∀ r ∈ rel.rings, ownedBy (s.islandOwner i) (ringTenant r) = true) →
      (rel.mech = .loadDone ∧ x.command = false ∧ x.flr = false ∧ x.hold = false ∧ x.quarantine = false) ∨
        (rel.mech = .repairEnd ∧ x.command = false ∧ x.flr = false ∧ x.hold = false ∧ x.load = false) ∨
        (rel.mech = .instruction ∧ rel.rings ≠ []) →
      ∃ t, exec (.islandReleaseDone i) s = .next t ∧ (t.isl i).sealed = false ∧
        (t.isl i).loadState = .none ∧ (t.isl i).release = none ∧ (t.isl i).user = s.initBits i ∧
        (t.isl i).quarantined = false ∧
        (∀ r ∈ rel.rings, r < 32 → (t.thr r).wait = .none ∧
          ∀ c, (t.thr r).cur = some c → c.reply = some (0, 0)) ∧
        t.mode.mode = s.mode.mode ∧
        t.mode.trans = (if s.mode.mode = .degraded ∧ t.anyQuarantine = false ∧ t.unitRetired = false
          then some { id := 9, target := .run } else none) ∧
        (t.isl i).leaveDenied = false ∧ (t.isl i).portsStopped = false ∧
        (s.bankPresent i = true → (t.bank i).enabled = true) ∧
        (s.bankPresent i = false → t.bank i = s.bank i) ∧
        (∀ z ∈ t.leave.leases, isRelease i z.who = true ∨ (s.bankPresent i = true ∧ z.who = .bank i) →
          z.ending = true) ∧
        (∀ j, j ≠ i.val → t.isl j = s.isl j) ∧ t.frames = s.frames)

/-- R219, R220: a sample of a bank's supply. Eight samples inside the declared window make an absent
bank present, and it asks for its leave where ferries execute; four outside make a present one
absent. A bank whose BANK_VCCO names no supply is never present, and its samples count from none
again. A refused request is made again; a bank whose lease is held is enabled under it, which is
then held for DURATION (R479, R483). Whether a supply below 1.0 V still counts as valid for the
pre-load pull (R528) is free.
Completes: vccoSample, bankEnableRetry.
Where it rests on the model's choices: log entries 45, 57, 60. -/
def Obligations.BankSamples : Prop :=
  ∀ (b : IslandId) (c : Fin 7) (s : State), s.settled = true → s.mode.mode ≠ .reset →
    let w := s.bank b
    let x : Bank := { w with cls := c, valid := decide (c.val ≠ 0) || (w.valid && Config.vccoHolds s.coreNs b) }
    let reg := s.leave.kindReg 2
    let ask : LeaveReq :=
      { who := .bank b, cost := field reg 0 12, prio := field reg 12 2, duration := field reg 14 18
        timeout := 1000 * s.leave.defTimeout, at_ := s.coreNs }
    let gives := fun (cmd : Instr) (y : Bank) (asks : List LeaveReq) =>
      ∃ t, exec cmd s = .next t ∧ t.bank b = y ∧ (∀ k, k ≠ b.val → t.bank k = s.bank k) ∧
        t.leave.arriving = s.leave.arriving ++ asks ∧ t.islands = s.islands ∧ t.frames = s.frames ∧
        t.ports = s.ports ∧ t.rings = s.rings ∧ t.threads = s.threads
    let held := fun (cmd : Instr) (y : Bank) =>
      ∃ t, exec cmd s = .next t ∧ t.bank b = { y with enabled := true, retry := false } ∧
        (∀ k, k ≠ b.val → t.bank k = s.bank k) ∧ t.leave.arriving = s.leave.arriving ∧
        t.leave.leases = s.leave.leases.map (fun z => if z.who = .bank b then { z with ending := true } else z) ∧
        t.islands = s.islands ∧ t.frames = s.frames
    let now := fun (y : Bank) => gives (.vccoSample b c) y []
    let absent := fun (loss : Bool) => ∃ t, exec (.vccoSample b c) s = .next t ∧
      t.bank b = { cls := c.val, valid := x.valid } ∧ (∀ k, k ≠ b.val → t.bank k = s.bank k) ∧
      t.frames = s.frames ∧ t.rings = s.rings ∧ (loss = true → t.log.faultStatus.getLsbD 7 = true)
    (s.bankVcco b = 0 ∨ 6 ≤ s.bankVcco b → s.leave.queue = [] → absent false) ∧
    (1 ≤ s.bankVcco b → s.bankVcco b ≤ 5 →
      (w.present = true → s.bankVcco b = c.val → now { x with outRow := 0 }) ∧
      (w.present = true → s.bankVcco b ≠ c.val → w.outRow < 3 → now { x with outRow := x.outRow + 1 }) ∧
      (w.present = true → s.bankVcco b ≠ c.val → 3 ≤ w.outRow → s.leave.queue = [] → absent w.enabled) ∧
      (w.present = false → s.bankVcco b ≠ c.val → now { x with inRow := 0 }) ∧
      (w.present = false → s.bankVcco b = c.val → w.inRow < 7 → now { x with inRow := x.inRow + 1 }) ∧
      (w.present = false → s.bankVcco b = c.val → 7 ≤ w.inRow → s.mode.mode.executes = false →
        now { x with present := true, inRow := 0, outRow := 0 }) ∧
      (w.present = false → s.bankVcco b = c.val → 7 ≤ w.inRow → s.mode.mode.executes = true →
        w.enabled = false → w.asking = false →
        let found := { x with present := true, inRow := 0, outRow := 0 }
        (s.bankLease b = false → gives (.vccoSample b c) { found with asking := true, retry := false } [ask]) ∧
        (s.bankLease b = true → s.executing = true → held (.vccoSample b c) found))) ∧
    (w.retry = true → s.bankPresent b = true → w.enabled = false → w.asking = false →
      s.mode.mode.executes = true →
      (s.bankLease b = false → gives (.bankEnableRetry b) { w with asking := true, retry := false } [ask]) ∧
      (s.bankLease b = true → s.executing = true → held (.bankEnableRetry b) w))

/-! ## Power leave and the monitors (17) -/

/-- R478 to R481, R483: the request of an island's leave port arrives, no other waiting. Where it could
never pass it is denied; where the checks of R478 hold a lease is taken under a handle that no other
lease has; else it waits. A request whose timeout has passed is denied too.
R477, R479, R480, R484, R523: with no request waiting, leases leave their transient and end at their
times, the oldest wake's lease after its wake, and BUDGET and FLOOR take the values in range. A request
that the test unit held back, and that may not pass yet, goes on waiting.
Completes: leaveRequest, leaveRequestTimeout, leaseTransientEnd, leaseEnd, wakeLeaseRelease,
leaveBudgetWrite, leaveFloorWrite, leaveDelayEnd.
Where it rests on the model's choices: log entries 17, 18. -/
def Obligations.Leases : Prop :=
  (∀ (i : IslandId) (q : LeaveReq) (s : State), s.settled = true → s.inRun = true → q.who = .island i →
     q.cost ≠ 0 →
     let denied := fun (s : State) => s.modIsl i (fun x => { x with leave := { x.leave with denied := true } })
     (s.leave.queue = [] → s.leave.arriving = [q] →
       let q' : LeaveReq := { q with at_ := s.coreNs, held := false }
       (s.leave.budget < s.leave.floor + q.cost →
         answersLike (exec .leaveRequest s) (denied (s.modLeave (fun l => { l with
           arriving := [], denials := min 0xFFFFFFFF (l.denials + 1) })))) ∧
       (s.leave.floor + s.leave.reserved + q.cost ≤ s.leave.budget →
         s.leave.measured + s.leave.inTransient + q.cost ≤ s.leave.budget → s.leave.overBudget = false →
         s.leave.leases.length < 256 → s.leave.warnStop = false →
         ∃ t x, exec .leaveRequest s = .next t ∧ t.leave.leases = s.leave.leases ++ [x] ∧
           x.who = .island i ∧ x.cost = q.cost ∧ x.transient = true ∧ x.handle ≠ 0 ∧ x.handle < 65536 ∧
           (∀ y ∈ s.leave.leases, y.handle ≠ x.handle) ∧ t.leave.queue = [] ∧ t.leave.arriving = [] ∧
           (t.isl i).leave.granted = true ∧ (∀ j, j ≠ i.val → t.isl j = s.isl j)) ∧
       (s.leave.floor + q.cost ≤ s.leave.budget → s.admits q.cost = false →
         answersLike (exec .leaveRequest s) (s.modLeave (fun l => { l with arriving := [], queue := [q'] })))) ∧
     (s.leave.queue = [q] →
       answersLike (exec (.leaveRequestTimeout (.island i)) s) (denied (s.modLeave (fun l => { l with
         queue := [], timeouts := min 0xFFFFFFFF (l.timeouts + 1) }))))) ∧
  (∀ (h : Nat) (v : Word) (s : State), s.settled = true → s.mode.unlock = false →
     (s.leave.queue = [] →
       answersLike (exec (.leaseTransientEnd h) s) (s.modLeave (fun l => { l with
         leases := l.leases.map (fun x =>
           if x.handle = h ∧ x.forever = false ∧ x.who.kind ≠ 1 ∧ x.who.kind ≠ 2
           then { x with transient := false } else x) })) ∧
       (s.leave.leases.any (fun x => x.handle == h && x.ending) = true →
         answersLike (exec (.leaseEnd h) s) (s.modLeave (fun l => { l with
           leases := l.leases.filter (fun x => x.handle != h) }))) ∧
       (let wakes := s.leave.leases.filter (fun x => x.who == .wake)
        (s.mode.mode ≠ .wake ∨ 2 ≤ wakes.length →
          answersLike (exec .wakeLeaseRelease s) (s.modLeave (fun l => { l with
            leases := l.leases.filter (fun x => wakes.head?.all (fun y => x.handle != y.handle)) }))) ∧
        (s.mode.mode = .wake → wakes.length ≤ 1 → answersLike (exec .wakeLeaseRelease s) s)) ∧
       (s.mode.mode ≠ .reset → s.x1Holds = false →
         answersLike (exec (.leaveBudgetWrite v) s)
           (if 100 ≤ v.toNat % 4096 ∧ v.toNat % 4096 ≤ 4000 then
             s.modLeave (fun l => { l with budget := v.toNat % 4096 }) else s) ∧
         answersLike (exec (.leaveFloorWrite v) s)
           (if v.toNat % 4096 ≤ 4000 then s.modLeave (fun l => { l with floor := v.toNat % 4096 }) else s))) ∧
     (∀ q, s.leave.queue = [q] → q.held = true → q.cost ≠ 0 → s.admits q.cost = false →
       answersLike (exec (.leaveDelayEnd q.who) s)
         (s.modLeave (fun l => { l with queue := [{ q with held := false }] }))))

/-- R486 to R488: samples of the current and of the thermal sensors. MEASURED is the highest of the last
ten samples; the third in a row above BUDGET begins the over-budget state, and the hundredth in a
row at BUDGET - 100 or below ends it; the third in a row above 4,000 sets ABS_LIMIT. Sensors that
agree give the junction temperature; the tenth sample in a row at the threshold sets WARN, the
hundredth in a row 5 degrees below it clears WARN, and the second in a row at 125 degrees, that one
alone, is HOLD cause 7. A sensor more than 15 degrees off the median of the others and itself is
excluded; with fewer than four left the temperature is taken as 125 degrees.
Completes: currentSample, thermalSample.
Where it rests on the model's choices: log entry 37. -/
def Obligations.Monitors : Prop :=
  ∀ s : State, s.settled = true → s.mode.mode ≠ .reset → s.leave.queue = [] →
    (∀ units : Nat,
      let l := s.leave
      let abs := if 4000 < units then min 4 (l.absRun + 1) else 0
      let run := if l.budget < units then min 3 (l.overRun + 1) else 0
      let gives := fun (f : Leave → Leave) (bits : BitVec 12) =>
        answersLike (exec (.currentSample units) s)
          ((s.modLeave (fun l => f { l with
              samples := (units :: l.samples).take 10, measured := ((units :: l.samples).take 10).foldl max 0
              peak := max l.peak units, absRun := abs })).modLog (fun l => { l with
            faultStatus := l.faultStatus ||| bits ||| (if abs = 3 then 0x20 else 0) }))
      (l.overBudget = false →
        (units ≤ l.budget → gives (fun l => { l with overRun := 0, okRun := 0 }) 0) ∧
        (l.budget < units → l.overRun < 2 →
          gives (fun l => { l with overRun := l.overRun + 1, okRun := 0 }) 0) ∧
        (l.budget < units → 2 ≤ l.overRun →
          gives (fun l => { l with overRun := 3, okRun := 0, overBudget := true, overSince := s.coreNs }) 0x10)) ∧
      (l.overBudget = true →
        (l.budget - 100 < units → gives (fun l => { l with overRun := run, okRun := 0 }) 0) ∧
        (units ≤ l.budget - 100 → l.okRun < 99 →
          gives (fun l => { l with overRun := run, okRun := l.okRun + 1 }) 0) ∧
        (units ≤ l.budget - 100 → 99 ≤ l.okRun →
          gives (fun l => { l with overRun := run, okRun := 0, overBudget := false }) 0))) ∧
    (∀ j : Int, s.leave.temp.excluded = 0 →
      let sensors := List.replicate 8 j
      let seen := fun (f : Thermal → Thermal) => s.modLeave (fun l => { l with
        temp := f { l.temp with max := wrapInt 12 j, sensor := 0, junction := j } })
      (j < 4 * (s.leave.warnTh : Int) → j < 500 → s.leave.temp.warn = false →
        answersLike (exec (.thermalSample sensors) s)
          (seen (fun x => { x with warnRun := 0, coolRun := 0, critRun := 0 }))) ∧
      (4 * (s.leave.warnTh : Int) ≤ j → j < 500 → s.leave.temp.warn = false → s.leave.temp.warnRun < 9 →
        answersLike (exec (.thermalSample sensors) s)
          (seen (fun x => { x with warnRun := x.warnRun + 1, coolRun := 0, critRun := 0 }))) ∧
      (j < 500 → s.leave.temp.warn = true →
        let cool := 4 * ((s.leave.warnTh : Int) - 5)
        (cool ≤ j → answersLike (exec (.thermalSample sensors) s)
          (seen (fun x => { x with warnRun := 0, coolRun := 0, critRun := 0 }))) ∧
        (j < cool → s.leave.temp.coolRun < 99 → answersLike (exec (.thermalSample sensors) s)
          (seen (fun x => { x with warnRun := 0, coolRun := x.coolRun + 1, critRun := 0 }))) ∧
        (j < cool → 99 ≤ s.leave.temp.coolRun → answersLike (exec (.thermalSample sensors) s)
          (seen (fun x => { x with warn := false, warnRun := 0, coolRun := 0, critRun := 0 })))) ∧
      (500 ≤ j → s.leave.temp.critRun ≠ 1 →
        ∃ t, exec (.thermalSample sensors) s = .next t ∧ t.mode.trans = s.mode.trans ∧
          t.mode.holdCause = s.mode.holdCause ∧ t.leave.temp.junction = j ∧
          t.leave.temp.critRun = min 3 (s.leave.temp.critRun + 1)) ∧
      (4 * (s.leave.warnTh : Int) ≤ j → j < 500 → s.leave.temp.warn = false → s.leave.temp.warnRun = 9 →
        answersLike (exec (.thermalSample sensors) s)
          ((seen (fun x => { x with warn := true, warnRun := 0, coolRun := 0, critRun := 0 })).modLog
            (fun l => { l with faultStatus := l.faultStatus ||| 0x40 }))) ∧
      (500 ≤ j → s.leave.temp.critRun = 1 → s.mode.mode = .run → s.mode.trans = none →
        ∃ t, exec (.thermalSample sensors) s = .next t ∧
          t.mode.trans = some { id := 16, target := .hold } ∧ t.mode.holdCause = 7 ∧
          t.leave.temp.junction = j)) ∧
    (∀ (k : Fin 8) (j d : Int), s.leave.temp.excluded = 0 →
      ∃ t, exec (.thermalSample ((List.replicate 8 j).set k (j + d))) s = .next t ∧
        (60 < d ∨ d < -60 →
          t.leave.temp.excluded = BitVec.ofNat 8 (2 ^ k.val) ∧ t.leave.temp.junction = j) ∧
        (-60 ≤ d → d ≤ 60 → t.leave.temp.excluded = 0 ∧ t.leave.temp.junction = max j (j + d))) ∧
    (∀ sensors : List Int, ((List.range 8).filter (fun k => !s.leave.temp.excluded.getLsbD k)).length < 4 →
      ∃ t, exec (.thermalSample sensors) s = .next t ∧ t.leave.temp.junction = 500)

/-! ## The logbook and the test unit (18, 19) -/

/-- R492, R493, R46: the event of a refused command becomes one entry, at the slot of its sequence
number, with the fields of R492; the number of the next entry is one more.
R32, R506: the end of a transition writes MODE_CHANGE, the first entry of its step, with both modes, the
transition's number and the cause of HOLD; one to HOLD has severity 3.
R499, R501, R504, R509: a search begins at the entry written, and ends at the first entry from there
that its tenant sees; LOG_ACK moves forward to an entry written; SUP_FAULT_STATUS bits are cleared by 1
where their condition has ended.
Completes: transitionComplete, logSearch, logSearchDone, logAckWrite, faultStatusWrite.
Where it rests on the model's choices: log entry 8. -/
def Obligations.Logbook : Prop :=
  (∀ (x : Trans) (s : State), s.settled = true → s.leave.queue = [] → s.mode.trans = some x →
     (6 ≤ x.id ∧ x.id ≤ 11) ∨ x.id = 14 ∨ (x.id = 16 ∧ s.mode.mode ≠ .test) →
     x.target ≠ .reset → x.target ≠ .load → x.target ≠ .wake →
     s.log.policy = false → s.log.lost = 0 →
     ∃ t, exec .transitionComplete s = .next t ∧
       tabGet (fun _ => none) t.log.slots (s.log.next % 4096) = some
         { time := s.shadow, seq := s.log.next, code := 0x0101, sev := if x.target = .hold then 3 else 0
           tenant := 0xFF
           payload := [BitVec.ofNat 8 s.mode.mode.code, BitVec.ofNat 8 x.target.code, BitVec.ofNat 8 x.id,
             BitVec.ofNat 8 s.mode.holdCause, 0, 0, 0, 0, 0, 0, 0, 0]
           epoch := s.shadowEpoch, born := s.coreNs }) ∧
  (∀ s : State, s.settled = true → s.shows = true → s.mode.mode = .run → s.mode.trans = none →
     s.x1Holds = false → s.mode.unlock = false → s.log.policy = false → s.log.recent = [] → s.log.lost = 0 →
     ∃ t, exec .leaveTest s = .next t ∧
       t.log.next = (s.log.next + 1) % 2 ^ 32 ∧
       tabGet (fun _ => none) t.log.slots (s.log.next % 4096) = some
         { time := s.shadow, seq := s.log.next, code := 0x0102, sev := 1, tenant := 0xFE
           payload := [3, 3, 3, 0, 0, 0, 0, 0, 0, 0, 0, 0], epoch := s.shadowEpoch, born := s.coreNs } ∧
       (∀ k, k ≠ s.log.next % 4096 →
         tabGet (fun _ => none) t.log.slots k = tabGet (fun _ => none) s.log.slots k)) ∧
  (∀ (q : TenantId) (v : Word) (s : State), s.settled = true → s.mode.mode ≠ .reset → s.mode.unlock = false →
     (s.reachable q = true → 2 ^ 31 ≤ dist32 v.toNat s.log.next → dist32 s.log.next v.toNat ≤ s.log.kept →
       answersLike (exec (.logSearch q v) s) (s.modView q (fun x => { x with
         find := v.toNat, done := false, found := false, skipped := false, searching := true
         from_ := v.toNat, span := dist32 s.log.next v.toNat }))) ∧
     ((s.view q).searching = true →
       let start := (s.view q).from_
       let seen := fun (k : Nat) (e : LogEntry) =>
         s.log.at_ ((start + k) % 2 ^ 32) = some e ∧ e.seq = (start + k) % 2 ^ 32 ∧ e.shows q = true
       (∀ k e, k < (s.view q).span → seen k e → (∀ j e', j < k → ¬ seen j e') →
         answersLike (exec (.logSearchDone q) s) (s.modView q (fun x => { x with
           done := true, found := true, searching := false, entry := e.words }))) ∧
       ((∀ k e, k < (s.view q).span → ¬ seen k e) →
         answersLike (exec (.logSearchDone q) s) (s.modView q (fun x => { x with
           done := true, found := false, searching := false })))) ∧
     (s.x1Holds = false →
       answersLike (exec (.logAckWrite v) s)
       (if dist32 v.toNat s.log.ack ≤ dist32 s.log.next s.log.ack
        then s.modLog (fun l => { l with ack := v.toNat }) else s) ∧
       ∃ t, exec (.faultStatusWrite v) s = .next t ∧
       ∀ n : Fin 11, t.log.faultStatus.getLsbD n =
         (s.log.faultStatus.getLsbD n && !(bitAt v.toNat n && !s.faultPresent n))))

/-- R520, R522, R524: in TEST the test unit forces a queue, arms a pair fault and slows the timebase; in
the other modes its registers are not written. A crossing that cannot be forced sets REFUSED, and
the fields take what was written.
R428, R524: a cycle of the timebase adds TB_ADDEND to device time, in TEST less what TB_SLOW holds. That
the cycle is what a step with no command waiting is, is the model's choice (log 2).
Completes: queuePressure, pairFaultArm, tbSlowWrite, queuePressureEnd.
Where it rests on the model's choices: log entries 2, 22. -/
def Obligations.TestControls : Prop :=
  (∀ s : State, s.settled = true → s.mode.mode ≠ .reset → s.pending = [] → s.behind = [] →
    let slow := if s.mode.mode = .test then s.ptu.tbSlow else 0
    let now := (s.tb.sec * 1000000000 + s.tb.nsec) * 2 ^ 28 + s.tb.frac + s.tb.addend - slow
    slow ≤ s.tb.addend → now < 2 ^ 48 * 1000000000 * 2 ^ 28 →
    ∃ t, step s = .next t ∧ (t.tb.sec * 1000000000 + t.tb.nsec) * 2 ^ 28 + t.tb.frac = now ∧
      t.tb.nsec < 1000000000 ∧ t.tb.frac < 2 ^ 28 ∧ t.coreNs = s.coreNs + 4) ∧
  ∀ (v : Word) (s : State), s.settled = true → s.mode.mode ≠ .reset → s.mode.unlock = false →
    s.x1Holds = false →
    let n := v.toNat % 32
    let p := v.toNat % 8
    (s.mode.mode ≠ .test →
      answersLike (exec (.queuePressure v) s) s ∧ answersLike (exec (.pairFaultArm v) s) s ∧
      answersLike (exec (.tbSlowWrite v) s) s) ∧
    (s.mode.mode = .test →
      ((∀ r : RingId, (s.thr r).wait = .none) → s.dma.wanted = [] → s.link.cpls = [] → s.jtag.x17 = [] →
        let cycles := v.toNat / 65536
        answersLike (exec (.queuePressure v) s) (s.modPtu (fun u => { u with
          qQueue := if 1 ≤ n ∧ n ≤ 24 then n else u.qQueue
          qPort := if field v.toNat 8 7 < 96 then field v.toNat 8 7 else u.qPort
          qRefused := !forcible n, qCycles := cycles, qSince := if cycles = 0 then 0 else s.coreNs
          qSeen := if (forcible n = true ∨ n = 3 ∨ n = 16 ∨ n = 21) ∧ cycles ≠ 0 then u.qSeen ||| 2 ^ n else u.qSeen }))) ∧
      (s.ptu.pfGo = false →
        answersLike (exec (.pairFaultArm v) s) (s.modPtu (fun u =>
          if (s.pair p).retired then { u with pfPair := p, pfResult := 2 }
          else if s.pairsInService < 3 then { u with pfPair := p, pfResult := 3 }
          else { u with pfPair := p, pfGo := true, pfResult := 0 }))) ∧
      (v.toNat % 2 ^ 21 ≤ 1073742 →
        answersLike (exec (.tbSlowWrite v) s) (s.modPtu (fun u => { u with tbSlow := v.toNat % 2 ^ 21 })))) ∧
    ((∀ r : RingId, (s.thr r).wait = .none) → s.dma.wanted = [] → s.link.cpls = [] → s.jtag.x17 = [] →
      answersLike (exec .queuePressureEnd s)
        (if s.ptu.qCycles = 0 then s else s.modPtu (fun u => { u with qCycles := 0, qSince := 0 })))

/-! ## The timebase (15) -/

/-- R428, R429, R431: TB_ADDEND in its range; a step moves device time by TB_OFFSET and a set gives it
the value set, each with a new step epoch and the sync instants of PSI5 ports moved with it, or is
refused where the result is out of range.
R427, R430, R431: the loss of the reference starts holdover, device time moving by less than 4 ns; a
relock ends it. A second sets every thread's PPS bit, and with no offset starts the pulse; PPS_IN is
stamped and counted; and a read of a low half latches the high half for its requester.
Completes: tbAddendWrite, tbStepCmd, tbSetCmd, tbRefLost, tbRefLocked, ppsOutRise, ppsSecond,
ppsOutPulseEnd, ppsInEdge, tbNowLoRead, tbTodSecLoRead, tbPpsInLoRead.
Where it rests on the model's choices: log entries 41, 58. -/
def Obligations.Timebase : Prop :=
  (∀ (v : Word) (s : State), s.settled = true → s.mode.mode ≠ .reset → s.mode.unlock = false →
     s.x1Holds = false →
     let new := ((s.tb.sec * 1000000000 + s.tb.nsec : Nat) : Int) + signed 64 s.tb.offset
     let refused := s.modTb (fun t => { t with stepRefused := true })
     let moved := fun (now : Nat) (f : Machine.Timebase → Machine.Timebase) =>
       { s.modTb f with ports := s.ports.map (fun e => (e.1, e.2.timeMoved s.tb.ns now)) }
     answersLike (exec (.tbAddendWrite v) s)
       (if 0x3FF7CED9 ≤ v.toNat ∧ v.toNat ≤ 0x40083127
        then s.modTb (fun t => { t with addend := v.toNat }) else s) ∧
     (0 ≤ new → new < 2 ^ 48 * 1000000000 →
       answersLike (exec .tbStepCmd s) (moved new.toNat (fun t => { t with
         sec := new.toNat / 1000000000, nsec := new.toNat % 1000000000
         epoch := (t.epoch + 1) % 65536, stepped := true }))) ∧
     (new < 0 ∨ 2 ^ 48 * 1000000000 ≤ new → answersLike (exec .tbStepCmd s) refused) ∧
     (s.tb.setNsec ≤ 999999999 →
       answersLike (exec .tbSetCmd s) (moved (s.tb.setSec * 1000000000 + s.tb.setNsec) (fun t => { t with
         sec := t.setSec, nsec := t.setNsec, frac := 0, epoch := (t.epoch + 1) % 65536, stepped := true }))) ∧
     (999999999 < s.tb.setNsec → answersLike (exec .tbSetCmd s) refused)) ∧
  (∀ s : State, s.settled = true → s.mode.mode ≠ .reset →
     (s.tb.holdover = false → 1 ≤ s.tb.sec → s.tb.sec < 2 ^ 47 → s.tb.nsec < 1000000000 → s.tb.frac < 2 ^ 28 →
       ∀ f, ∃ t, exec (.tbRefLost f) s = .next t ∧ t.tb.holdover = true ∧ t.tb.refLost = true ∧
         t.log.faultStatus.getLsbD 9 = true ∧ t.tb.epoch = s.tb.epoch ∧
         t.tb.ns < s.tb.ns + 5 ∧ s.tb.ns < t.tb.ns + 5) ∧
     (s.tb.holdover = true → s.tb.ref ≠ 0 →
       answersLike (exec .tbRefLocked s) (s.modTb (fun t => { t with holdover := false }))) ∧
     (s.tb.ppsEn = true → s.tb.ppsWidth ≠ 0 →
       answersLike (exec .ppsOutRise s) (s.modTb (fun t => { t with pulse := true })) ∧
       (∃ t, exec .ppsSecond s = .next t ∧ t.tb.pulse = (decide (s.tb.ppsOffset = 0) || s.tb.pulse) ∧
         (∀ r : RingId, t.thr r = { s.thr r with ppsPend := true }) ∧
         t.rings = s.rings ∧ t.ports = s.ports)) ∧
     answersLike (exec .ppsOutPulseEnd s) (s.modTb (fun t => { t with pulse := false })) ∧
     (∀ x, x < 2 ^ 64 →
       answersLike (exec (.ppsInEdge x) s) (s.modTb (fun t => { t with
         ppsStamp := x, ppsCount := (t.ppsCount + 1) % 2 ^ 32 }))) ∧
     (∀ r : RingId, s.behind = [] → s.outstanding (.ring r) = false →
       let latch := fun (f : TbLatch → TbLatch) => s.modTb (fun t => { t with
         latches := tabMod (fun _ => {}) t.latches r f })
       answersLike (exec (.tbNowLoRead (.ring r)) s)
         (latch (fun l => { l with nowHi := hi32 s.shadow, epoch := s.tb.shEpoch })) ∧
       answersLike (exec (.tbTodSecLoRead (.ring r)) s)
         (latch (fun l => { l with secHi := hi32 s.tb.shSec % 65536, nsec := s.tb.shNsec })) ∧
       answersLike (exec (.tbPpsInLoRead (.ring r)) s) (latch (fun l => { l with ppsHi := hi32 s.tb.ppsStamp }))))

/-! ## Charters and ferry pairs (14) -/

/-- R394 to R397, R6, R244: a charter register takes a write at once as it reads: an owner table each
listed code, a reserved one leaving its field as it was; CHTR_TENANT its WEIGHT but 0, and FLR_SEAL;
a window range its fields. A write that changes nothing is none, like one of CHTR_GEN, of a reserved
offset, or under CHARTER_LOCK. The VALID windows that the new value refuses are refused at once.
R397, R398, R416: the value is in effect with CHARTER_EFFECT, which counts the change. A partner entry
whose owner changes is disarmed, its frames discarded and counted; a VALID one that no longer owns its
port or its segment is cleared with its CHK; a port that becomes unassigned stops; no island's logic and
no seal changes.
Completes: charterWrite, charterEffect.
Where it rests on the model's choices: log entry 47. -/
def Obligations.CharterWrites : Prop :=
  ∀ (k : Nat) (v : Word) (s : State), s.settled = true → s.mode.mode ≠ .reset → s.mode.unlock = false →
    let old := s.charterShown k
    let new := v.toNat
    let writes := fun (fits : Nat → Prop) =>
      ∃ t, exec (.charterWrite (4 * k) v) s = .next t ∧ fits (t.charterShown k) ∧
        (∀ j, j ≠ k → t.charterShown j = s.charterShown j) ∧ t.charter.eff = s.charter.eff ∧
        t.charter.waiting = (if t.charterShown k = old then s.charter.waiting
          else s.charter.waiting ++ [{ off := 4 * k, old := old, new := t.charterShown k }]) ∧
        (∀ (q : TenantId) (n : Fin 64),
          let x := s.win q n
          let why := charterReason t.charterShown q x
          t.win q n = if t.charterShown k ≠ old ∧ x.state = .valid ∧ why ≠ 0
            then { x with state := .refused, reason := why } else x) ∧
        t.frames = s.frames ∧ t.partners = s.partners
    let owners := k < 6 ∨ (8 ≤ k ∧ k < 20) ∨ (32 ≤ k ∧ k < 64) ∨ (1024 ≤ k ∧ k < 1536)
    let ranges := 128 ≤ k ∧ k < 256
    (s.ldr.locks.getLsbD 3 = true → answersLike (exec (.charterWrite (4 * k) v) s) s) ∧
    (∀ off, off % 4 ≠ 0 → answersLike (exec (.charterWrite off v) s) s) ∧
    (s.ldr.locks.getLsbD 3 = false → s.x1Holds = false →
      (owners → writes (fun x => x < 2 ^ 32 ∧ ∀ n : Fin 8, field x (4 * n) 4 =
        if field new (4 * n) 4 = 0 ∨ 8 ≤ field new (4 * n) 4 then field new (4 * n) 4 else field old (4 * n) 4)) ∧
      (∀ q : TenantId, k = 64 + 4 * q.val → writes (fun x => x < 2 ^ 9 ∧ field x 8 1 = field new 8 1 ∧
        field x 0 8 = if field new 0 8 = 0 then field old 0 8 else field new 0 8)) ∧
      (ranges → writes (fun x => x < 2 ^ 32 ∧ field x 12 20 = field new 12 20 ∧ field x 2 10 = 0 ∧
        field x 0 2 = if k % 2 = 0 then field new 0 2 else 0)) ∧
      (¬ owners → ¬ ranges → (∀ q : TenantId, k ≠ 64 + 4 * q.val) →
        answersLike (exec (.charterWrite (4 * k) v) s) s)) ∧
    (∀ w rest, s.charter.waiting = w :: rest →
      ∃ t, exec .charterEffect s = .next t ∧ t.charterEff (w.off / 4) = w.new ∧
        (∀ j, j ≠ w.off / 4 → t.charterEff j = s.charterEff j) ∧ t.charter.waiting = rest ∧
        t.charter.gen = (s.charter.gen + 1) % 2 ^ 32 ∧ t.charter.shown = s.charter.shown ∧
        (∀ q : TenantId, (t.ten q).charterGen =
          if s.charterTouches w q then ((s.ten q).charterGen + 1) % 256 else (s.ten q).charterGen) ∧
        (∀ (m : Fin 512) (n : Fin 8), w.off / 4 = 1024 + m.val →
          field w.old (4 * n) 4 ≠ field w.new (4 * n) 4 →
          let i := 8 * m.val + n.val
          (t.partner i).arm = 0 ∧ (t.partner i).trigger = none ∧ (t.partner i).frames = [] ∧
            (t.partner i).rejected =
              satAdd tallyMax (s.partner i).rejected (s.partner i).frames.length) ∧
        (∀ i, (s.partner i).valid = true →
          let owns := fun (u : Option Nat) => (t.partnerOwner i).any (fun o => ownedBy u o)
          let cleared := fun (chk : Nat) => (t.partner i).valid = false ∧ (t.partner i).chk = chk ∧
            (t.partner i).arm = 0 ∧ (t.partner i).frames = []
          ((s.partner i).port < 96 → owns (t.portOwner (s.partner i).port) = false → cleared 1) ∧
          ((s.partner i).port < 96 → owns (t.portOwner (s.partner i).port) = true →
            owns (t.segOwner (s.partner i).segment) = false → cleared 2)) ∧
        (∀ p : PortId, (s.port p).seen = 4 → t.portOwner p = none →
          (t.port p).seen ≠ 4 ∧ (t.port p).txq = [] ∧ (t.port p).starting = false) ∧
        (∀ i : IslandId, (t.isl i).user = (s.isl i).user ∧ (t.isl i).sealed = (s.isl i).sealed))

/-- R386: a free pair in service goes to the one thread that is ready, whose tenant has credit left. A
pair that is held or retired stays as it is.
R388 to R391, R30: a pair that fails is retired with its cause, bit 1 of SUP_FAULT_STATUS is set, and in
RUN the device goes to DEGRADED. The thread it held loses it, and an instruction of which nothing has
been committed will be executed again. R36, R31 T16: a failure that leaves fewer than two pairs in
service starts T16 with HOLD_CAUSE PAIRS_EXHAUSTED in place of T8, and every island is sealed.
Completes: pairGrant, pairFailure, pairNoResult.
Where it rests on the model's choices: log entry 26. -/
def Obligations.Pairs : Prop :=
  (∀ (p : PairId) (s : State), s.settled = true →
     ((s.pair p).retired = true ∨ (s.pair p).held ≠ none → answersLike (exec (.pairGrant p) s) s) ∧
     (∀ (r : RingId) (c : Cur), (s.pair p).retired = false → (s.pair p).held = none →
       s.ready r = true → (s.thr r).pair = none → (s.thr r).cur = some c → c.fin = none → c.unread = none →
       (∀ q : RingId, q ≠ r → s.ready q = false) → tabGet (fun _ => 0) s.ferry.credit (r / 4) ≠ 0 →
       ∃ t, exec (.pairGrant p) s = .next t ∧ (t.thr r) = { s.thr r with pair := some p.val } ∧
         (t.pair p).held = some r.val ∧ t.ferry.lastTenant = r / 4 ∧
         tabGet (fun _ => 0) t.ferry.credit (r / 4) = tabGet (fun _ => 0) s.ferry.credit (r / 4) - 1 ∧
         (∀ q, q ≠ r.val → t.thr q = s.thr q) ∧ t.rings = s.rings)) ∧
  (∀ (p : PairId) (s : State), s.settled = true → s.mode.mode = .run → s.mode.trans = none →
     (s.pair p).retired = false → 3 ≤ s.pairsInService → s.ptu.pfGo = false →
     (∀ cause : Fin 16, cause = 1 ∨ cause = 2 → (s.pair p).held = none →
       ∃ t, exec (.pairFailure p cause) s = .next t ∧ (t.pair p).retired = true ∧
         (t.pair p).cause = cause.val ∧ (t.pair p).held = none ∧ (∀ q, q ≠ p.val → t.pair q = s.pair q) ∧
         t.mode.trans = some { id := 8, target := .degraded } ∧ t.log.faultStatus.getLsbD 1 = true ∧
         t.threads = s.threads ∧ t.rings = s.rings ∧ t.frames = s.frames) ∧
     (∀ (r : RingId) (c : Cur), (s.pair p).held = some r.val → (s.thr r).pair = some p.val →
       (s.thr r).cur = some c → (s.thr r).wait = .none → c.progress = 0 → c.once = false → c.taken = none →
       c.reply = none → c.fin = none → (s.ring r).state = .running → s.recordBegun r = false →
       ∃ t, exec (.pairNoResult p) s = .next t ∧ (t.pair p).retired = true ∧ (t.pair p).cause = 3 ∧
         (t.thr r).pair = none ∧
         (t.thr r).cur = some {
           words := c.words, pos := c.pos, next := c.next, retried := true, fenced := c.fenced
           unread := c.unread } ∧
         (t.ten (r / 4)).retried = min 0xFFFFFFFF ((s.ten (r / 4)).retried + 1) ∧
         (∀ q, q ≠ r.val → t.thr q = s.thr q) ∧ t.frames = s.frames)) ∧
  (∀ (p : PairId) (s : State), s.settled = true → s.inRun = true → s.mode.trans = none →
     (s.pair p).retired = false → s.pairsInService ≤ 2 → s.ptu.pfGo = false →
     let holds := fun (t : State) => (t.pair p).retired = true ∧ t.pairsInService < 2 ∧
       t.mode.trans = some { id := 16, target := .hold } ∧ t.mode.holdCause = 8 ∧ t.mode.mode = s.mode.mode ∧
       t.log.faultStatus.getLsbD 1 = true ∧
       ∀ i : IslandId, (t.isl i).sealed = true ∧ (t.isl i).hold = true
     (∀ cause : Fin 16, cause = 1 ∨ cause = 2 → (s.pair p).held = none →
       ∃ t, exec (.pairFailure p cause) s = .next t ∧ holds t ∧ (t.pair p).cause = cause.val) ∧
     (∀ r : RingId, (s.pair p).held = some r.val →
       ∃ t, exec (.pairNoResult p) s = .next t ∧ holds t ∧ (t.pair p).cause = 3 ∧ (t.thr r).pair = none))

/-! ## The host link and the functions (09) -/

/-- R246 to R250, R255, R256, R258: PERST#, a Hot Reset and a link failure reset every function, and the
link is down; PERST# counts. The link comes up at 2.5 GT/s with the width found, answers
configuration requests 10 ms later at the latest, and may be retrained, with the equalization its
speed has; PME_Turn_Off is acknowledged, and PERST# ends L2/L3 Ready, which nothing else of the link
does. L1 is entered where ASPM L1 is enabled or every function is in D3hot and nothing waits to be
sent. The first LTR message after its enable reports the tolerance within the limits.
R238, R251, R254, R281, R284: a function level reset begins with its rings, threads and windows and ends
with configuration space; D3hot resets the rings and keeps the windows; a record that another tenant's
thread has begun in such a ring, or that a thread of these rings has begun in another tenant's, is lost
and counted there (R305; DEDUCED, log 62); D0 ends D3hot. Bus Master Enable is set and cleared. A vector
whose Mask is cleared sends its pending message unless something else blocks it or every message waits.
A read of a byte counter's low half latches its high half.
Completes: perstAsserted, perstRelease, linkUp, linkRetrain, hotReset, linkDown, pmeTurnOff,
l1Entry, l1Exit, ltrMessage, flr, d3hotEntry, d0Entry, busMasterEnableWrite, flrDone, vectorUnblock,
dmaBytesLoRead.
Where it rests on the model's choices: log entries 10, 25, 26, 40, 59, 60, 62. -/
def Obligations.HostInterface : Prop :=
  (∀ s : State, s.settled = true →
     (s.link.perst = false →
       ∃ t, exec .perstAsserted s = .next t ∧ s.functionsReset t ∧ t.link.up = false ∧ t.link.perst = true ∧
         t.link.l2 = false ∧
         t.link.perstCount = (s.link.perstCount + 1) % 256 ∧
         t.link.downs = (if s.link.up then (s.link.downs + 1) % 256 else s.link.downs)) ∧
     answersLike (exec .perstRelease s) (s.modLink (fun l => { l with perst := false })) ∧
     (∀ w : Fin 4,
       (s.link.up = false → s.link.perst = false →
         ∃ t, exec (.linkUp w) s = .next t ∧
           s.coreNs ≤ t.link.readyAt ∧ t.link.readyAt ≤ s.coreNs + 10000000 ∧
           t.beside = ({ s with freeCounter := s.freeCounter + 1 }.modLink (fun l => { l with
             up := true, speed := 1, width := 2 ^ w.val, readyAt := t.link.readyAt })).beside) ∧
       (∀ v : Fin 4,
         (s.link.up = true → s.link.l2 = false →
           answersLike (exec (.linkRetrain v w) s) (s.modLink (fun l => { l with
             speed := v.val + 1, width := 2 ^ w.val
             eq8 := l.eq8 || decide (2 ≤ v.val), eq16 := l.eq16 || decide (3 ≤ v.val) }))) ∧
         (s.link.l2 = true → answersLike (exec (.linkRetrain v w) s) s))) ∧
     (s.link.l2 = true → ∀ c, c = Instr.hotReset true ∨ c = .hotReset false ∨ c = .linkDown ∨
       c = .pmeTurnOff ∨ c = .l1Entry → answersLike (exec c s) s) ∧
     (s.link.up = true →
       (s.link.l2 = false → ∀ c, c = Instr.hotReset true ∨ c = .hotReset false ∨ c = .linkDown →
         ∃ t, exec c s = .next t ∧ s.functionsReset t ∧ t.link.up = false ∧
           t.link.downs = (s.link.downs + 1) % 256 ∧ t.link.perst = s.link.perst) ∧
       (s.link.l2 = false → ∃ t, exec .pmeTurnOff s = .next t ∧ OutMsg.pmeAck ∈ t.out ∧
         t.beside = (s.modLink (fun l => { l with l2 := true })).beside) ∧
       (s.link.l2 = false → s.shows = true → s.requestWaits = false →
         bitAt (s.fn 0).aspm 1 = true ∨ (∀ q : TenantId, (s.fn q).d3hot = true) →
         ∃ t, exec .l1Entry s = .next t ∧ t.link.l1 = true ∧ t.beside = s.beside)) ∧
     (∃ t, exec .l1Exit s = .next t ∧ t.link.l1 = false ∧ t.beside = s.beside) ∧
     ((s.fn 0).ltrEn = true → s.link.up = true → s.link.l2 = false → s.forcedFull 2 = false →
       s.mode.mode ≠ .reset → s.link.ltrTime = none →
       let t := s.limited s.tolerance
       answersLike (exec .ltrMessage s) (s.modLink (fun l => { l with
         ltrLast := ltrField t, ltrTol := t.map (fun _ => ltrNs (ltrField t)), ltrTime := some s.coreNs })))) ∧
  (∀ (t : TenantId) (s : State), s.settled = true →
     let own := ∀ (k : Fin 4) e, (s.ring (4 * t + k)).part = some e → e.1.from_ / 4 = t.val
     let reset := fun (x : State) => (∀ k : Fin 4, x.thr (4 * t + k) = {}) ∧
       (own → (∀ k : Fin 4, x.ring (4 * t + k) = {}) ∧
         ∀ d : RingId, d / 4 ≠ t.val →
           let y := s.ring d
           ((∀ e, y.part = some e → e.1.from_ / 4 ≠ t.val) ∨ y.accepts = false →
             x.ring d = { y with fresh := (x.ring d).fresh }) ∧
           (∀ e, y.part = some e → e.1.from_ / 4 = t.val → y.accepts = true →
             x.ring d = { y with
               fresh := (x.ring d).fresh, lost := min 0xFFFFFFFF (y.lost + 1)
               part := some ({ e.1 with from_ := 32 }, e.2), partPages := [] })) ∧
       (∀ k : Fin 4, (∀ j : Fin 4, j ≠ k → (s.ring (4 * t + j)).part = none) →
         (s.foreignPart (4 * t + k)).isSome = true → x.ring (4 * t + k) = { lost := 1 }) ∧
       (∀ q : TenantId, q ≠ t → x.fn q = s.fn q) ∧
       x.frames = s.frames ∧ x.harbour = s.harbour ∧ x.mode.mode = s.mode.mode
     (s.configOpen t = true →
       (∃ x, exec (.flr t) s = .next x ∧ reset x ∧ x.fn t = { s.fn t with flr := some s.coreNs } ∧
         (∀ n : WindowId, x.win t n = {} ∧ ∀ q : TenantId, q ≠ t → x.win q n = s.win q n)) ∧
       ((s.fn t).d3hot = false →
         ∃ x, exec (.d3hotEntry t) s = .next x ∧ reset x ∧ x.fn t = { s.fn t with d3hot := true } ∧
           x.wins = s.wins) ∧
       ((s.fn t).d3hot = true →
         answersLike (exec (.d0Entry t) s) (s.modFn t (fun f => { f with d3hot := false }))) ∧
       answersLike (exec (.busMasterEnableWrite t false) s) (s.modFn t (fun f => { f with bme := false })) ∧
       (∃ x, exec (.busMasterEnableWrite t true) s = .next x ∧ x.fn t = { s.fn t with bme := true } ∧
         (∀ q : TenantId, q ≠ t → x.fn q = s.fn q) ∧ x.rings = s.rings ∧ x.wins = s.wins ∧
         (∀ r : RingId, (∀ k : Fin 4, (s.thr r).wait ≠ .record (4 * t + k)) → x.thr r = s.thr r))) ∧
     ((s.fn t).flr ≠ none →
       ∃ x, exec (.flrDone t) s = .next x ∧ x.fn t = (s.fn t).sticky ∧
         (∀ q : TenantId, q ≠ t → x.fn q = s.fn q) ∧ x.rings = s.rings ∧ x.wins = s.wins) ∧
     (s.reachable t = true →
       (∀ v : VectorId, s.shows = true →
         ∃ x, exec (.vectorUnblock t v) s = .next x ∧ (x.msx t v).mask = false ∧
           (x.msx t v).addr = (s.msx t v).addr ∧ (x.msx t v).data = (s.msx t v).data ∧ x.beside = s.beside ∧
           ((s.msx t v).pend = true → (s.fn t).msixEn = true → (s.fn t).fmask = false → (s.fn t).bme = true →
             s.msixWaits = false →
             (x.msx t v).pend = false ∧
               OutMsg.msix t v (s.msx t v).addr (s.msx t v).data ∈ x.out)) ∧
       (s.forcedFull 4 = false →
         answersLike (exec (.dmaBytesLoRead t false 4) s)
           (s.modTen t (fun x => { x with rdHi := hi32 x.rdBytes })) ∧
         answersLike (exec (.dmaBytesLoRead t true 4) s)
           (s.modTen t (fun x => { x with wrHi := hi32 x.wrBytes })))))

/-! ## Windows (09) -/

/-- R239 to R243, R6, R7: the window table of a tenant whose registers the host reaches. BASE and LEN
are taken while the window is not in use, and LEN keeps its PAGES where the value is not listed; a
request starts its check, which ends VALID or REFUSED with the first test that fails; a window let
go misses, and reads INVALID once the accesses accepted through it are served; a REFUSED one may be
asked for again at once. An access of function 0 through a VALID window of the harbour buffer reads
or writes the word it maps; one that maps nothing sets MISS.
Completes: registerWrite, windowRequest, windowInvalidate, windowInvalidDone, windowCheckDone,
windowAccess.
Where it rests on the model's choices: log entries 31, 39. -/
def Obligations.Windows : Prop :=
  ∀ (t : TenantId) (n : WindowId) (v : Word) (s : State), s.settled = true → s.reachable t = true →
    let w := s.win t n
    let now := fun (x : Win) => s.modWin t n (fun _ => x)
    (answersLike (exec (.registerWrite t false (0x20000 + 16 * n) 4 (leBytes 4 v.toNat)) s)
        (if w.state = .checking ∨ w.state = .valid then s else now { w with base := field v.toNat 12 20 }) ∧
      answersLike (exec (.registerWrite t false (0x20004 + 16 * n) 4 (leBytes 4 v.toNat)) s)
        (if w.state = .checking ∨ w.state = .valid then s else now { w with
            pages := if 1 ≤ field v.toNat 0 11 ∧ field v.toNat 0 11 ≤ 1024 then field v.toNat 0 11
                     else w.pages })) ∧
    (w.closing = false →
      (w.state = .invalid ∨ w.state = .refused →
        answersLike (exec (.windowRequest t n v) s) (now { w with
          req := true, rd := bitAt v.toNat 1, wr := bitAt v.toNat 2, state := .checking, reason := 0 })) ∧
      answersLike (exec (.windowInvalidate t n) s)
        (now { w with req := false, closing := w.state != .invalid })) ∧
    (w.closing = true →
      (w.state = .refused →
        answersLike (exec (.windowRequest t n v) s) (now { w with
          req := true, rd := bitAt v.toNat 1, wr := bitAt v.toNat 2, state := .checking, reason := 0
          closing := false })) ∧
      answersLike (exec (.windowInvalidDone t n) s) (if s.windowPending t w then s
        else now { w with state := .invalid, reason := 0, closing := false })) ∧
    (w.state = .checking → w.closing = false → s.mode.mode ≠ .load → s.mode.mode ≠ .wake →
      (w.pages = 0 ∨ 1024 < w.pages ∨ (w.rd = false ∧ w.wr = false) →
        answersLike (exec (.windowCheckDone t n) s) (now { w with state := .refused, reason := 1 })) ∧
      (1 ≤ w.pages → w.pages ≤ 1024 → w.rd = true ∨ w.wr = true → w.base + w.pages ≤ 0x800 →
        (t.val = 0 → answersLike (exec (.windowCheckDone t n) s) (now { w with state := .valid, reason := 0 })) ∧
        (t.val ≠ 0 → (∀ k : Fin 8, rangeCovers s.charterEff t k w = false) →
          answersLike (exec (.windowCheckDone t n) s) (now { w with state := .refused, reason := 4 })))) ∧
    (s.mode.mode ≠ .load → s.mode.mode ≠ .wake → s.behind = [] → ∀ o, o % 4 = 0 → o + 4 ≤ 0x400000 →
      (w.state ≠ .valid ∨ w.closing = true ∨ w.pages * 4096 ≤ o ∨ w.wr = false →
        answersLike (exec (.windowAccess t true (0x400000 * n + o) 4 (leBytes 4 v.toNat)) s)
          (now { w with miss := true })) ∧
      (t.val = 0 → w.state = .valid → w.closing = false → o < w.pages * 4096 → w.base + w.pages ≤ 0x800 →
        s.harbourBad = [] → s.harbourSoft = [] → s.outstanding (.window t) = false → s.forcedFull 4 = false →
        let a := w.base * 4096 + o
        (w.wr = true →
          answersLike (exec (.windowAccess t true (0x400000 * n + o) 4 (leBytes 4 v.toNat)) s)
            { s with harbour := memWrite 0 s.harbour a (leBytes 4 v.toNat) }) ∧
        (w.rd = true →
          ∃ x, exec (.windowAccess t false (0x400000 * n + o) 4 []) s = .next x ∧ x.beside = s.beside ∧
            OutMsg.cpl t [BitVec.ofNat 32 (leNat (memRead 0 s.harbour a 4))] ∈ x.out)))

/-! ## DMA and translations (10) -/

/-- R261, R263, R265, R267, R276, R296, R397, R517: an untranslated chunk is issued as one request where
it fits Max_Read_Request_Size or a multiple of Max_Payload_Size, and the limits leave it room; a
fetch too. Data that arrives is counted, and goes to the ring's prefetch or the thread; a failed
fetch stops the ring with its fault, and a failed read of a COPY_IN ends the instruction, which
stops its ring. A held completion is let go. After ten capped windows the leave is asked for, and
after 1,000 quiet ones it is given back.
Completes: dmaChunkIssue, dmaCompletion, dmaCompletionTimeout, dmaStretchEnd, dmaRateWindow.
Where it rests on the model's choices: log entry 27. -/
def Obligations.DmaEngine : Prop :=
  (∀ (r : RingId) (s : State), s.settled = true → s.mayRun r = true → (s.ring r).translated = false →
    let q := ringTenant r
    (∀ c, (s.thr r).cur = some c → (s.thr r).wait = .dma → c.xl = none →
      let host := (c.a0 + c.progress) % 2 ^ 64
      let len := min (c.len - c.progress) (4096 - host % 4096)
      (c.opcode = 0x30 → s.readsOf r .data = [] → 0 < len → len ≤ 128 * 2 ^ (s.fn q).mrrs →
        s.readAllowed q len = true →
        ∃ t, exec (.dmaChunkIssue r false false) s = .next t ∧
          t.dma.reads = s.dma.reads ++
            [{ fn := q, ring := r, tag := s.freeTag q, kind := .data, addr := host, len := len
               born := s.dma.invSeq }] ∧
          OutMsg.read q (s.freeTag q % 1024) host len false ∈ t.out ∧ t.harbour = s.harbour ∧
          t.rings = s.rings ∧ (∀ k : RingId, k ≠ r → t.thr k = s.thr k)) ∧
      (c.opcode = 0x31 → ∀ bytes, c.staged = some bytes → bytes.length = len → 0 < len →
        host % (128 * 2 ^ (s.fn q).mps) + len ≤ 128 * 2 ^ (s.fn q).mps → s.fnIssues q = true →
        s.rateAllows = true → s.ownsRange q (c.a1 + c.progress) len = true → (s.ring r).cplEn = false →
        s.recordBegun r = false →
        ∃ t, exec (.dmaChunkIssue r false false) s = .next t ∧
          OutMsg.write q host bytes ((s.ring r).hinted && c.flagO && (s.fn q).relaxed) false ∈ t.out ∧
          (t.ten q).wrBytes = ((s.ten q).wrBytes + len) % 2 ^ 64 ∧ s.dma.winBytes + len ≤ t.dma.winBytes ∧
          t.harbour = s.harbour ∧ t.dma.reads = s.dma.reads)) ∧
    ((s.thr r).wait = .dma → (s.thr r).cur = none → (s.ring r).state = .running →
      s.readsOf r .fetch = [] →
      let span := (s.ring r).fetchSpan
      0 < span.2 → span.2 ≤ 128 * 2 ^ (s.fn q).mrrs → s.readAllowed q span.2 = true →
      answersLike (exec (.dmaChunkIssue r false false) s) (s.modDma (fun d => { d with
        reads := d.reads ++
          [{ fn := q, ring := r, tag := s.freeTag q, kind := .fetch, addr := span.1, len := span.2
             born := s.dma.invSeq }] })))) ∧
  (∀ (x : DmaRead) (data : List Byte) (s : State), s.settled = true → s.dma.reads = [x] → x.got = none →
    x.kind = .fetch → x.ring < 32 → s.leave.queue = [] →
    let failed := fun (c : Instr) (status : Nat) =>
      ∃ t, exec c s = .next t ∧ (t.ring x.ring).fault = true ∧
        ((s.ring x.ring).fault = false →
          (t.ring x.ring).faultCode = 4 ∧ (t.ring x.ring).faultStatus = status) ∧
        ((s.ring x.ring).state ≠ .flushing → (t.ring x.ring).state = .stopped) ∧
        (t.ten x.fn).rdBytes = (s.ten x.fn).rdBytes ∧ t.harbour = s.harbour ∧ t.frames = s.frames
    (s.ptuHeld.cpls = [] → s.mode.mode ≠ .test →
      (data.length = x.len →
        ∃ t, exec (.dmaCompletion x.tag .ok data) s = .next t ∧ t.dma.reads = [] ∧
          (t.ring x.ring).fetched = (s.ring x.ring).fetched ++ bytesWords data ∧
          (t.thr x.ring).wait = .none ∧ (t.ten x.fn).rdBytes = ((s.ten x.fn).rdBytes + x.len) % 2 ^ 64 ∧
          s.dma.winBytes + x.len ≤ t.dma.winBytes ∧ t.harbour = s.harbour ∧
          (∀ k : RingId, k.val ≠ x.ring → t.ring k = s.ring k ∧ t.thr k = s.thr k)) ∧
      failed (.dmaCompletion x.tag .unsupported data) 0x40 ∧ failed (.dmaCompletion x.tag .abort data) 0x41 ∧
      failed (.dmaCompletion x.tag .poisoned data) 0x43 ∧
      ((s.fn x.fn).ctoDisable = false → failed (.dmaCompletionTimeout x.tag) 0x42)) ∧
    (∀ n : Fin 4, s.ptuHeld.cpls = [(x.tag, n.val, data)] → data.length = x.len →
      (n.val = 0 →
        ∃ t, exec (.dmaStretchEnd x.tag) s = .next t ∧ t.ptuHeld.cpls = [] ∧ t.dma.reads = [] ∧
          (t.ring x.ring).fetched = (s.ring x.ring).fetched ++ bytesWords data) ∧
      (0 < n.val →
        ∃ t, exec (.dmaStretchEnd x.tag) s = .next t ∧ t.ptuHeld.cpls = [] ∧ t.dma.reads = [] ∧
          (t.ring x.ring).fault = true))) ∧
  (∀ (x : DmaRead) (data : List Byte) (c : Cur) (s : State), s.settled = true → s.dma.reads = [x] →
    x.got = none → x.kind = .data → x.ring < 32 → s.leave.queue = [] → s.ptuHeld.cpls = [] →
    s.mode.mode ≠ .test → (s.thr x.ring).cur = some c → c.opcode = 0x30 → c.fin = none →
    let failed := fun (cmd : Instr) (status : Nat) =>
      ∃ t, exec cmd s = .next t ∧ (t.ten (ringTenant x.ring)).dmaError = true ∧
        (t.ten x.fn).rdBytes = (s.ten x.fn).rdBytes ∧ t.harbour = s.harbour ∧ t.frames = s.frames ∧
        ((s.ring x.ring).cplEn = false → s.recordBegun x.ring = false →
          (t.thr x.ring).cur = none ∧ (t.thr x.ring).s = status ∧ (t.thr x.ring).pc = (s.thr x.ring).pc ∧
          (t.ring x.ring).fault = true ∧
          ((s.ring x.ring).fault = false →
            (t.ring x.ring).faultCode = 6 ∧ (t.ring x.ring).faultStatus = status) ∧
          ((s.ring x.ring).state ≠ .flushing → (t.ring x.ring).state = .stopped))
    (data.length = x.len → x.len = min (c.len - c.progress) (4096 - (c.a0 + c.progress) % 4096) →
      ∃ t, exec (.dmaCompletion x.tag .ok data) s = .next t ∧ t.dma.reads = [] ∧
        t.thr x.ring = { s.thr x.ring with wait := .none, cur := some { c with staged := some data } } ∧
        (t.ten x.fn).rdBytes = ((s.ten x.fn).rdBytes + x.len) % 2 ^ 64 ∧
        s.dma.winBytes + x.len ≤ t.dma.winBytes ∧ t.harbour = s.harbour ∧ t.rings = s.rings ∧
        (∀ k : RingId, k.val ≠ x.ring → t.thr k = s.thr k)) ∧
    failed (.dmaCompletion x.tag .unsupported data) 0x40 ∧ failed (.dmaCompletion x.tag .abort data) 0x41 ∧
    failed (.dmaCompletion x.tag .poisoned data) 0x43 ∧
    ((s.fn x.fn).ctoDisable = false → failed (.dmaCompletionTimeout x.tag) 0x42)) ∧
  (∀ s : State, s.settled = true → s.dma.wanted = [] → s.link.cpls = [] →
    (∀ (r : RingId) k, (s.thr r).wait = .record k → (s.ring k).hasSpace 1 = false) →
    let capped := decide (8000 ≤ s.dma.winBytes) || s.dma.delayed
    let quiet := if 6000 < s.dma.winBytes then 0 else s.dma.quietRun + 1
    let passed := s.modDma (fun d => { d with
      winBytes := 0, delayed := false, capRun := if capped then min 10 (d.capRun + 1) else 0
      quietRun := min 1000 quiet, retryWindows := d.retryWindows - 1 })
    (s.dma.rate = .none → s.dma.retryWindows = 0 → capped = false ∨ s.dma.capRun < 9 →
      answersLike (exec .dmaRateWindow s) passed) ∧
    (s.dma.rate = .none → s.dma.retryWindows = 0 → capped = true → s.dma.capRun = 9 →
      let reg := s.leave.kindReg 5
      answersLike (exec .dmaRateWindow s)
        ((passed.modDma (fun d => { d with rate := .asked, capRun := 0 })).modLeave (fun l => { l with
          arriving := l.arriving ++ [{ who := .dmaRate, cost := field reg 0 12, prio := field reg 12 2
                                       duration := field reg 14 18, timeout := 100000, at_ := s.coreNs }] }))) ∧
    (s.dma.rate = .held → quiet = 1000 → s.leave.queue = [] →
      answersLike (exec .dmaRateWindow s)
        ((passed.modDma (fun d => { d with rate := .none, capRun := 0 })).modLeave (fun l => { l with
          leases := l.leases.filter (fun x => x.who != .dmaRate), stale := false }))))

/-- R268, R269, R271, R273 to R275: a translation that comes is cached and serves its page; one that
fails, or lacks the permission asked for, is a fault where something waits for it and is not cached,
nor is one that an invalidation met. An Invalidate Request's address and S bit name its range; it
takes every entry of its function there out of the cache at once, and is completed when no use of
one is left; a 33rd is held in X1, and one that comes in RESET. Clearing the ATS Enable empties a
function's part of the cache.
Completes: translationCompletion, invalidateRequest, invalidateReadWaitEnd, invalidationCompletion,
atsEnableClear.
Where it rests on the model's choices: log entries 24, 27, 60. -/
def Obligations.Translations : Prop :=
  (∀ (q : TransReq) (s : State), s.settled = true → s.dma.trans = [q] →
    let gone := s.modDma (fun d => { d with trans := [] })
    (∀ (page size : Nat) (r w : Bool), q.stale = false → 12 + (s.fn q.fn).stu ≤ size → size ≤ 30 →
      (if q.write then w else r) = true → s.dma.find q.fn q.page = none →
      s.dma.atcRetired ≠ 15 →
      ∃ t, exec (.translationCompletion q.id true page size r w) s = .next t ∧ t.dma.trans = [] ∧
        (t.dma.find q.fn q.page).map (fun e => (e.2.page, e.2.size, e.2.tpage, e.2.r, e.2.w)) =
          some (q.page / 2 ^ size * 2 ^ size, size, page / 2 ^ size * 2 ^ size, r, w) ∧
        t.dma.reads = s.dma.reads ∧ t.harbour = s.harbour ∧ t.fns = s.fns) ∧
    (q.stale = false → q.needed = false ∨ s.waitsPage q.ring q.page = false →
      answersLike (exec (.translationCompletion q.id false 0 12 true true) s) gone ∧
      ∀ (page size : Nat) (r w : Bool), (if q.write then w else r) = false →
        answersLike (exec (.translationCompletion q.id true page size r w) s) gone) ∧
    (q.stale = true → (∀ r : RingId, (s.thr r).wait ≠ .record q.ring) → ∀ ok : Bool,
      answersLike (exec (.translationCompletion q.id ok 0x5000 12 true true) s) gone) ∧
    (q.stale = false → q.needed = true → s.waitsPage q.ring q.page = true → s.leave.queue = [] →
      ∃ t, exec (.translationCompletion q.id false 0 12 true true) s = .next t ∧
        ((∀ r : RingId, (s.ring r).cplEn = false ∧ s.recordBegun r = false) →
          t.dma.trans = [] ∧ t.dma.atc = s.dma.atc) ∧
        (t.ten (ringTenant q.ring)).atsFault = true ∧
        ((s.ten (ringTenant q.ring)).atsFault = false →
          (t.ten (ringTenant q.ring)).atsAddr = q.page / 4096 * 4096 ∧
          (t.ten (ringTenant q.ring)).atsWrite = q.write) ∧
        (t.ten (ringTenant q.ring)).dmaError = true ∧ t.harbour = s.harbour ∧ t.frames = s.frames)) ∧
  (∀ (q : TenantId) (s : State), s.settled = true →
    (∀ addr itag : Nat, s.hostSends = true →
      let page := (invRange addr).1
      let bytes := (invRange addr).2
      (bitAt addr 11 = false → page = addr / 4096 * 4096 ∧ bytes = 4096) ∧
      (addr < 2 ^ 64 → bitAt addr 11 = true → ∀ k : Fin 51, (∀ j, j < k.val → bitAt addr (12 + j) = true) →
        bitAt addr (12 + k) = false →
        page = addr / 2 ^ (13 + k.val) * 2 ^ (13 + k.val) ∧ bytes = 2 ^ (13 + k.val)) ∧
      (s.mode.mode = .reset →
        answersLike (exec (.invalidateRequest q addr itag) s) (s.modDma (fun d => { d with
          invs := d.invs ++ [{ fn := q, itag := itag, page := page, bytes := bytes, inX1 := true }] }))) ∧
      (s.mode.mode ≠ .reset → s.dma.invs = [] →
        ∃ t, exec (.invalidateRequest q addr itag) s = .next t ∧
          t.dma.invs =
            [{ fn := q, itag := itag, page := page, bytes := bytes, seq := s.dma.invSeq + 1 }] ∧
          (∀ a, page ≤ a → a < page + bytes → t.dma.find q a = none) ∧
          (∀ p : TenantId, p ≠ q → ∀ a, t.dma.find p a = s.dma.find p a) ∧ t.dma.reads = s.dma.reads) ∧
      (s.mode.mode ≠ .reset → 32 ≤ s.dma.invsHeld q →
        ∃ t, exec (.invalidateRequest q addr itag) s = .next t ∧
          t.dma.invs = s.dma.invs ++
            [{ fn := q, itag := itag, page := page, bytes := bytes, inX1 := true }] ∧
          t.dma.atc = s.dma.atc ∧ (t.ten q).invqOverflow = true)) ∧
    (∀ x : InvReq, s.dma.invs = [x] → x.fn = q.val → x.inX1 = false → x.own = false →
      (∃ t, exec (.invalidateReadWaitEnd q x.itag) s = .next t ∧
        (∀ y ∈ t.dma.reads, x.meetsRead y = false) ∧ t.dma.atc = s.dma.atc ∧ t.dma.invs = s.dma.invs ∧
        t.harbour = s.harbour ∧ t.rings = s.rings) ∧
      ((∀ y ∈ s.dma.reads, x.meetsRead y = false) → s.meetsWrite x = false → s.link.up = true →
        s.msixWaits = false → s.mode.mode ≠ .reset →
        ∃ t, exec (.invalidationCompletion q x.itag) s = .next t ∧ OutMsg.invalDone q x.itag ∈ t.out ∧
          t.beside = ((s.modDma (fun d => { d with invs := [] })).modTen q (fun y => { y with
            invalidations := (y.invalidations + 1) % 256 })).beside)) ∧
    (s.configOpen q = true →
      ∃ t, exec (.atsEnableClear q) s = .next t ∧ t.fn q = { s.fn q with atsEn := false } ∧
      t.dma.entries q = 0 ∧ (∀ p : TenantId, p ≠ q → t.fn p = s.fn p ∧ t.dma.entries p = s.dma.entries p) ∧
      t.dma.reads = s.dma.reads))

/-! ## Rings (11) -/

/-- R291 to R293, R304, R307, R308, R311, R313, R314, R326: the registers of a ring that the host
reaches. A ring is enabled with its counters and its thread at their start, a program where
RING_ENTRY says, or at once at a fault; FLUSH and ENABLE = 0 flush it, and the flush ends where
nothing is in flight. RING_HEAD moves over records written and not further; a record begun in the
ring that this stops is lost at once and counted (R305). The watermarks give LEVEL.
Completes: ringEnable, ringDisable, ringFlush, flushDone, ringHeadWrite, ringWmWrite, wmArm,
clrCount.
Where it rests on the model's choices: log entries 23, 26, 60. -/
def Obligations.RingControl : Prop :=
  ∀ (r : RingId) (v : Word) (s : State), s.settled = true → s.reachable (r / 4) = true →
    let x := s.ring r
    let w := v.toNat
    let others := fun (t : State) => ∀ k : RingId, k ≠ r → t.ring k = s.ring k
    let still := fun (f : Ring → Ring) (c : Instr) => ∃ t, exec c s = .next t ∧ t.ring r = f x ∧ others t ∧
      (∀ k : RingId, t.thr k = s.thr k) ∧ t.harbour = s.harbour ∧ t.ports = s.ports ∧ t.dma.beside = s.dma.beside
    (x.state = .disabled →
      (field w 1 2 < 2 → bitAt w 3 = false → (∀ k, (s.thr r).wait ≠ .record k) →
        ∃ t, exec (.ringEnable r v) s = .next t ∧ (t.ring r).state = .running ∧ (t.ring r).enable = true ∧
          (t.ring r).kind = field w 1 2 ∧ (t.ring r).hinted = bitAt w 4 ∧ (t.ring r).timeoutSel = field w 5 2 ∧
          (t.ring r).cpl = field w 8 2 ∧ (t.ring r).cplEn = bitAt w 10 ∧ (t.ring r).head = 0 ∧
          (t.ring r).tail = 0 ∧ (t.ring r).base = x.base ∧ (t.ring r).size = x.size ∧ others t ∧
          (t.thr r).cur = none ∧ (t.thr r).stack = [] ∧ (∀ k, (t.thr r).reg k = 0) ∧ t.harbour = s.harbour) ∧
      (field w 1 2 = 2 →
        (s.entryOk r = true →
          ∃ t, exec (.ringEnable r v) s = .next t ∧ (t.ring r).state = .running ∧ (t.ring r).kind = 2 ∧
            (t.thr r).pc = field x.entry 2 17 ∧ (t.thr r).cur = none ∧ (t.thr r).stack = [] ∧
            (∀ k, (t.thr r).reg k = 0) ∧ others t) ∧
        (s.entryOk r = false → x.fault = false →
          ∃ t, exec (.ringEnable r v) s = .next t ∧ (t.ring r).state = .stopped ∧ (t.ring r).fault = true ∧
            (t.ring r).faultCode = 5 ∧ (t.ring r).faultStatus = 0x21 ∧ others t)) ∧
      still (fun x => { x with
        enable := false, kind := if field w 1 2 = 3 then x.kind else field w 1 2, translated := bitAt w 3
        hinted := bitAt w 4, timeoutSel := field w 5 2, cpl := field w 8 2, cplEn := bitAt w 10 })
        (.ringDisable r v)) ∧
    (x.state = .running ∨ x.state = .stopped ∨ x.state = .halted → x.kind ≠ 1 → (s.thr r).cur = none →
      (s.thr r).wait = .none → (s.thr r).pair = none → (∀ q ∈ s.dma.wanted, q.ring ≠ r) →
      still (fun x => { x with
        state := .flushing, enable := false, timer := false, flush := some {}, partPages := [], fresh := []
        disableWanted := true })
        (.ringDisable r v) ∧
      (bitAt w 0 = true →
        still (fun x => { x with
          state := .flushing, timer := false, flush := some {}, partPages := [], fresh := [] })
          (.ringFlush r v))) ∧
    (x.state = .flushing → (s.thr r).cur = none → x.part = none → x.kind = 0 → x.head = x.tail →
      x.fetched = [] → x.cplEn = false → x.wmHi = 0 → x.level = false → x.tail < 2 ^ 32 → x.lost < 2 ^ 32 →
      still (fun x => { x with
        flush := none, disableWanted := false, state := if x.disableWanted then .disabled else .running })
        (.flushDone r)) ∧
    (x.kind = 1 →
      (dist32 w x.head ≤ x.fill →
        ∃ t, exec (.ringHeadWrite r v) s = .next t ∧ (t.ring r).head = w ∧ (t.ring r).tail = x.tail ∧
          (t.ring r).state = x.state ∧ others t ∧ t.harbour = s.harbour) ∧
      (x.fill < dist32 w x.head → x.state = .running → x.fault = false → x.part = none →
        ∃ t, exec (.ringHeadWrite r v) s = .next t ∧ (t.ring r).head = x.head ∧ (t.ring r).state = .stopped ∧
          (t.ring r).fault = true ∧ (t.ring r).faultCode = 3 ∧ others t) ∧
      (x.fill < dist32 w x.head → x.state = .running → x.fault = false → ∀ p k, x.part = some (p, k) →
        p.type ≠ 4 → (s.ring p.from_).state ≠ .flushing →
        s.producesFor p.from_ r = true ∨ (s.leftIn r).isSome = true →
        ∃ t, exec (.ringHeadWrite r v) s = .next t ∧ (t.ring r).lost = min 0xFFFFFFFF (x.lost + 1) ∧
          (t.ring r).part = x.part ∧ (t.ring r).state = .stopped ∧ (t.ring r).faultCode = 3 ∧ others t)) ∧
    (∃ t, exec (.ringWmWrite r v) s = .next t ∧ (t.ring r).wmHi = field w 0 16 ∧
      (t.ring r).wmLo = field w 16 16 ∧ others t ∧ (t.ring r).head = x.head ∧ (t.ring r).tail = x.tail ∧
      (x.kind ≠ 2 → field w 16 16 < field w 0 16 →
        (t.ring r).level = if x.level then decide (field w 16 16 < x.fill) else decide (field w 0 16 ≤ x.fill))) ∧
    still (fun x => { x with
      hiSeen := x.hiSeen && !bitAt w 1, loSeen := x.loSeen && !bitAt w 2, arm := true
      wmCount := if bitAt w 9 then 0 else x.wmCount }) (.wmArm r v) ∧
    still (fun x => { x with
      hiSeen := x.hiSeen && !bitAt w 1, loSeen := x.loSeen && !bitAt w 2, arm := x.arm || bitAt w 8
      wmCount := 0 }) (.clrCount r v)

/-- R295, R297, R299, R516: a tail within SIZE slots of RING_HEAD and of the old tail is taken; one
beyond either, a tail moved back among them, stops the ring with its fault. A PROGRAM ring keeps the
value and its thread is told. An incomplete item that stays incomplete is a fault. A held write is
applied when its delay ends.
Completes: doorbell, programDoorbell, doorbellDelayEnd, issueTimeout. -/
def Obligations.Doorbells : Prop :=
  ∀ (r : RingId) (v : Word) (s : State), s.settled = true → s.leave.queue = [] →
    let x := s.ring r
    let faulted := fun (c : Instr) (code : Nat) =>
      ∃ t, exec c s = .next t ∧ (t.ring r).state = .stopped ∧ (t.ring r).fault = true ∧
        (x.fault = false → (t.ring r).faultCode = code) ∧ (t.ring r).tail = x.tail ∧
        (t.ten (r / 4)).fault ≠ 0 ∧ ∀ k : RingId, k ≠ r → t.ring k = s.ring k
    let taken := fun (c : Instr) =>
      ∃ t, exec c s = .next t ∧ (t.ring r).tail = v.toNat ∧ (t.ring r).head = x.head ∧
        (t.ring r).state = x.state ∧ (t.ring r).fetched = x.fetched ∧ t.threads = s.threads ∧
        ∀ k : RingId, k ≠ r → t.ring k = s.ring k
    (s.reachable (r / 4) = true → s.mode.mode ≠ .test → s.ptuHeld.tails = [] →
      (x.kind = 0 → x.state = .running →
        (dist32 v.toNat x.head ≤ x.slots → dist32 v.toNat x.tail ≤ x.slots → taken (.doorbell r v)) ∧
        (x.slots < dist32 v.toNat x.head → faulted (.doorbell r v) 2) ∧
        (dist32 v.toNat x.head ≤ x.slots → x.slots < dist32 v.toNat x.tail → faulted (.doorbell r v) 2)) ∧
      (x.kind = 2 → x.state = .running →
        answersLike (exec (.programDoorbell r v) s)
          ((s.modRing r (fun x => { x with tail := v.toNat })).modThr r (fun t => { t with dbPend := true })))) ∧
    (s.reachable (r / 4) = true → s.mode.mode = .test → x.kind = 0 → tabGet (fun _ => 0) s.ptu.dbDelay r ≠ 0 →
      answersLike (exec (.doorbell r v) s) { s with
        ptuHeld := { items := s.ptuHeld.items ++ [.tail r.val v.toNat] } }) ∧
    (s.ptuHeld.tails = [(r.val, v.toNat)] → x.kind = 0 → x.state = .running →
      dist32 v.toNat x.head ≤ x.slots → dist32 v.toNat x.tail ≤ x.slots →
      taken (.doorbellDelayEnd r) ∧ ∃ t, exec (.doorbellDelayEnd r) s = .next t ∧ t.ptuHeld.tails = []) ∧
    (x.timer = true → x.tailInside = true → x.state = .running → s.executing = true →
      faulted (.issueTimeout r) 1)

/-! ## The Ovdor instructions (12, 13) -/

/-- R347 to R349: the arithmetic instructions, over 64 bits or, with W32, over 32. XD takes the result
(CMP has none, and a write of X0 is discarded); Z, C and N follow.
Completes: loadImm, ovAdd, ovSub, ovAnd, ovOr, ovXor, ovCmp, ovShift. -/
def Obligations.Arithmetic : Prop :=
  ∀ (r : RingId) (c : Cur) (s : State), s.settled = true → s.starts r c →
    let w := if bitAt (c.word 1) 15 then 32 else 64
    let imm := bitAt (c.word 1) 14
    let xd := c.op 1 0 4
    let a := s.src r (c.op 1 4 5) % 2 ^ w
    let b := (if imm then (if bitAt (c.word 2) 31 then c.word 2 + (2 ^ 64 - 2 ^ 32) else c.word 2)
      else s.src r (c.op 1 9 5)) % 2 ^ w
    let k := (if imm then c.op 1 18 6 else s.src r (c.op 1 9 5)) % w
    let sources := c.op 1 4 5 ≤ 20 ∧ (if imm then c.op 1 9 5 = 0 else c.op 1 9 5 ≤ 20)
    let given := fun (i : Instr) (store : Bool) (v : Nat) (carry : Bool) =>
      State.ends (s.modThr r (fun t =>
        let t := { t with z := v == 0, c := carry, n := decide (2 ^ (w - 1) ≤ v) }
        if store then t.setReg xd v else t)) r c c.next 0 (exec i s)
    (c.opcode = 0x10 → c.length = 2 ∨ c.length = 3 → c.op 1 5 27 = 0 →
      (c.length = 3 → bitAt (c.word 1) 4 = false) →
      State.ends (s.modThr r (fun t => t.setReg xd
        (if c.length = 3 then c.word 2 + 2 ^ 32 * c.word 3
         else if bitAt (c.word 1) 4 && bitAt (c.word 2) 31 then c.word 2 + (2 ^ 64 - 2 ^ 32) else c.word 2)))
        r c c.next 0 (exec (.loadImm r) s)) ∧
    (c.length = (if imm then 2 else 1) → sources → c.op 1 16 16 = 0 →
      (c.opcode = 0x11 → given (.ovAdd r) true ((a + b) % 2 ^ w) (decide (2 ^ w ≤ a + b))) ∧
      (c.opcode = 0x12 → given (.ovSub r) true ((a + 2 ^ w - b) % 2 ^ w) (decide (a < b))) ∧
      (c.opcode = 0x13 → given (.ovAnd r) true (a &&& b) false) ∧
      (c.opcode = 0x14 → given (.ovOr r) true (a ||| b) false) ∧
      (c.opcode = 0x15 → given (.ovXor r) true (a ^^^ b) false) ∧
      (c.opcode = 0x17 → xd = 0 → given (.ovCmp r) false ((a + 2 ^ w - b) % 2 ^ w) (decide (a < b)))) ∧
    (c.opcode = 0x16 → c.length = 1 → sources → c.op 1 24 8 = 0 → imm = true ∨ c.op 1 18 6 = 0 →
      (k = 0 → given (.ovShift r) true a false) ∧
      (0 < k → c.op 1 16 2 = 0 → given (.ovShift r) true (a * 2 ^ k % 2 ^ w) (bitAt a (w - k))) ∧
      (0 < k → c.op 1 16 2 = 1 → given (.ovShift r) true (a / 2 ^ k) (bitAt a (k - 1))) ∧
      (0 < k → c.op 1 16 2 = 2 →
        given (.ovShift r) true
          (a / 2 ^ k + if 2 ^ (w - 1) ≤ a then 2 ^ w - 2 ^ (w - k) else 0) (bitAt a (k - 1))) ∧
      (0 < k → c.op 1 16 2 = 3 →
        given (.ovShift r) true (a / 2 ^ k + a % 2 ^ k * 2 ^ (w - k)) (bitAt a (k - 1))))

/-- R328, R336, R340, R341, R345: NOP and FENCE end; JUMP, LOOP, CALL and RET give a program its next
PC, and HALT halts its ring. CALL with eight entries and RET with none are STACK_FAULT, which stops
the ring (R323, R306).
Completes: ovNop, ovFence, ovJump, ovCall, ovLoop, ovRet, ovHalt.
Where it rests on the model's choices: log entry 25. -/
def Obligations.ControlFlow : Prop :=
  ∀ (r : RingId) (c : Cur) (s : State), s.settled = true → s.starts r c →
    let t := s.thr r
    let word := c.op 1 0 17
    let target := if bitAt (c.word 1) 24 then t.reg (c.op 1 17 4) % 2 ^ 17 else word
    let faulted := fun (i : Instr) =>
      State.ends s r c 0 5 (exec i s) ∧ ((s.ring r).cplEn = false → State.stopsWith s r c 6 5 (exec i s))
    (c.opcode = 0x00 → s.ends r c c.next 0 (exec (.ovNop r) s)) ∧
    (c.opcode = 0x01 → c.length = 0 → s.ends r c c.next 0 (exec (.ovFence r) s)) ∧
    ((s.ring r).kind = 2 →
      (c.length = 1 → c.op 1 21 3 = 0 → c.op 1 25 7 = 0 →
        (c.opcode = 0x02 → s.ends r c target 0 (exec (.ovJump r) s)) ∧
        (c.opcode = 0x05 → t.stack.length < 8 →
          State.ends (s.modThr r (fun x => { x with stack := c.next :: x.stack })) r c target 0
            (exec (.ovCall r) s)) ∧
        (c.opcode = 0x05 → 8 ≤ t.stack.length → faulted (.ovCall r))) ∧
      (c.opcode = 0x04 → c.length = 1 → c.op 1 17 4 ≠ 0 → c.op 1 21 11 = 0 →
        let left := (t.reg (c.op 1 17 4) + (2 ^ 64 - 1)) % 2 ^ 64
        State.ends (s.modThr r (fun x => x.setReg (c.op 1 17 4) left)) r c
          (if left = 0 then c.next else word) 0 (exec (.ovLoop r) s)) ∧
      (c.length = 0 →
        (c.opcode = 0x06 →
          (∀ w rest, t.stack = w :: rest →
            State.ends (s.modThr r (fun x => { x with stack := rest })) r c w 0 (exec (.ovRet r) s)) ∧
          (t.stack = [] → faulted (.ovRet r))) ∧
        (c.opcode = 0x09 →
          s.ends r c c.next 0 (exec (.ovHalt r) s) ∧
          (s.recordWanted r c 0 = false →
            ∃ x, exec (.ovHalt r) s = .next x ∧ (x.ring r).state = .halted ∧ (x.thr r).cur = none))))

/-- R320, R322, R323, R306: a reserved opcode, a reserved header bit, a wrong LENGTH and a control
instruction in an ISSUE ring end at the first check that fails, and stop the ring with that status.
R288, R302, R303, R315, R338, R339: an instruction that ends in an ISSUE ring is one item more done,
RING_HEAD passing its slots; one whose completion record is due writes it, one slot, into the CPL ring
that has space.
Completes: reservedOpcode, ovNop.
Where it rests on the model's choices: log entries 24, 25, 62. -/
def Obligations.InstructionEnds : Prop :=
  (∀ (r : RingId) (c : Cur) (s : State), s.settled = true → s.runs r c → c.started = false →
     s.fenceHeld r c = false → (c.flagF = false ∨ s.fenceRead r = false) → c.opcode ≠ 1 →
     (s.ring r).cplEn = false →
     let stopped := fun (i : Instr) (status : Nat) => s.stopsWith r c 6 status (exec i s)
     (listedOpcode c.opcode = false → stopped (.reservedOpcode r) 1) ∧
     (c.opcode = 0x00 → c.headerOk = false → stopped (.ovNop r) 3) ∧
     (c.opcode = 0x11 → c.length ≠ (if bitAt (c.word 1) 14 then 2 else 1) → stopped (.ovAdd r) 2) ∧
     (c.opcode = 0x11 → c.length = (if bitAt (c.word 1) 14 then 2 else 1) →
       c.headerOk = false ∨ 20 < c.op 1 4 5 ∨ c.op 1 16 16 ≠ 0 → stopped (.ovAdd r) 3) ∧
     (c.opcode = 0x02 → c.length = 1 → c.headerOk = true → c.op 1 21 3 = 0 → c.op 1 25 7 = 0 →
       (s.ring r).kind = 0 → stopped (.ovJump r) 6)) ∧
  (∀ (r : RingId) (c : Cur) (s : State), s.settled = true → s.starts r c → c.opcode = 0 →
     let x := s.ring r
     (x.kind = 0 → s.recordWanted r c 0 = false →
       ∃ t, exec (.ovNop r) s = .next t ∧ (t.ring r).head = (x.head + (c.length + 4) / 4) % 2 ^ 32 ∧
         (t.ring r).tail = x.tail ∧ (t.ring r).state = .running ∧ (t.ring r).done = (x.done + 1) % 2 ^ 32 ∧
         (t.ring r).fetched = x.fetched.drop (4 * ((c.length + 4) / 4)) ∧
         ∀ q : RingId, q ≠ r → t.ring q = s.ring q) ∧
     (x.kind = 0 → s.recordWanted r c 0 = true →
       let dst := 4 * (r / 4) + x.cpl
       let y := s.ring dst
       let item : Rec := { type := 1, status := 0, tag := c.tag, retried := c.retried, from_ := r,
                           body := [BitVec.ofNat 32 c.progress, reg32 [place c.pos 0 17], 0] }
       (y.kind = 1 → y.state = .running → y.translated = false → x.cpl < 4 → s.recordMay dst item = true →
         y.slots ≤ 65536 →
         ∃ t, exec (.ovNop r) s = .next t ∧ (t.ring dst).tail = (y.tail + 1) % 2 ^ 32 ∧
           (t.ring dst).head = y.head ∧ (t.ring dst).done = (y.done + 1) % 2 ^ 32 ∧ (t.ring dst).state = .running ∧
           OutMsg.write (r / 4) (y.base + 16 * (y.tail % y.slots))
             (wordBytes (item.header y.size y.tail)) false false ∈ t.out) ∧
       (y.kind ≠ 1 ∨ y.state ≠ .running →
         ∃ t, exec (.ovNop r) s = .next t ∧ (t.ring dst).lost = satInc32 y.lost ∧ onlyEnds s t)))

/-- R332, R343, R344, R380: WAIT_TIME and WAIT_EVENT end at once where what they wait for has come, else
they wait without a pair; the end of the wait lets the thread run them to their end. A WAIT_EVENT
consumes the doorbell or the pulse it found, and one that times out has status 0x12.
Completes: waitTime, waitEvent, waitTimeEnd, waitEventEnd, waitEventTimeout.
Where it rests on the model's choices: log entry 25. -/
def Obligations.Waits : Prop :=
  (∀ (r : RingId) (c : Cur) (s : State), s.settled = true → s.runs r c →
    (c.opcode = 0x07 ∨ c.opcode = 0x08 → c.started = true → ∀ v, c.reply = some (0, v) →
      (c.opcode = 0x07 → s.ends r c c.next 0 (exec (.waitTime r) s)) ∧
      (c.opcode = 0x08 → c.op 1 0 3 = 0 →
        State.ends (s.modThr r (fun t => { t with dbPend := false })) r c c.next 0 (exec (.waitEvent r) s))) ∧
    (c.opcode = 0x08 → c.started = true → c.op 1 0 3 ≠ 1 → ∀ v, c.reply = some (0x12, v) →
      s.ends r c c.next 0x12 (exec (.waitEvent r) s)) ∧
    (s.starts r c →
      (c.opcode = 0x07 → c.op 1 2 2 = 0 → c.op 1 8 24 = 0 →
        let x := (s.thr r).reg (c.op 1 4 4)
        (c.op 1 0 2 = 0 → c.length = 2 → s.waits r (.delay (c.word 2)) (exec (.waitTime r) s)) ∧
        (c.op 1 0 2 = 1 → c.length = 1 → s.waits r (.delay x) (exec (.waitTime r) s)) ∧
        (c.op 1 0 2 = 2 → c.length = 1 →
          (s.shadow < x → s.waits r (.deadline x) (exec (.waitTime r) s)) ∧
          (x ≤ s.shadow → s.ends r c c.next 0 (exec (.waitTime r) s)))) ∧
      (c.opcode = 0x08 → c.length = 2 → c.op 1 3 13 = 0 → c.op 1 28 4 = 0 →
        let i := c.op 1 16 12
        (c.op 1 0 3 = 0 → i = 0 → (s.ring r).kind = 2 →
          ((s.thr r).dbPend = true →
            State.ends (s.modThr r (fun t => { t with dbPend := false })) r c c.next 0 (exec (.waitEvent r) s)) ∧
          ((s.thr r).dbPend = false → s.waits r (.event 0 0 (c.word 2)) (exec (.waitEvent r) s))) ∧
        (c.op 1 0 3 = 2 → i = 0 →
          ((s.thr r).ppsPend = true →
            State.ends (s.modThr r (fun t => { t with ppsPend := false })) r c c.next 0
              (exec (.waitEvent r) s)) ∧
          ((s.thr r).ppsPend = false → s.waits r (.event 2 0 (c.word 2)) (exec (.waitEvent r) s))) ∧
        (c.op 1 0 3 = 1 → s.ownsPartner r i = true →
          ((s.partner i).frames ≠ [] → s.ends r c c.next 0 (exec (.waitEvent r) s)) ∧
          ((s.partner i).frames = [] → s.portState (s.partner i).port ≠ 5 →
            s.waits r (.event 1 i (c.word 2)) (exec (.waitEvent r) s)))))) ∧
  (∀ (r : RingId) (s : State), s.settled = true →
    let told := fun (status : Nat) => s.modThr r (fun t => { t with
      wait := .none, cur := t.cur.map (fun c => { c with reply := some (status, 0) }) })
    (∀ n, (s.thr r).wait = .delay n → answersLike (exec (.waitTimeEnd r) s) (told 0)) ∧
    (∀ n, (s.thr r).wait = .deadline n →
      answersLike (exec (.waitTimeEnd r) s) (if n ≤ s.shadow then told 0 else s)) ∧
    (∀ a b n, (s.thr r).wait = .event a b n →
      answersLike (exec (.waitEventEnd r) s) (if s.eventHolds r a b then told 0 else s) ∧
      answersLike (exec (.waitEventTimeout r) s)
        (if n = 0 ∨ s.eventHolds r a b = true then s else told 0x12)))

/-- R15, R350 to R356, R75: RD_DIA and WR_DIA of the harbour buffer that the tenant owns read and write
the words named. RD_FAB and WR_FAB, and a RD_DIA or WR_DIA of an island that is not sealed, are
presented to its logic, or wait behind the access in progress there; the instruction ends when the
answer has come, with its status, a read leaving XD at 0 where that is an error. While an earlier
access of its ring is still to come (R16), none of the four is made and the thread stays as it is.
R17, R18, R352, R379: an access that the charter denies ends CHARTER_DENIED, a write changing nothing
and a read leaving XD at 0; an access at an address that does not exist or is not aligned reads as zero
and writes nothing; an offset of RD_FAB or WR_FAB past the island is BAD_RANGE.
Completes: rdDia, wrDia, rdFab, wrFab.
Where it rests on the model's choices: log entries 27, 33. -/
def Obligations.DeviceAccess : Prop :=
  ∀ (r : RingId) (c : Cur) (s : State), s.settled = true → s.runs r c →
    let rdOff := s.src r (c.op 1 4 5) + c.word 2
    let wrOff := s.src r (c.op 1 5 5) + c.word 2
    let got := fun (v : Nat) => s.modThr r (fun t => t.setReg (c.op 1 0 4) v)
    (s.starts r c → c.length = 2 → s.behindOwn r = false →
      let shown := fun (cmd : Instr) (w : Bool) (i off v : Nat) (upper : Option Word) =>
        ∃ t, exec cmd s = .next t ∧ (t.thr r).wait = .fabric i ∧ (t.thr r).pair = (s.thr r).pair ∧
          (let a : FabAccess :=
             { write := w, addr := off / 4, data := BitVec.ofNat 32 v, upper := upper, who := .ring r }
           let u := (s.isl i).ureg
           (t.isl i).ureg = if u.busy = none then { u with busy := some a, shown := false, ack := none }
             else { u with waiting := u.waiting ++ [a] }) ∧
          (∀ j : IslandId, j.val ≠ i → t.isl j = s.isl j) ∧ t.rings = s.rings ∧ t.harbour = s.harbour
      let serves := fun (i off n : Nat) => s.ownsIsland r i = true ∧ (s.isl i).sealed = false ∧
        s.uregMode i ≠ 0 ∧ off < 0x40000 ∧ off % n = 0 ∧ (s.uregMode i = 2 → off < 0x100)
      (c.opcode = 0x20 → c.op 1 4 5 ≤ 20 → c.op 1 10 22 = 0 →
        let n := if bitAt (c.word 1) 9 then 8 else 4
        let a := rdOff % 2 ^ 32
        (a % n = 0 → a + n ≤ 0x800000 → s.ownsBytes r a n = true → s.harbourBad = [] → s.harbourSoft = [] →
          State.ends (got (leNat (memRead 0 s.harbour a n))) r c c.next 0 (exec (.rdDia r) s)) ∧
        (∀ (i : IslandId) (off : Nat), a = 0x1000000 + 0x40000 * i + off → serves i off n →
          shown (.rdDia r) false i off 0 (if n = 8 then some 0 else none)) ∧
        (a % n = 0 → a + n ≤ 0x800000 → s.denies (r / 4) a false = true →
          State.ends (got 0) r c c.next 0x21 (exec (.rdDia r) s)) ∧
        (a % n ≠ 0 ∨ (0x800000 ≤ a ∧ a < 0x1000000) ∨ 0x8040000 ≤ a →
          State.ends (got 0) r c c.next 0 (exec (.rdDia r) s))) ∧
      (c.opcode = 0x21 → c.op 1 0 5 ≤ 20 → c.op 1 5 5 ≤ 20 → c.op 1 11 21 = 0 →
        let n := if bitAt (c.word 1) 10 then 8 else 4
        let a := wrOff % 2 ^ 32
        let v := s.src r (c.op 1 0 5)
        (a % n = 0 → a + n ≤ 0x800000 → s.ownsBytes r a n = true → s.harbourBad = [] → s.harbourSoft = [] →
          State.ends { s with harbour := memWrite 0 s.harbour a (leBytes n v) } r c c.next 0
            (exec (.wrDia r) s)) ∧
        (∀ (i : IslandId) (off : Nat), a = 0x1000000 + 0x40000 * i + off → serves i off n →
          shown (.wrDia r) true i off (v % 2 ^ 32)
            (if n = 8 then some (BitVec.ofNat 32 (v / 2 ^ 32)) else none)) ∧
        (a % n = 0 → a + n ≤ 0x800000 → s.denies (r / 4) a true = true →
          s.ends r c c.next 0x21 (exec (.wrDia r) s)) ∧
        (a % n ≠ 0 ∨ (0x800000 ≤ a ∧ a < 0x1000000) ∨ 0x8040000 ≤ a →
          s.ends r c c.next 0 (exec (.wrDia r) s))) ∧
      (c.op 1 16 6 ≤ 47 → c.op 1 22 10 = 0 →
        let i := c.op 1 16 6
        (c.opcode = 0x22 → c.op 1 4 5 ≤ 20 → c.op 1 9 7 = 0 →
          (serves i rdOff 4 → shown (.rdFab r) false i rdOff 0 none) ∧
          (s.ownsIsland r i = false → rdOff < 0x40000 → rdOff % 4 = 0 →
            State.ends (got 0) r c c.next 0x21 (exec (.rdFab r) s))) ∧
        (c.opcode = 0x23 → c.op 1 0 5 ≤ 20 → c.op 1 5 5 ≤ 20 → c.op 1 10 6 = 0 →
          (serves i wrOff 4 → shown (.wrFab r) true i wrOff (s.src r (c.op 1 0 5) % 2 ^ 32) none) ∧
          (s.ownsIsland r i = false → wrOff < 0x40000 → wrOff % 4 = 0 →
            s.ends r c c.next 0x21 (exec (.wrFab r) s))))) ∧
    (s.starts r c → c.length = 2 → c.op 1 16 6 ≤ 47 → c.op 1 22 10 = 0 →
      (c.opcode = 0x22 → c.op 1 4 5 ≤ 20 → c.op 1 9 7 = 0 →
        (s.behindOwn r = false → 0x40000 ≤ rdOff → s.ends r c c.next 0x20 (exec (.rdFab r) s)) ∧
        (s.behindOwn r = true → answersLike (exec (.rdFab r) s) s)) ∧
      (c.opcode = 0x23 → c.op 1 0 5 ≤ 20 → c.op 1 5 5 ≤ 20 → c.op 1 10 6 = 0 →
        (s.behindOwn r = false → 0x40000 ≤ wrOff → s.ends r c c.next 0x20 (exec (.wrFab r) s)) ∧
        (s.behindOwn r = true → answersLike (exec (.wrFab r) s) s))) ∧
    (s.starts r c → c.length = 2 → s.behindOwn r = true →
      (c.opcode = 0x20 → c.op 1 4 5 ≤ 20 → c.op 1 10 22 = 0 → answersLike (exec (.rdDia r) s) s) ∧
      (c.opcode = 0x21 → c.op 1 0 5 ≤ 20 → c.op 1 5 5 ≤ 20 → c.op 1 11 21 = 0 →
        answersLike (exec (.wrDia r) s) s)) ∧
    (c.started = true → ∀ status v, c.reply = some (status, v) → status ≠ 8 → stops status = false →
      let read := got (if status = 0 then v else 0)
      (c.opcode = 0x20 → State.ends read r c c.next status (exec (.rdDia r) s)) ∧
      (c.opcode = 0x21 → s.ends r c c.next status (exec (.wrDia r) s)) ∧
      (c.opcode = 0x22 → State.ends read r c c.next status (exec (.rdFab r) s)) ∧
      (c.opcode = 0x23 → s.ends r c c.next status (exec (.wrFab r) s)))

/-- R357, R358, R379 to R381: a transfer of no bytes ends at once. COPY_IN waits for its data and writes
a unit when it has come; COPY_OUT reads a unit and waits for its writes; MOVE copies a unit, up to
the next 4 KiB-aligned destination. The last unit ends the instruction. A unit that reads or writes
the harbour buffer is not released while an earlier access of its ring is still to come (R16).
Completes: copyIn, copyOut, ovMove.
Where it rests on the model's choices: log entry 27. -/
def Obligations.DataMovement : Prop :=
  ∀ (r : RingId) (c : Cur) (s : State), s.settled = true → s.runs r c → s.harbourBad = [] →
    s.harbourSoft = [] →
    let free := s.behindOwn r = false
    (s.behindOwn r = true →
      (c.opcode = 0x30 → c.started = true → c.staged.isSome = true → answersLike (exec (.copyIn r) s) s) ∧
      (c.started = true → (c.opcode = 0x31 → answersLike (exec (.copyOut r) s) s) ∧
        (c.opcode = 0x32 → answersLike (exec (.ovMove r) s) s))) ∧
    (s.starts r c → c.op 1 0 5 ≤ 20 → c.op 1 5 5 ≤ 20 → c.op 1 10 5 ≤ 20 → c.op 1 15 17 = 0 →
      (c.length = 5 →
        let host := (s.src r (c.op 1 0 5) + c.word 2 + 2 ^ 32 * c.word 3) % 2 ^ 64
        let dia := (s.src r (c.op 1 5 5) + c.word 4) % 2 ^ 32
        let len := s.src r (c.op 1 10 5) + c.word 5
        let part := min len (4096 - host % 4096)
        (len = 0 → (c.opcode = 0x30 → c.staged = none → s.ends r c c.next 0 (exec (.copyIn r) s)) ∧
          (c.opcode = 0x31 → free → s.ends r c c.next 0 (exec (.copyOut r) s))) ∧
        (0 < len → dia + len ≤ 0x800000 → s.ownsBytes r dia len = true → s.ownsBytes r dia part = true →
          let waiting := fun (cmd : Instr) (staged : Option (List Byte)) =>
            ∃ t, exec cmd s = .next t ∧ onlyEnds s t ∧ (t.thr r).wait = .dma ∧ (t.thr r).pair = none ∧
              (t.thr r).cur = some { c with started := true, a0 := host, a1 := dia, len := len, staged := staged }
          (c.opcode = 0x30 → c.staged = none → waiting (.copyIn r) none) ∧
          (c.opcode = 0x31 → free → waiting (.copyOut r) (some (memRead 0 s.harbour dia part))))) ∧
      (c.opcode = 0x32 → c.length = 4 → c.progress = 0 → free →
        let src := (s.src r (c.op 1 0 5) + c.word 2) % 2 ^ 32
        let dst := (s.src r (c.op 1 5 5) + c.word 3) % 2 ^ 32
        let len := s.src r (c.op 1 10 5) + c.word 4
        src + len ≤ 0x800000 → dst + len ≤ 0x800000 → src + len ≤ dst ∨ dst + len ≤ src →
        s.ownsBytes r src len = true → s.ownsBytes r dst len = true → 0 < len → dst % 4096 + len ≤ 4096 →
        State.ends { s with harbour := memWrite 0 s.harbour dst (memRead 0 s.harbour src len) } r c c.next 0
          (exec (.ovMove r) s))) ∧
    (c.opcode = 0x30 → c.started = true → free → ∀ bytes, c.staged = some bytes →
      let host := (c.a0 + c.progress) % 2 ^ 64
      let a := c.a1 + c.progress
      let len := min (c.len - c.progress) (4096 - host % 4096)
      bytes.length = len → a + len ≤ 0x800000 → s.ownsBytes r a len = true →
      let written := { s with harbour := memWrite 0 s.harbour a bytes }
      (c.progress + len = c.len → written.ends r c c.next 0 (exec (.copyIn r) s)) ∧
      (c.progress + len ≠ c.len →
        ∃ t, exec (.copyIn r) s = .next t ∧ onlyEnds written t ∧
          (t.thr r).cur = some { c with
            progress := c.progress + len, xl := none, staged := none, reply := none, dest := none }))

/-- R170, R171, R174, R359 to R365: the fabric instructions on an island that the tenant owns. SEAL
seals it, BEGIN opens its load, LOAD writes the frame of a good record, READ copies a frame to the
harbour buffer, and RELEASE asks for the island's leave, or ends where there is nothing to release.
BEGIN, LOAD and READ wait for an earlier access of their ring (R16); LOAD stays at its record while
X11, and READ at its frame while X12, is forced full (R24, R27, R520), its addresses kept and
nothing written.
Completes: islandSeal, frameBegin, islandRelease, frameLoad, frameRead.
Where it rests on the model's choices: log entries 22, 25. -/
def Obligations.FabricInstructions : Prop :=
  ∀ (r : RingId) (c : Cur) (i : IslandId) (s : State), s.settled = true → s.leave.queue = [] → s.runs r c →
    s.harbourBad = [] → s.harbourSoft = [] → s.ownsIsland r i = true →
    let x := s.isl i
    let ended := fun (t : State) => s.recordWanted r c 0 = false → (t.thr r).s = 0 ∧
      ((s.ring r).kind = 2 → (t.thr r).pc = c.next)
    (s.starts r c → c.op 1 0 6 = i.val →
      (c.opcode = 0x40 → c.length = 1 → c.op 1 6 26 = 0 →
        ∃ t, exec (.islandSeal r) s = .next t ∧ ended t ∧ (t.isl i).sealed = true ∧
          (t.isl i).command = true ∧ (x.sealed = false → (t.isl i).user = s.initBits i ∧
            (t.isl i).leave = {} ∧ (t.isl i).ureg = {} ∧ (t.isl i).cause = 0) ∧
          (∀ j, j ≠ i.val → t.isl j = s.isl j) ∧ t.frames = s.frames ∧ t.harbour = s.harbour) ∧
      (c.opcode = 0x41 → c.length = 2 → c.op 1 8 5 ≤ 20 → c.op 1 6 2 = 0 → c.op 1 13 19 = 0 →
        let a := (s.src r (c.op 1 8 5) + c.word 2) % 2 ^ 32
        let p := bytesWords (memRead 0 s.harbour a 1064)
        a + 1064 ≤ 0x800000 → s.ownsBytes r a 1064 = true → x.sealed = true → s.islandBusy i = false → s.behindOwn r = false →
        ∀ bitmap, islandManifest i p = some bitmap →
        ∃ t, exec (.frameBegin r) s = .next t ∧ ended t ∧ (t.isl i).loadState = .open ∧
          (t.isl i).frameLoad = some
            { ring := r, bitmap := bitmap, count := wordAt p 1, digest := wordsBytes ((p.drop 2).take 8) } ∧
          (∀ j, j ≠ i.val → t.isl j = s.isl j) ∧ t.frames = s.frames ∧ t.harbour = s.harbour) ∧
      (c.opcode = 0x44 → c.length = 2 → c.op 1 6 26 = 0 →
        (x.sealed = false → s.ends r c c.next 0 (exec (.islandRelease r) s)) ∧
        (x.sealed = true → s.releaseRefusal i = none → x.release = none → s.leave.arriving = [] →
          ∃ t, exec (.islandRelease r) s = .next t ∧ (t.thr r).wait = .release i ∧ (t.thr r).pair = none ∧
            (t.isl i).release = some { mech := .instruction, rings := [r.val] } ∧
            (t.isl i).sealed = true ∧ t.leave.arriving.length = 1 ∧
            (∀ q ∈ t.leave.arriving, q.cost = field (s.leave.irelReg i) 0 12) ∧
            (∀ j, j ≠ i.val → t.isl j = s.isl j) ∧ t.frames = s.frames))) ∧
    (c.opcode = 0x44 → c.op 1 0 6 = i.val → c.started = true → ∀ v, c.reply = some (0, v) →
      s.ends r c c.next 0 (exec (.islandRelease r) s)) ∧
    (s.starts r c → c.length = 3 → c.op 1 0 5 ≤ 20 → c.op 1 5 27 = 0 → c.progress = 0 → ∀ n,
      denseOf (c.op 2 0 16) = some n →
      let a := (s.src r (c.op 1 0 5) + c.word 3) % 2 ^ 32
      let stays := fun (cmd : Instr) (x : Cur) => ∃ t, exec cmd s = .next t ∧ onlyEnds s t ∧
        (t.thr r).cur = some { x with started := true } ∧ (t.thr r).pair = (s.thr r).pair
      (c.opcode = 0x42 → n / 168 = i.val → n < 8064 → c.op 2 24 8 = 0 → 1 ≤ c.op 2 16 8 → c.op 2 16 8 ≤ 168 →
        a + 260 * c.op 2 16 8 ≤ 0x800000 → s.ownsBytes r a (260 * c.op 2 16 8) = true →
        s.ownsBytes r a 260 = true → ∀ f, x.frameLoad = some f → f.ring = r.val → x.loadState = .open →
        let rec_ := bytesWords (memRead 0 s.harbour a 260)
        (∀ k, f.last = some k → k < n) → f.bitmap.getLsbD (n % 168) = true →
        recordCrc (c.op 2 0 16) (rec_.take 64) = rec_.getD 64 0 → f.written + 1 ≠ f.count →
        s.behindOwn r = false →
        (s.forcedFull 11 = true → stays (.frameLoad r) { c with a0 := a, a1 := 0, len := 260 * c.op 2 16 8 }) ∧
        (s.forcedFull 11 = false → ∃ t, exec (.frameLoad r) s = .next t ∧
          (t.frame n).data = BitVec.ofNat 2048 (wordsNat (rec_.take 64)) ∧
          (t.frame n).check = checkWord (faddrOf n) (t.frame n).data ∧
          (∀ m, m ≠ n → t.frame m = s.frame m) ∧
          (t.isl i).frameLoad = some { f with
            last := some n, written := f.written + 1
            sha := shaMore f.sha (leBytes 2 (faddrOf n) ++ wordsBytes (rec_.take 64)) } ∧
          t.harbour = s.harbour ∧ (∀ j, j ≠ i.val → t.isl j = s.isl j))) ∧
      (c.opcode = 0x43 → c.op 2 30 2 = 0 → c.op 2 16 14 = 1 → a + 256 ≤ 0x800000 →
        s.ownsBytes r a 256 = true → s.mayReadFrame (r / 4) n = true → s.behindOwn r = false →
        (s.forcedFull 12 = true → stays (.frameRead r) { c with a0 := 0, a1 := a, len := 256 }) ∧
        (s.forcedFull 12 = false →
          State.ends { s with harbour := memWrite 0 s.harbour a (leBytes 256 (s.frame n).data.toNat) } r c
            c.next 0 (exec (.frameRead r) s)))) ∧
    (s.behindOwn r = true → c.started = true →
      (c.opcode = 0x42 → answersLike (exec (.frameLoad r) s) s) ∧
      (c.opcode = 0x43 → answersLike (exec (.frameRead r) s) s))

/-- R102 to R105, R366: CAPTURE waits for an edge of its line, or while the fabric is frozen takes its
snapshot at once; an edge since its start gives the instruction the registers of the islands named
as that edge left them, and no edge in time gives it CLOCK_STOPPED; taking it changes no register,
clock or frame. The stamp is within 6 ns of the time it is taken. The snapshot is written where the
instruction ends, behind an earlier access of its ring (R16).
Completes: ovCapture, captureEdge, captureTimeout.
Where it rests on the model's choices: log entry 29. -/
def Obligations.Captures : Prop :=
  (∀ (r : RingId) (c : Cur) (s : State), s.settled = true → s.runs r c → c.opcode = 0x45 →
    s.harbourBad = [] → s.harbourSoft = [] →
    let l := c.op 1 0 4
    let islands := (List.range 48).filter (bitAt (c.word 2 + 2 ^ 32 * c.word 3))
    let a := (s.src r (c.op 1 4 5) + c.word 4) % 2 ^ 32
    let len := 16 + 72 * islands.length
    (s.starts r c → c.length = 4 → c.op 1 4 5 ≤ 20 → c.op 1 9 23 = 0 → c.op 3 16 16 = 0 → islands ≠ [] →
      a + len ≤ 0x800000 → s.ownsBytes r a len = true → (∀ i ∈ islands, s.ownsIsland r i = true) →
      tabGet (fun _ => none) s.clocks.captures l = none →
      (s.mode.frozen = false →
        ∃ t, exec (.ovCapture r) s = .next t ∧ (t.thr r).wait = .capture l ∧
          (t.thr r).pair = (s.thr r).pair ∧
          tabGet (fun _ => none) t.clocks.captures l =
            some { ring := r, islands := BitVec.ofNat 48 (c.word 2 + 2 ^ 32 * c.word 3) } ∧
          t.islands = s.islands ∧ t.harbour = s.harbour ∧ t.rings = s.rings) ∧
      (s.mode.frozen = true → s.behindOwn r = false →
        let got := s.captured l islands
        let stamp := (s.edgeStamp (time64 s.tb.sec s.tb.nsec)).1
        let bytes := leBytes 8 stamp ++ leBytes 8 (capturedMask got) ++
          got.flatMap (fun e => leBytes 72 ((e.2.map BitVec.toNat).getD 0))
        (∃ d : Fin 13, stamp = (time64 s.tb.sec s.tb.nsec + 2 ^ 64 + d.val - 6) % 2 ^ 64) ∧
        State.ends { s with harbour := memWrite 0 s.harbour a bytes } r c c.next 0 (exec (.ovCapture r) s))) ∧
    (c.started = true → ∀ mask bytes, c.reply = some (0, mask) → c.staged = some bytes → c.a1 < 0x800000 →
      (s.behindOwn r = false →
        State.ends { s with harbour := memWrite 0 s.harbour c.a1 bytes } r c c.next 0 (exec (.ovCapture r) s)) ∧
      (s.behindOwn r = true → answersLike (exec (.ovCapture r) s) s))) ∧
  (∀ (l : LineId) (cap : Capture) (s : State), s.settled = true → cap.ring < 32 →
    tabGet (fun _ => none) s.clocks.captures l = some cap → (s.thr cap.ring).wait = .capture l → ∀ c,
    (s.thr cap.ring).cur = some c →
    let taken := fun (cmd : Instr) (x : Cur) => ∃ t, exec cmd s = .next t ∧
      tabGet (fun _ => none) t.clocks.captures l = none ∧
      t.clocks = { s.clocks with captures := t.clocks.captures } ∧
      t.thr cap.ring = { s.thr cap.ring with wait := .none, cur := some x } ∧
      (∀ r : RingId, r.val ≠ cap.ring → t.thr r = s.thr r) ∧
      t.islands = s.islands ∧ t.harbour = s.harbour ∧ t.rings = s.rings ∧ t.frames = s.frames
    (cap.edge = none →
      answersLike (exec (.captureEdge l) s) s ∧
      taken (.captureTimeout l) { c with reply := some (0x25, 0) }) ∧
    (∀ time got, cap.edge = some (time, got) →
      let stamp := (s.edgeStamp time).1
      (∃ d : Fin 13, stamp = (time + 2 ^ 64 + d.val - 6) % 2 ^ 64) ∧
      taken (.captureEdge l) { c with
        staged := some (leBytes 8 stamp ++ leBytes 8 (capturedMask got) ++
          got.flatMap (fun e => leBytes 72 ((e.2.map BitVec.toNat).getD 0)))
        reply := some (0, capturedMask got) } ∧
      answersLike (exec (.captureTimeout l) s) s))

/-- R367 to R371, R422 to R424: the port instructions on a partner entry and a port that the tenant
owns. PORT_XMIT hands a frame to an ACTIVE port, and ends with the port's outcome; PORT_ARM arms the
entry; PARTNER_POLL delivers the oldest frame as a record and ends where none is left; STAMP gives
the time. PORT_XMIT's start, PORT_ARM, a poll's next frame, and STAMP where it stores, come behind
an earlier access of the ring (R16).
Completes: portXmit, portArm, partnerPoll, ovStamp.
Where it rests on the model's choices: log entries 27, 28, 60. -/
def Obligations.PortInstructions : Prop :=
  ∀ (r : RingId) (c : Cur) (s : State), s.settled = true → s.runs r c → s.harbourBad = [] →
    s.harbourSoft = [] →
    let i := c.op 1 0 12
    let p := (s.partner i).port
    let owned := s.ownsPartner r i = true ∧ s.ownsPort r p = true ∧ s.partnerFails i = false
    (c.opcode = 0x50 → owned →
      (s.starts r c → c.length = 3 → c.op 1 12 5 ≤ 20 → c.op 1 17 7 = 0 → c.op 1 28 4 = 0 →
        s.behindOwn r = false →
        let n := c.op 3 0 11
        1 ≤ n → c.op 3 11 21 = 0 →
        let a := (s.src r (c.op 1 12 5) + c.word 2) % 2 ^ 32
        let bytes := memRead 0 s.harbour a n
        a + n ≤ 0x800000 → s.ownsBytes r a n = true →
        (s.portActive p = true → (s.port p).starting = false →
          (s.txCheck p i bytes = none → s.txRoom p n = true →
            ∃ t, exec (.portXmit r) s = .next t ∧ (t.thr r).wait = .tx p ∧ (t.thr r).pair = none ∧
              t.port p = { s.port p with
                txq := (s.port p).txq ++ [{ ring := r, partner := i, bytes := bytes }] } ∧
              (∀ q : PortId, q.val ≠ p → t.port q = s.port q) ∧ t.harbour = s.harbour ∧ t.rings = s.rings) ∧
          (∀ reason, s.txCheck p i bytes = some reason →
            State.ends (s.modPort p (fun x => { x with txFailed := min 0xFFFFFFFF (x.txFailed + 1) })) r c
              c.next 0x13 (exec (.portXmit r) s))) ∧
        (s.portState p = 5 → s.ends r c c.next 0x2A (exec (.portXmit r) s)) ∧
        (s.portState p < 4 → s.ends r c c.next 0x2B (exec (.portXmit r) s))) ∧
      (c.started = true → c.a0 + c.op 3 0 11 ≤ 0x800000 → s.ownsBytes r c.a0 (c.op 3 0 11) = true →
        ∀ status v, c.reply = some (status, v) →
        (status = 0 → State.ends (s.modThr r (fun t => t.setReg (c.op 1 24 4) v)) r c c.next 0
          (exec (.portXmit r) s)) ∧
        (status = 0x13 → s.ends r c c.next 0x13 (exec (.portXmit r) s)))) ∧
    (c.opcode = 0x51 → s.starts r c → owned → c.length = 2 → c.op 1 16 5 ≤ 20 → c.op 1 15 1 = 0 →
      c.op 1 21 11 = 0 → s.portActive p = true → (s.port p).starting = false → s.leave.queue = [] →
      (s.behindOwn r = true → answersLike (exec (.portArm r) s) s) ∧
      (s.behindOwn r = false →
      (c.op 1 12 2 = 0 →
        State.ends ((s.modPort p (fun x => { x with due := x.due.filter (· != i) })).modPartner i
          (fun x => { x with arm := 0, trigger := none })) r c c.next 0 (exec (.portArm r) s)) ∧
      (c.op 1 12 2 = 1 ∨ c.op 1 12 2 = 2 →
        ∃ t, exec (.portArm r) s = .next t ∧ (t.partner i).arm = c.op 1 12 2 ∧
          (∀ j : PartnerId, j.val ≠ i → t.partner j = s.partner j) ∧ t.harbour = s.harbour ∧
          (s.recordWanted r c 0 = false → (t.thr r).s = 0)))) ∧
    (c.opcode = 0x52 → s.starts r c → owned → c.length = 1 → c.op 1 20 4 = 0 → c.op 1 28 4 = 0 →
      c.progress = 0 → c.taken = none →
      (s.begunRing r = none → s.behindOwn r = true → answersLike (exec (.partnerPoll r) s) s) ∧
      (s.behindOwn r = false →
      ((s.partner i).frames = [] → s.portState p ≠ 5 →
        State.ends (s.modThr r (fun t => t.setReg (c.op 1 24 4) 0)) r c c.next 0
          (exec (.partnerPoll r) s)) ∧
      (∀ f rest o, (s.partner i).frames = f :: rest → s.partnerOwner i = some o → f.len ≤ 112 →
        c.op 1 12 8 = 1 →
        let dst := 4 * o + (s.partner i).ring
        let payload := ((s.storedBytes (s.partner i) f).drop 16).take 112
        let body := [reg32 [place f.len 0 11, 2 ^ 16, place f.epoch 24 8], BitVec.ofNat 32 (lo32 f.stamp),
          BitVec.ofNat 32 (hi32 f.stamp)] ++ bytesWords payload
        let item : Rec := { type := 2, status := 0, tag := i, retried := c.retried, from_ := r
                            body := padBody body }
        (s.ring dst).accepts = true → (s.ring dst).translated = false → s.recordMay dst item = true → dst < 32 →
        ∃ t, exec (.partnerPoll r) s = .next t ∧ (t.partner i).frames = rest ∧
          (t.thr r).reg (c.op 1 24 4) = (if c.op 1 24 4 = 0 then 0 else 1) ∧
          ((s.ring r).cplEn = false →
            (t.ring dst).tail = ((s.ring dst).tail + item.slots) % 2 ^ 32 ∧ (t.thr r).s = 0) ∧
          (∀ j : PartnerId, j.val ≠ i → t.partner j = s.partner j) ∧ t.harbour = s.harbour))) ∧
    (c.opcode = 0x53 → s.starts r c → c.length = 2 → c.op 1 8 5 ≤ 20 → c.op 1 14 18 = 0 →
      let stamped := fun (s' : State) => s'.modThr r (fun t =>
        (t.setReg (c.op 1 0 4) s.shadow).setReg (c.op 1 4 4) s.shadowEpoch)
      let a := (s.src r (c.op 1 8 5) + c.word 2) % 2 ^ 32
      (bitAt (c.word 1) 13 = false → (stamped s).ends r c c.next 0 (exec (.ovStamp r) s)) ∧
      (bitAt (c.word 1) 13 = true → s.behindOwn r = true → answersLike (exec (.ovStamp r) s) s) ∧
      (bitAt (c.word 1) 13 = true → a + 16 ≤ 0x800000 → s.ownsBytes r a 16 = true → s.behindOwn r = false →
        State.ends (stamped { s with
          harbour := memWrite 0 s.harbour a
            (leBytes 8 s.shadow ++ leBytes 2 s.shadowEpoch ++ leBytes 1 r ++ leBytes 5 0) }) r c c.next 0
          (exec (.ovStamp r) s)))

/-- R372 to R378: LEAVE_REQ asks for a lease and ends with its handle; LEAVE_REL gives one back, or has
status 0x33; EMIT produces a record, which a ring that does not take it loses; SIGNAL sends a
vector, or keeps its ferry until X2 takes the message (R27); LOG_MARK writes an entry.
Completes: leaveReq, leaveRel, ovSignal, logMark, ovEmit.
Where it rests on the model's choices: log entries 18, 22, 28. -/
def Obligations.PowerAndNotify : Prop :=
  ∀ (r : RingId) (c : Cur) (s : State), s.settled = true → s.leave.queue = [] → s.runs r c →
    (c.opcode = 0x60 →
      (s.starts r c → c.length = 3 → c.op 1 0 12 ≠ 0 → c.op 1 14 2 = 0 → c.op 1 20 12 = 0 →
        1 ≤ c.op 2 0 20 → c.op 2 0 20 ≤ 1000000 → c.op 2 20 12 = 0 →
        s.leave.programLeases (r / 4) < 16 →
        ∃ t, exec (.leaveReq r) s = .next t ∧ (t.thr r).wait = .leave ∧ (t.thr r).pair = none ∧
          t.leave.arriving = s.leave.arriving ++
            [{ who := .program r, cost := c.op 1 0 12, prio := c.op 1 12 2, duration := c.op 2 0 20
               timeout := if c.word 3 = 0 then 1000 * s.leave.defTimeout else c.word 3, at_ := s.coreNs }] ∧
          t.leave.leases = s.leave.leases ∧ t.rings = s.rings) ∧
      (c.started = true → ∀ h, c.reply = some (0, h) →
        State.ends (s.modThr r (fun t => t.setReg (c.op 1 16 4) h)) r c c.next 0 (exec (.leaveReq r) s))) ∧
    (s.starts r c → c.length = 1 →
      (c.opcode = 0x61 → c.op 1 0 5 ≤ 20 → c.op 1 5 27 = 0 →
        let h := s.src r (c.op 1 0 5) % 65536
        (s.leave.leases.any (fun x => x.handle == h && x.programOf (r / 4)) = true →
          ∃ t, exec (.leaveRel r) s = .next t ∧
            t.leave.leases = s.leave.leases.filter (fun x => x.handle != h) ∧
            (s.recordWanted r c 0 = false → (t.thr r).s = 0) ∧ t.islands = s.islands) ∧
        (s.leave.leases.any (fun x => x.handle == h && x.programOf (r / 4)) = false →
          s.ends r c c.next 0x33 (exec (.leaveRel r) s))) ∧
      (c.opcode = 0x71 → 16 ≤ c.op 1 0 6 → c.op 1 6 26 = 0 →
        (s.signalWaits r c = false → s.ends r c c.next 0 (exec (.ovSignal r) s)) ∧
        (s.signalWaits r c = true → ∃ t, exec (.ovSignal r) s = .next t ∧
          (t.thr r).pair = (s.thr r).pair ∧ (t.thr r).cur = some { c with started := true } ∧
          t.rings = s.rings) ∧
        ((s.fn (r / 4)).msixEn = true → s.vecBlocked (r / 4) (c.op 1 0 6) = false →
          (s.msx (r / 4) (c.op 1 0 6)).pend = false → s.msixWaits = false →
          ∃ t, exec (.ovSignal r) s = .next t ∧
            OutMsg.msix (r / 4) (c.op 1 0 6) (s.msx (r / 4) (c.op 1 0 6)).addr
              (s.msx (r / 4) (c.op 1 0 6)).data ∈ t.out)) ∧
      (c.opcode = 0x72 → c.op 1 16 5 ≤ 20 → c.op 1 21 11 = 0 →
        s.ends r c c.next 0 (exec (.logMark r) s) ∧
        (s.shows = true → (s.ring r).kind = 0 → (s.ring r).cplEn = false →
          s.log.policy = false → s.log.recent = [] → s.log.lost = 0 →
          ∃ t, exec (.logMark r) s = .next t ∧
            tabGet (fun _ => none) t.log.slots (s.log.next % 4096) = some
              { time := s.shadow, seq := s.log.next, code := 0x0901, sev := 0, tenant := r / 4
                payload := leBytes 2 (c.op 1 0 16) ++ leBytes 1 r ++ [0] ++ leBytes 8 (s.src r (c.op 1 16 5))
                epoch := s.shadowEpoch, born := s.coreNs }))) ∧
    (c.opcode = 0x70 → s.starts r c → c.op 1 2 2 = 0 → c.op 1 4 5 ≤ 30 → c.length = 1 + c.op 1 4 5 →
      c.op 1 13 5 ≤ 20 → c.op 1 18 2 = 0 →
      let dst := 4 * (r / 4) + c.op 1 0 2
      let item : Rec := { type := 3, status := 0, tag := c.op 1 20 12, retried := c.retried, from_ := r
                          body := padBody ((c.words.drop 2).take (c.op 1 4 5)) }
      ((s.ring dst).accepts = false →
        s.ends r c c.next 0 (exec (.ovEmit r) s) ∧
        ∃ t, exec (.ovEmit r) s = .next t ∧
          ((s.ring r).cplEn = false → (t.ring dst).lost = min 0xFFFFFFFF ((s.ring dst).lost + 1))) ∧
      ((s.ring dst).accepts = true → (s.ring dst).translated = false → s.recordMay dst item = true →
        s.ends r c c.next 0 (exec (.ovEmit r) s) ∧
        ∃ t, exec (.ovEmit r) s = .next t ∧
          ((s.ring r).cplEn = false →
            (t.ring dst).tail = ((s.ring dst).tail + item.slots) % 2 ^ 32)))

/-- R415, R416, R418: a write of an entry's word 0 by its owner, where the requester reaches the
registers. Setting VALID runs the checks and answers VALID or the check's code, and a VALID entry
keeps its PORT; clearing VALID disarms, and counts the frames stored in REJECTED; CLR_TALLY clears
both tallies. An ACTIVE I3C port is to address a partner made VALID that is not LEGACY (R466, R467).
An SPI port's state may follow its partners (R461). A read of a tally's low word latches its high
word for that requester alone.
Completes: partnerValidate, partnerInvalidate, clrTally, tallyLoRead.
Where it rests on the model's choices: log entries 28, 36, 59, 60. -/
def Obligations.Partners : Prop :=
  ∀ (who : Requester) (i : PartnerId) (s : State), s.settled = true → s.mode.mode ≠ .reset →
    s.behind = [] → s.outstanding who = false →
    ownedBy (s.partnerOwner i) (reqTenant who) = true →
    let x := s.partner i
    let alone := fun (o : Host.Outcome State Fault Refusal) (y : Partner) (changed : Bool) =>
      ∃ t, o = .next t ∧ t.partner i = y ∧ (∀ j : PartnerId, j ≠ i → t.partner j = s.partner j) ∧
        (∀ q : PortId, q.val ≠ y.port → t.port q = s.port q) ∧ t.rings = s.rings ∧ t.harbour = s.harbour ∧
        t.tallyLatch = s.tallyLatch ∧
        ((s.port y.port).seen = s.portState y.port → s.portType y.port ≠ 4 →
          t.threads = s.threads ∧ ∀ q : PortId, q.val = y.port →
            t.port q = if changed ∧ s.portType q = 5 then { s.port q with
                unaddressed := (s.port q).unaddressed.filter (· != i.val) ++
                  if y.valid = true ∧ s.portActive q = true ∧ y.addr0.testBit 7 = false then [i.val] else [] }
              else s.port q)
    ((∀ q, who = .window q → s.reachable q = true) → ∀ v : Word,
      let n := v.toNat
      let y : Partner := { x with
        ring := if reqTenant who = 0 then field n 12 2 else x.ring
        schedEn := n.testBit 20, schedRing := field n 21 2
        accepted := if n.testBit 19 then 0 else x.accepted
        rejected := if n.testBit 19 then 0 else x.rejected }
      (x.valid = false → field n 0 7 < 96 →
        let z : Partner := { y with port := field n 0 7 }
        let chk := (s.modPartner i (fun _ => z)).partnerCheck i
        alone (exec (.partnerValidate who i v) s)
          (if chk = 0 then { z with valid := true, chk := 0, pos := 0, frames := [], final := false }
            else { z with chk := chk }) true ∧
        alone (exec (.partnerInvalidate who i v) s) z false) ∧
      (x.valid = true →
        alone (exec (.partnerValidate who i v) s) y false ∧
        alone (exec (.partnerInvalidate who i v) s) { y with
          valid := false, arm := 0, trigger := none, frames := []
          rejected := min (2 ^ 48 - 1) (y.rejected + x.frames.length) } true ∧
        (n.testBit 7 = true →
          alone (exec (.clrTally who i v) s) { y with accepted := 0, rejected := 0 } false))) ∧
    ((∀ q, who = .window q → s.reachable q = true ∧ s.forcedFull 4 = false) → s.partnerBad = [] →
      ∀ rejected : Bool,
      let tally := if rejected then x.rejected else x.accepted
      ∃ t, exec (.tallyLoRead who i rejected) s = .next t ∧
        t.tallyHi who i rejected = tally / 2 ^ 32 % 2 ^ 32 ∧
        (∀ (other : Requester) (j : PartnerId) (b : Bool), reqLatch other < 64 →
          (reqLatch other, j.val, b) ≠ (reqLatch who, i.val, rejected) → reqLatch who < 64 →
          t.tallyHi other j b = s.tallyHi other j b) ∧
        (∀ q, who = .window q → OutMsg.cpl q [BitVec.ofNat 32 (tally % 2 ^ 32)] ∈ t.out) ∧
        t.partners = s.partners ∧ t.ports = s.ports ∧ t.harbour = s.harbour)

/-- R417 to R421, R449, R450, R453 to R455, R459 to R463, R468 to R470, R472, R474, R519: a frame that
ends at an ACTIVE port without an error goes into X18 with its stamp and the payload its protocol
forms, or is counted in HP_RX_OVERFLOW where X18 is full; one with an error, or one that the test
unit corrupts, counts in HP_RX_ERRORS; so does a frame of FD format at a CAN port without it, a SENT
or PSI5 frame whose pulses or bits are none of the setup's, and a frame of 10BASE-T1S whose length
or FCS is wrong. A port in bus-off receives nothing, nor does SPI or I3C without a transfer, nor
10BASE-T1S what another address has. The transfer that an SPI or I3C frame ends is in progress no
more. PORT_FRAME_RECEIVED takes the oldest frame of X18: no partner matches, or the partner is not
armed or has no room, or the frame is stored with its descriptor in the partner's area.
Completes: portFrameEnd, portFrameReceived.
Where it rests on the model's choices: log entries 28, 35, 36, 56, 58. -/
def Obligations.PortReceives : Prop :=
  ∀ (p : PortId) (s : State), s.settled = true →
    let x := s.port p
    let alone := fun (o : Host.Outcome State Fault Refusal) (y : Port) =>
      ∃ t, o = .next t ∧ t.port p = y ∧ (∀ q : PortId, q ≠ p → t.port q = s.port q) ∧
        t.harbour = s.harbour ∧ t.rings = s.rings ∧ t.threads = s.threads
    let up := fun (n : Nat) => min (2 ^ 32 - 1) (n + 1)
    (s.portActive p = true → ∀ stamp steps : Nat,
      let ends := fun (c : WireContent) => exec (.portFrameEnd p { content := c, stamp := stamp, stepsSince := steps }) s
      let rx := fun (payload : List Byte) => ({
        payload := payload, stamp := stamp % 2 ^ 64
        epoch := (s.tb.epoch + 2 ^ 16 - steps % 2 ^ 16) % 2 ^ 16 } : RxFrame)
      let good := fun (c : WireContent) (y : Port) (payload : List Byte) (also : RxFrame → RxFrame) =>
        (s.rxFull p payload.length = false → alone (ends c) { y with
          rxGood := up x.rxGood, rxq := x.rxq ++ [also (rx payload)] }) ∧
        (s.rxFull p payload.length = true → alone (ends c) { y with
          rxGood := up x.rxGood, rxOverflow := up x.rxOverflow })
      let refused := fun (c : WireContent) (y : Port) => alone (ends c) { y with rxErrors := up x.rxErrors }
      let type := s.portType p
      (∀ c, s.corrupts p = true →
        s.portReceives p { content := c, stamp := stamp, stepsSince := steps } = true →
        ∃ t, ends c = .next t ∧ (t.port p).rxErrors = up x.rxErrors ∧ (t.port p).rxq = x.rxq ∧
          (t.port p).rxGood = x.rxGood ∧ (∀ q : PortId, q ≠ p → t.port q = s.port q) ∧
          (let n := tabGet (fun _ => 0) s.ptu.rxCorrupt p
           tabGet (fun _ => 0) t.ptu.rxCorrupt p = if n % 65536 = 0 then n else n - 1)) ∧
      (s.corrupts p = false →
        (type = 1 → ∀ f : CanFrame,
          let c := WireContent.can f
          let header := fun (n : Nat) => leBytes 4 (f.id + flag f.ide 29 + flag f.rtr 30) ++ leBytes 4 n
          let failed := fun (last : Nat) => refused c { x with
            rec_ := min 255 (x.rec_ + 1 + 8 * f.eights), lastError := last }
          (x.busOff = true → alone (ends c) x) ∧
          (x.busOff = false →
            (f.error = 0 → f.fdf = false ∨ s.setup p 3 0 1 = 1 → f.id < (if f.ide then 2 ^ 29 else 2 ^ 11) →
              f.dlc < 16 → ∀ bytes,
              (f.rtr = true ∧ f.fdf = false ∧ bytes = header f.dlc) ∨
                (f.rtr = false ∧ f.data.length = dlcBytes f.dlc f.fdf ∧ bytes = header (f.dlc + flag f.fdf 4 +
                  flag (f.brs && f.fdf) 5 + flag (f.esi && f.fdf) 6) ++ f.data) →
              (x.rec_ ≤ 127 → good c { x with rec_ := x.rec_ - 1 } bytes id) ∧
              (127 < x.rec_ → ∃ n, 119 ≤ n ∧ n ≤ 127 ∧ good c { x with rec_ := n } bytes id)) ∧
            (f.error = 0 → f.fdf = true → s.setup p 3 0 1 = 0 → failed 4) ∧
            (f.error ≠ 0 → failed (f.error % 8)))) ∧
        (type = 2 → x.due = [] → ∀ (cal : Nat) (pulses : List Nat),
          let slot := if s.setup p 1 17 1 = 1 then x.follow.getD 4 else 0
          let y : Port := { x with requested := none, follow := none, lastCal := some cal }
          (s.sentNibbles p cal pulses = none →
            refused (.sent cal pulses) { y with serial := tabSet (fun _ => []) x.serial slot [] }) ∧
          (∀ l, s.sentNibbles p cal pulses = some l → s.setup p 1 15 2 = 0 →
            good (.sent cal pulses) { y with lastTick := (cal + 28) / 56 % 2 ^ 17 }
              (sentFast cal l) (fun g => { g with slot := slot }))) ∧
        (type = 3 → ∀ (data bits check : Nat) (violation : Bool),
          let c := WireContent.psi data bits check violation
          let sync := s.setup p 1 1 1
          let window := s.psiWindow p { content := c, stamp := stamp, stepsSince := steps }
          (window = none → refused c x) ∧
          (∀ j k, window = some (j, k) →
            let y : Port := { x with syncs := x.syncs.modify j (fun i => { i with had := i.had ||| 2 ^ k }) }
            let second := sync = 1 ∧ x.windowHad j k = true
            (violation = true ∨ s.psiPasses p data bits check = false ∨ second → refused c y) ∧
            (violation = false → s.psiPasses p data bits check = true → ¬ second →
              good c { y with slotSeen := if j = 0 then x.slotSeen ||| 2 ^ k else x.slotSeen }
                (leBytes 4 (field data 0 28) ++ leBytes 4 (place (s.setup p 1 2 5) 0 5 + place k 5 3 +
                  place (if sync = 1 then (x.syncCount + 2 ^ 16 - j % 2 ^ 16) % 2 ^ 16 else 0) 8 16))
                (fun g => { g with slot := k })))) ∧
        (type = 4 ∨ type = 5 → s.transferOf p = none → ∀ (data : List Byte) (error : Bool),
          alone (ends (.spi data)) x ∧ alone (ends (.i3c data error)) x) ∧
        (x.due = [] → ∀ (i len : Nat) (ccc : Bool), s.transferOf p = some (i, len, ccc) →
          let y : Port := if x.busy.isSome = true then { x with busy := none } else { x with clocked := true }
          let of := fun (g : RxFrame) => { g with partner := some i }
          (type = 4 → ∀ data : List Byte, data.length = len → good (.spi data) y
            (if s.sigBound p 2 = true then (s.partner i).spiWords data else data.map (fun _ => 0)) of) ∧
          (type = 5 → ∀ data : List Byte,
            good (.i3c data false) y
              (leBytes 4 (flag (decide (data.length < len)) 9 + flag ccc 10) ++ data.take len) of ∧
            refused (.i3c data true) y ∧
            (i < 4096 → ∃ t, ends (.i3c data true) = .next t ∧
              t.partner i = { s.partner i with rejected := min (2 ^ 48 - 1) ((s.partner i).rejected + 1) }))) ∧
        (type = 6 → ∀ (bytes : List Byte) (error : Bool),
          let body := bytes.take (bytes.length - 4)
          let right := t1sLength body = true ∧ bytes.drop (bytes.length - 4) = wordBytes (fcs body)
          (6 ≤ bytes.length → s.t1sAccepts p bytes = false → alone (ends (.t1s bytes error)) x) ∧
          (s.t1sAccepts p bytes = true →
            (error = false → right → good (.t1s bytes error) x body id) ∧
            (error = true ∨ ¬ right → refused (.t1s bytes error) x))))) ∧
    (∀ f rest, x.rxq = f :: rest →
      (s.matchFrame p f = none →
        alone (exec (.portFrameReceived p) s) { x with rxq := rest, rxUnmatched := up x.rxUnmatched } ∧
        ∃ t, exec (.portFrameReceived p) s = .next t ∧ t.partners = s.partners) ∧
      (∀ i, s.matchFrame p f = some i →
        let y := s.partner i
        let len := f.payload.length
        let units := (16 + len + 63) / 64
        let unit := fun (k : Nat) => y.segment * 65536 + y.areaBase * 64 + 64 * ((y.pos + k) % y.areaSize)
        (y.arm = 0 ∨ y.areaSize < (y.frames.map Stored.units).sum + units →
          alone (exec (.portFrameReceived p) s) { x with rxq := rest } ∧
          ∃ t, exec (.portFrameReceived p) s = .next t ∧
            t.partner i = { y with rejected := min (2 ^ 48 - 1) (y.rejected + 1) } ∧
            (∀ j : PartnerId, j.val ≠ i → t.partner j = s.partner j)) ∧
        (y.arm ≠ 0 → (y.frames.map Stored.units).sum + units ≤ y.areaSize → memWf 0 s.harbour = true →
          ∃ t, exec (.portFrameReceived p) s = .next t ∧ t.port p = { x with rxq := rest } ∧
            t.partner i = { y with
              pos := (y.pos + units) % y.areaSize
              frames := y.frames ++ [{ unit := y.pos, units := units, len := len, stamp := f.stamp
                                       epoch := f.epoch }]
              accepted := min (2 ^ 48 - 1) (y.accepted + 1), lastStamp := f.stamp, lastEpoch := f.epoch
              arm := if y.arm = 1 then 0 else y.arm } ∧
            (∀ j : PartnerId, j.val ≠ i → t.partner j = s.partner j) ∧
            ((List.range units).flatMap (fun k => memRead 0 t.harbour (unit k) 64)).take (16 + len) =
              leBytes 8 f.stamp ++ leBytes 2 len ++ leBytes 2 f.epoch ++ leBytes 4 0 ++ f.payload ∧
            (∀ a, (∀ k < units, a < unit k ∨ unit k + min 64 (16 + len - 64 * k) ≤ a) →
              memRead 0 t.harbour a 1 = memRead 0 s.harbour a 1) ∧
            (y.schedEn = true → ∀ o, s.partnerOwner i = some o → o < 8 →
              (s.ring (4 * o + y.schedRing)).kind = 2 → (s.ring (4 * o + y.schedRing)).state = .running →
              y.schedRing < 4 → (t.thr (4 * o + y.schedRing)).dbPend = true) ∧
            t.rings = s.rings)))

/-- R368, R410, R412, R441, R449, R450: the outcome of the frame that a port sends: success puts the
bytes on the pins, ESI of a CAN frame as 0, and gives the thread the stamp, a failure counts and
gives it status 0x13 with the reason; errors that take a CAN port's counter past 255 make it bus-off
and end every frame handed to it. A RETIRED port is in state 5 for good; a write of RUN starts and
stops a port, and a port that stops ends its frames.
Completes: portTxOutcome, canTxTimeout, portRetire, portRunWrite.
Where it rests on the model's choices: log entries 28, 35. -/
def Obligations.PortSends : Prop :=
  ∀ (p : PortId) (s : State), s.settled = true →
    let x := s.port p
    let others := fun (t : State) => (∀ q : PortId, q ≠ p → t.port q = s.port q) ∧
      t.partners = s.partners ∧ t.harbour = s.harbour ∧ t.frames = s.frames
    let up := fun (n k : Nat) => min (2 ^ 32 - 1) (n + k)
    let told := fun (t : State) (r status value : Nat) => r < 32 → (t.thr r).wait = .none ∧
      (t.thr r).cur = (s.thr r).cur.map (fun c => { c with reply := some (status, value) })
    (s.portActive p = true → ∀ f rest, x.txq = f :: rest → x.due = [] →
      (∀ o : WireOutcome, s.outcomeOk p o = true → x.busOff = false →
        (s.portType p ≠ 1 ∨ o.errors = [] →
          let y : Port := { x with
            txq := rest, clocked := false
            tdc := if s.portType p = 1 then (o.tdc.getD x.tdc) % 128 else x.tdc
            collisions := if s.portType p = 6 then min 65535 (x.collisions + o.collisions) else x.collisions }
          (o.reason = 0 → x.tec ≤ 255 → ∃ t, exec (.portTxOutcome p o) s = .next t ∧
            t.port p = { y with tec := x.tec - 1, txGood := up x.txGood 1 } ∧
            told t f.ring 0 (o.stamp % 2 ^ 64) ∧ OutMsg.portTx p (s.txBytes p f) ∈ t.out ∧
            (s.portType p = 1 →
              OutMsg.portTx p (f.bytes.mapIdx (fun k b => if k = 4 then b &&& 0xBF#8 else b)) ∈ t.out) ∧
            (s.portType p = 4 → OutMsg.portTx p (if s.sigBound p 1 = true then
              (s.partner f.partner).spiWords f.bytes else []) ∈ t.out) ∧ others t) ∧
          (o.reason ≠ 0 → x.tec ≤ 255 → ∃ t, exec (.portTxOutcome p o) s = .next t ∧
            t.port p = { y with txFailed := up x.txFailed 1 } ∧ told t f.ring 0x13 o.reason ∧ others t)) ∧
        (s.portType p = 1 → 255 < o.errors.foldl canTec x.tec →
          ∃ t, exec (.portTxOutcome p o) s = .next t ∧ (t.port p).busOff = true ∧ (t.port p).txq = [] ∧
            (t.port p).txFailed = up x.txFailed x.txq.length ∧
            (∀ g ∈ x.txq, told t g.ring 0x13 5) ∧ others t)) ∧
      (s.portType p = 1 → s.setup p 3 7 9 ≠ 0 → ∃ t, exec (.canTxTimeout p) s = .next t ∧
        t.port p = { x with txq := rest, clocked := false, txFailed := up x.txFailed 1 } ∧ told t f.ring 0x13 4 ∧ others t)) ∧
    (s.mode.mode ≠ .reset → x.seen = s.portState p →
      (x.retired = false → ∀ cause : Fin 4, cause.val ≠ 0 →
        ∃ t, exec (.portRetire p cause) s = .next t ∧ (t.port p).retired = true ∧ (t.port p).cause = cause ∧
          t.portState p = 5 ∧ (s.portState p = 4 → (t.port p).txq = [] ∧ ∀ f ∈ x.txq, told t f.ring 0x13 10) ∧
          t.log.faultStatus.getLsbD 2 = true ∧ others t) ∧
      (s.x1Holds = false → ∀ run : Bool,
        let now := (s.modPort p (fun y => { y with run := run })).portState p
        ∃ t, exec (.portRunWrite p run) s = .next t ∧ (t.port p).run = run ∧ t.portState p = now ∧
          (now = s.portState p → t.port p = { x with run := run }) ∧
          (s.portState p = 4 → now ≠ 4 → t.port p = { x with
            run := run, seen := now, txq := [], starting := false
            txFailed := up x.txFailed x.txq.length } ∧
            ∀ f ∈ x.txq, told t f.ring 0x13 10) ∧
          (s.portState p ≠ 4 → now = 4 → t.port p = { x.protoReset with
            run := run, seen := 4, starting := s.portType p == 5 && s.setup p 1 24 1 == 1 }) ∧ others t))

/-- R369, R434, R442, R450, R456, R457, R460, R463, R467, R469: what single protocols add. A trigger
time reached starts the transfer of its partner, or where one is in progress the transfer follows
it; the next pulse of SENT's and PSI5's sequences goes out, SPI's periodic transfer, or one skipped;
CAN's recovery from bus-off; I3C's interrupts, whose stamp has the epoch it was taken in, and its
start sequence, which puts RSTDAA, DISEC, SETDASA, ENTDAA and ENEC on the bus and gives each target
found its partner's address.
Completes: canRecover, canRecovered, sentNoResponse, psi5Sync, i3cIbi, redoDaa, i3cStartSequence,
portArmTrigger, sentSpcPulse, spiPeriodicTransfer.
Where it rests on the model's choices: log entries 34, 36, 56, 60. -/
def Obligations.PortProtocols : Prop :=
  (∀ (p : PortId) (s : State), s.settled = true →
    let x := s.port p
    let alone := fun (o : Host.Outcome State Fault Refusal) (y : Port) =>
      ∃ t, o = .next t ∧ t.port p = y ∧ (∀ q : PortId, q ≠ p → t.port q = s.port q) ∧
        t.partners = s.partners ∧ t.harbour = s.harbour ∧ t.rings = s.rings ∧ t.threads = s.threads
    let up := fun (n : Nat) => min (2 ^ 32 - 1) (n + 1)
    (s.portType p = 1 →
      (s.mode.mode ≠ .reset → s.x1Holds = false →
        alone (exec (.canRecover p) s) { x with recovering := x.recovering || x.busOff }) ∧
      (s.portActive p = true → x.busOff = true → x.recovering = true →
        alone (exec (.canRecovered p) s) { x with
          busOff := false, recovering := false, tec := 0, rec_ := 0 })) ∧
    (s.portActive p = true → s.portType p = 2 → x.due = [] → ∀ slot, x.requested = some slot →
      alone (exec (.sentNoResponse p) s) { x with
        requested := none, noResponse := min 255 (x.noResponse + 1) }) ∧
    (s.portActive p = true → s.portType p = 3 → s.setup p 1 1 1 = 1 → ∀ i : PartnerId,
      (s.partner i).valid = true → (s.partner i).port = p.val → (s.partner i).arm = 2 →
      (s.partner i).trigger = none →
      alone (exec (.psi5Sync p) s) { x with
        syncCount := (x.syncCount + 1) % 2 ^ 16, slotSeen := 0, pulseEnd := s.coreNs + 4000
        syncs := { times := [time64 s.tb.sec s.tb.nsec], at_ := s.coreNs } :: keepSyncs s.coreNs x.syncs } ∧
      ∃ t, exec (.psi5Sync p) s = .next t ∧ OutMsg.pulse p 1 4000 ∈ t.out) ∧
    (s.portActive p = true → s.portType p = 5 →
      (∀ (da : Nat) (mdb : Byte) (data : List Byte) (stamp : Nat),
        ((∃ e ∈ s.partnersOf p, e.2.addr0.testBit 16 = true ∧ field e.2.addr0 0 7 = da) →
          s.corrupts p = false → s.rxFull p (4 + min 255 data.length) = false →
          alone (exec (.i3cIbi p da mdb data stamp) s) { x with
            rxGood := up x.rxGood
            rxq := x.rxq ++ [{ payload := [mdb, 1, 0, 0] ++ data.take 255, stamp := stamp % 2 ^ 64
                               epoch := (s.tb.epoch + 2 ^ 16 - stamp / 2 ^ 64 % 2 ^ 16) % 2 ^ 16
                               ibi := some da }] }) ∧
        ((∀ e ∈ s.partnersOf p, e.2.addr0.testBit 16 = false ∨ field e.2.addr0 0 7 ≠ da) →
          alone (exec (.i3cIbi p da mdb data stamp) s) { x with rxUnmatched := up x.rxUnmatched })) ∧
      (s.x1Holds = false → alone (exec (.redoDaa p) s) { x with starting := true, daaDone := false, addrs := [] }) ∧
      (∀ scan : I3cScan, x.starting = true → x.due = [] →
        let mine := s.i3cPartners p
        let named := fun (pid : Nat) => mine.find? (fun y => y.addr1 + 2 ^ 32 * field y.addr2 0 16 == pid)
        (∀ pid ∈ scan.pids, (named pid).isSome = true) →
        let da := fun (y : Partner) => field y.addr0 0 7
        ∃ t, exec (.i3cStartSequence p scan) s = .next t ∧
          t.port p = { x with
            starting := false, daaDone := true, addrs := (t.port p).addrs, unaddressed := [] } ∧
          (∀ a, a ∈ (t.port p).addrs ↔
            (∃ y ∈ mine, da y = a ∧ y.addr0.testBit 15 = true ∧ field y.addr0 8 7 ∈ scan.acks) ∨
            ∃ pid ∈ scan.pids, (named pid).map da = some a) ∧
          OutMsg.portTx p [0xFC, 0x06] ∈ t.out ∧ OutMsg.portTx p [0xFC, 0x01, 0x0B] ∈ t.out ∧
          OutMsg.portTx p [0xFC, 0x07] ∈ t.out ∧
          (∀ y ∈ mine, y.addr0.testBit 15 = true → OutMsg.portTx p
            [0xFC, 0x87, BitVec.ofNat 8 (2 * field y.addr0 8 7), BitVec.ofNat 8 (2 * da y)] ∈ t.out) ∧
          (∀ y ∈ mine, y.addr0.testBit 16 = true → OutMsg.portTx p
            [0xFC, 0x80, BitVec.ofNat 8 (2 * da y), 0x01] ∈ t.out) ∧
          (∀ q : PortId, q ≠ p → t.port q = s.port q) ∧ t.partners = s.partners ∧ t.harbour = s.harbour ∧
          (∀ r : RingId, (s.thr r).wait = .txSpace p → (t.thr r).wait = .none)))) ∧
  (∀ (i : PartnerId) (s : State), s.settled = true →
    let x := s.partner i
    let p := x.port
    x.valid = true → p < 96 → s.portActive p = true → x.arm ≠ 0 →
    let fill := if s.sigBound p 1 = true then
      x.spiWords (List.replicate (field x.addr1 0 11) (BitVec.ofNat 8 (field x.addr1 16 8))) else []
    let begins := fun (t : State) (m : OutMsg) (y : Port) =>
      if (s.port p).transferring then t.port p = { s.port p with due := (s.port p).due ++ [i.val] }
      else m ∈ t.out ∧ t.port p = y
    let busy : Port := { s.port p with busy := some i.val }
    let slot := field x.addr0 0 2
    let width := 100 * s.setup p 1 0 10 * s.setup p 2 (8 * slot) 8
    let requests := fun (t : State) => begins t (.pulse p 1 width)
      { s.port p with requested := some slot, follow := some slot, pulseEnd := s.coreNs + width }
    let still := fun (t : State) => (∀ j : PartnerId, j ≠ i → t.partner j = s.partner j) ∧
      (∀ q : PortId, q.val ≠ p → t.port q = s.port q) ∧ t.harbour = s.harbour ∧ t.rings = s.rings
    (∀ time, x.trigger = some time → time ≤ time64 s.tb.sec s.tb.nsec →
      ∃ t, exec (.portArmTrigger i) s = .next t ∧ t.partner i = { x with trigger := none } ∧
        (s.portType p = 4 → begins t (.portTx p fill) busy) ∧
        (s.portType p = 5 → begins t (.portTx p [BitVec.ofNat 8 (2 * field x.addr0 0 7 + 1)]) busy) ∧
        (s.portType p = 2 → s.setup p 1 17 1 = 1 → requests t) ∧ still t) ∧
    (x.arm = 2 → x.trigger = none →
      (s.portType p = 2 → s.setup p 1 17 1 = 1 → ∃ t, exec (.sentSpcPulse i) s = .next t ∧
        requests t ∧ t.partner i = x ∧ still t) ∧
      (s.portType p = 4 →
        (∃ t, exec (.spiPeriodicTransfer i false) s = .next t ∧ begins t (.portTx p fill) busy ∧
          t.partner i = x ∧ still t) ∧
        (∃ t, exec (.spiPeriodicTransfer i true) s = .next t ∧
          t.port p = { s.port p with skipped := min (2 ^ 32 - 1) ((s.port p).skipped + 1) } ∧
          t.partner i = x ∧ still t))))

/-- R342: COND of BRANCH. The branch is taken where the condition holds; a reserved COND ends with
BAD_FIELD, which stops the ring; and after CMP A, B the condition LTU, which is C = 1, holds exactly
when A is below B.
Completes: ovBranch, ovCmp. -/
def Obligations.BranchConditions : Prop :=
  ∀ (r : RingId) (c : Cur) (s : State), s.settled = true → s.starts r c → (s.ring r).kind = 2 →
    let t := s.thr r
    (c.opcode = 0x03 → c.length = 1 → c.op 1 17 3 = 0 → c.op 1 24 8 = 0 →
      let cond := c.op 1 20 4
      let went := fun (b : Bool) => s.ends r c (if b then c.op 1 0 17 else c.next) 0 (exec (.ovBranch r) s)
      (cond = 0 → went t.z) ∧ (cond = 1 → went (!t.z)) ∧ (cond = 2 → went t.c) ∧ (cond = 3 → went (!t.c)) ∧
      (cond = 4 → went t.n) ∧ (cond = 5 → went (!t.n)) ∧ (cond = 6 → went (t.c || t.z)) ∧
      (cond = 7 → went (!t.c && !t.z)) ∧ (cond = 8 → went (t.s == 0)) ∧ (cond = 9 → went (t.s != 0)) ∧
      (cond = 10 → went (t.s == 0x12)) ∧
      (11 ≤ cond → s.ends r c c.next 0x03 (exec (.ovBranch r) s) ∧
        ((s.ring r).cplEn = false → s.stopsWith r c 6 0x03 (exec (.ovBranch r) s)))) ∧
    (c.opcode = 0x17 → c.op 1 0 4 = 0 → c.op 1 16 16 = 0 → c.op 1 4 5 ≤ 20 →
      let imm := bitAt (c.word 1) 14
      let w := if bitAt (c.word 1) 15 then 32 else 64
      c.length = (if imm then 2 else 1) → (if imm then c.op 1 9 5 = 0 else c.op 1 9 5 ≤ 20) →
      let a := s.src r (c.op 1 4 5) % 2 ^ w
      let b := (if imm then (if bitAt (c.word 2) 31 then c.word 2 + (2 ^ 64 - 2 ^ 32) else c.word 2)
        else s.src r (c.op 1 9 5)) % 2 ^ w
      ∃ t, exec (.ovCmp r) s = .next t ∧ ((t.thr r).c = true ↔ a < b))

/-- R304, R307: a write of RING_HEAD of a RETURN ring that frees no more than the ring holds is
accepted; any other leaves RING_HEAD as it is and stops the ring with HEAD_OVERRUN. That a ring in
FLUSHING keeps its state, with the fault recorded, is the model's choice of log entry 26. A write of
FLUSH = 1 starts a flush of a ring that is RUNNING, STOPPED or HALTED; on one that is DISABLED or
FLUSHING it does what the same write without FLUSH does.
Completes: ringHeadWrite, ringFlush.
Where it rests on the model's choices: log entry 26. -/
def Obligations.RingRules : Prop :=
  ∀ (r : RingId) (v : Word) (s : State), s.settled = true → s.reachable (r / 4) = true →
    let x := s.ring r
    (x.kind = 1 →
      ((v.toNat + 2 ^ 32 - x.head % 2 ^ 32) % 2 ^ 32 ≤ (x.tail + 2 ^ 32 - x.head % 2 ^ 32) % 2 ^ 32 →
        ∃ t, exec (.ringHeadWrite r v) s = .next t ∧ (t.ring r).head = v.toNat ∧
          (t.ring r).state = x.state) ∧
      ((x.tail + 2 ^ 32 - x.head % 2 ^ 32) % 2 ^ 32 < (v.toNat + 2 ^ 32 - x.head % 2 ^ 32) % 2 ^ 32 →
        ∃ t, exec (.ringHeadWrite r v) s = .next t ∧ (t.ring r).head = x.head ∧
          (t.ring r).state = (if x.state = .flushing then .flushing else .stopped) ∧ (t.ring r).fault = true ∧
          (x.fault = false → (t.ring r).faultCode = 3))) ∧
    (x.state = .running ∨ x.state = .stopped ∨ x.state = .halted →
      ∃ t, exec (.ringFlush r v) s = .next t ∧ (t.ring r).state = .flushing) ∧
    (x.state = .disabled ∨ x.state = .flushing →
      (v.getLsbD 0 = true → exec (.ringFlush r v) s = exec (.ringEnable r (v &&& 0xFFFFEFFF#32)) s) ∧
      (v.getLsbD 0 = false → exec (.ringFlush r v) s = exec (.ringDisable r (v &&& 0xFFFFEFFF#32)) s))

/-- R20: the dense index of a frame address by region, column and minor; every index below 8,192 is the
index of one frame address; and a frame's data is read at 0x0200_0000 + index × 0x100, once no
access of the ring is still to come (R16) and X12 is not forced full (R24, R27).
Completes: rdDia. -/
def Obligations.FrameIndex : Prop :=
  (∀ region column minor : Nat, region < 64 → column < 32 → minor < 32 →
    let index := denseOf (1024 * region + 32 * column + minor)
    (region ≤ 47 →
      (column ≤ 15 → minor ≤ 7 → index = some (region * 168 + column * 8 + minor)) ∧
      (column = 16 → index = some (region * 168 + 128 + minor)) ∧
      (column = 17 → minor ≤ 7 → index = some (region * 168 + 160 + minor))) ∧
    (region = 62 → column ≤ 7 → minor ≤ 11 → index = some (8064 + column * 12 + minor)) ∧
    (region = 63 → column = 0 → index = some (8160 + minor)) ∧
    (∀ n, index = some n → n < 8192 ∧ faddrOf n = 1024 * region + 32 * column + minor)) ∧
  (∀ n < 8192, faddrOf n < 65536 ∧ denseOf (faddrOf n) = some n) ∧
  (∀ (r : RingId) (c : Cur) (s : State), s.settled = true → r / 4 = 0 → s.starts r c → c.opcode = 0x20 →
    c.length = 2 → c.op 1 4 5 ≤ 20 → c.op 1 9 23 = 0 → ∀ n k, n < 8192 → k < 64 →
    (s.src r (c.op 1 4 5) + c.word 2) % 2 ^ 32 = 0x2000000 + n * 0x100 + 4 * k →
    s.forcedFull 12 = false → s.outstanding (.ring r) = false → s.behindOf (.ring r) = false →
    State.ends (s.modThr r (fun t =>
      t.setReg (c.op 1 0 4) ((s.frame n).data.toNat / 2 ^ (32 * k) % 2 ^ 32))) r c c.next 0
      (exec (.rdDia r) s))
end

