-- ==== Sys2Proof/Laws/Tables.lean ====
section
/-! SUPPORT. Sparse tables and byte memories: a read after a write of the same place gives what was
written, a write leaves every other place alone, and every write keeps the canonical form. -/

namespace Sys2Proof.Machine

variable {α : Type} (d : Nat → α)

/-! ## Tables -/

theorem tabGet_tabDel_self (t : Tab α) (k : Nat) : tabGet d (tabDel t k) k = d k := by
  induction t with
  | nil => rfl
  | cons e t ih =>
    obtain ⟨j, v⟩ := e
    by_cases h : j = k
    · simpa [tabDel, h] using ih
    · simpa [tabDel, h, tabGet] using ih

theorem tabGet_tabDel_other (t : Tab α) (k m : Nat) (h : m ≠ k) :
    tabGet d (tabDel t k) m = tabGet d t m := by
  induction t with
  | nil => rfl
  | cons e t ih =>
    obtain ⟨j, v⟩ := e
    by_cases hj : j = k
    · have : j ≠ m := fun e => h (e.symm.trans hj)
      simp only [tabGet, this, if_false, ← ih]
      simp [tabDel, hj]
    · have e : tabDel ((j, v) :: t) k = (j, v) :: tabDel t k := by simp [tabDel, hj]
      rw [e]; simp only [tabGet, ih]

theorem tabGet_tabPut_self (t : Tab α) (k : Nat) (v : α) : tabGet d (tabPut t k v) k = v := by
  induction t with
  | nil => simp [tabPut, tabGet]
  | cons e t ih =>
    obtain ⟨j, w⟩ := e
    unfold tabPut
    split
    · simp [tabGet, *]
    · split <;> simp [tabGet, *]

theorem tabGet_tabPut_other (t : Tab α) (k m : Nat) (v : α) (h : m ≠ k) :
    tabGet d (tabPut t k v) m = tabGet d t m := by
  induction t with
  | nil => simp [tabPut, tabGet, h.symm]
  | cons e t ih =>
    obtain ⟨j, w⟩ := e
    unfold tabPut
    split
    · next hj => simp [tabGet, hj, h.symm]
    · split
      · simp [tabGet, h.symm]
      · simp [tabGet, ih]

theorem tabGet_tabSet_self [DecidableEq α] (t : Tab α) (k : Nat) (v : α) :
    tabGet d (tabSet d t k v) k = v := by
  unfold tabSet
  split
  · next h => rw [tabGet_tabDel_self, h]
  · exact tabGet_tabPut_self d t k v

theorem tabGet_tabSet_other [DecidableEq α] (t : Tab α) (k m : Nat) (v : α) (h : m ≠ k) :
    tabGet d (tabSet d t k v) m = tabGet d t m := by
  unfold tabSet
  split
  · exact tabGet_tabDel_other d t k m h
  · exact tabGet_tabPut_other d t k m v h

theorem tabGet_tabMod_self [DecidableEq α] (t : Tab α) (k : Nat) (f : α → α) :
    tabGet d (tabMod d t k f) k = f (tabGet d t k) := tabGet_tabSet_self d t k _

theorem tabGet_tabMod_other [DecidableEq α] (t : Tab α) (k m : Nat) (f : α → α) (h : m ≠ k) :
    tabGet d (tabMod d t k f) m = tabGet d t m := tabGet_tabSet_other d t k m _ h

/-! ## The canonical form -/

theorem rising_tabDel (lo : Nat) (t : Tab α) (k : Nat) (h : rising lo t = true) :
    rising lo (tabDel t k) = true := by
  have mono : ∀ (t : Tab α) (a b : Nat), a ≤ b → rising b t = true → rising a t = true := by
    intro t a b hab hb
    cases t with
    | nil => rfl
    | cons e t => obtain ⟨j, v⟩ := e; simp [rising] at hb ⊢; exact ⟨by omega, hb.2⟩
  induction t generalizing lo with
  | nil => rfl
  | cons e t ih =>
    obtain ⟨j, v⟩ := e
    simp only [rising, Bool.and_eq_true, decide_eq_true_eq] at h
    by_cases hj : j = k
    · have : tabDel ((j, v) :: t) k = tabDel t k := by simp [tabDel, hj]
      rw [this]
      exact mono _ lo (j + 1) (by omega) (ih (j + 1) h.2)
    · have : tabDel ((j, v) :: t) k = (j, v) :: tabDel t k := by simp [tabDel, hj]
      rw [this]
      simp [rising, h.1, ih (j + 1) h.2]

theorem rising_tabPut (lo : Nat) (t : Tab α) (k : Nat) (v : α) (hk : lo ≤ k) (h : rising lo t = true) :
    rising lo (tabPut t k v) = true := by
  induction t generalizing lo with
  | nil => simp [tabPut, rising, hk]
  | cons e t ih =>
    obtain ⟨j, w⟩ := e
    simp only [rising, Bool.and_eq_true, decide_eq_true_eq] at h
    unfold tabPut
    split
    · simp [rising, h]
    · split
      · next hlt => simp [rising, hk, h.2]; omega
      · next h1 h2 => simp [rising, h.1, ih (j + 1) (by omega) h.2]

theorem mem_tabPut (t : Tab α) (k : Nat) (v : α) (e : Nat × α) (h : e ∈ tabPut t k v) :
    e = (k, v) ∨ e ∈ t := by
  induction t with
  | nil => simpa [tabPut] using h
  | cons x t ih =>
    obtain ⟨j, w⟩ := x
    unfold tabPut at h
    split at h
    · next hj =>
      subst hj
      exact (List.mem_cons.mp h).imp_right (List.mem_cons_of_mem _)
    · split at h
      · exact List.mem_cons.mp h
      · rcases List.mem_cons.mp h with h | h
        · exact .inr (h ▸ List.mem_cons_self)
        · exact (ih h).imp_right (List.mem_cons_of_mem _)

/-! ## Byte memories -/

theorem memSetByte_wf (b : Byte) (m : List (Nat × Byte)) (a : Nat) (v : Byte) (h : memWf b m = true) :
    memWf b (memSetByte b m a v) = true := by
  simp only [memWf, Bool.and_eq_true, List.all_eq_true, bne_iff_ne] at h ⊢
  unfold memSetByte tabSet
  split
  · exact ⟨rising_tabDel 0 m a h.1, fun e he => h.2 e (List.mem_filter.mp he).1⟩
  · next hv =>
    refine ⟨rising_tabPut 0 m a v (Nat.zero_le _) h.1, fun e he => ?_⟩
    rcases mem_tabPut m a v e he with rfl | he
    · exact hv
    · exact h.2 e he

theorem memWrite_wf (b : Byte) (m : List (Nat × Byte)) (a : Nat) (bs : List Byte) (h : memWf b m = true) :
    memWf b (memWrite b m a bs) = true := by
  induction bs generalizing m a with
  | nil => exact h
  | cons v vs ih => exact ih _ _ (memSetByte_wf b m a v h)

theorem memByte_memWrite_other (b : Byte) (m : List (Nat × Byte)) (a x : Nat) (bs : List Byte)
    (h : x < a ∨ a + bs.length ≤ x) : memByte b (memWrite b m a bs) x = memByte b m x := by
  induction bs generalizing m a with
  | nil => rfl
  | cons v vs ih =>
    simp only [List.length_cons] at h
    rw [memWrite, ih (memSetByte b m a v) (a + 1) (by omega)]
    exact tabGet_tabSet_other _ m a x v (by omega)

theorem memRead_memWrite (b : Byte) (m : List (Nat × Byte)) (a : Nat) (bs : List Byte) :
    memRead b (memWrite b m a bs) a bs.length = bs := by
  induction bs generalizing m a with
  | nil => rfl
  | cons v vs ih =>
    simp only [List.length_cons, memRead, memWrite]
    rw [ih, memByte_memWrite_other b _ (a + 1) a vs (by omega)]
    simp only [memByte, memSetByte, tabGet_tabSet_self]

end Sys2Proof.Machine
end

