-- ==== Sys2Proof/Laws/State.lean ====
section
/-! SUPPORT. Every field of the state after every update of one part of it: the part changed, and the
fields left alone. -/

namespace Sys2Proof.Machine.State

variable (s : State)

/-! ## setFrame -/

@[simp] theorem setFrame_pending (n : Nat) (f : Frame) : (s.setFrame n f).pending = s.pending := rfl
@[simp] theorem setFrame_out (n : Nat) (f : Frame) : (s.setFrame n f).out = s.out := rfl
@[simp] theorem setFrame_freeCounter (n : Nat) (f : Frame) : (s.setFrame n f).freeCounter = s.freeCounter := rfl
@[simp] theorem setFrame_coreNs (n : Nat) (f : Frame) : (s.setFrame n f).coreNs = s.coreNs := rfl
@[simp] theorem setFrame_mode (n : Nat) (f : Frame) : (s.setFrame n f).mode = s.mode := rfl
@[simp] theorem setFrame_islands (n : Nat) (f : Frame) : (s.setFrame n f).islands = s.islands := rfl
@[simp] theorem setFrame_clocks (n : Nat) (f : Frame) : (s.setFrame n f).clocks = s.clocks := rfl
@[simp] theorem setFrame_ldr (n : Nat) (f : Frame) : (s.setFrame n f).ldr = s.ldr := rfl
@[simp] theorem setFrame_flash (n : Nat) (f : Frame) : (s.setFrame n f).flash = s.flash := rfl
@[simp] theorem setFrame_chain (n : Nat) (f : Frame) : (s.setFrame n f).chain = s.chain := rfl
@[simp] theorem setFrame_jtag (n : Nat) (f : Frame) : (s.setFrame n f).jtag = s.jtag := rfl
@[simp] theorem setFrame_tide (n : Nat) (f : Frame) : (s.setFrame n f).tide = s.tide := rfl
@[simp] theorem setFrame_behind (n : Nat) (f : Frame) : (s.setFrame n f).behind = s.behind := rfl
@[simp] theorem setFrame_banks (n : Nat) (f : Frame) : (s.setFrame n f).banks = s.banks := rfl
@[simp] theorem setFrame_link (n : Nat) (f : Frame) : (s.setFrame n f).link = s.link := rfl
@[simp] theorem setFrame_fns (n : Nat) (f : Frame) : (s.setFrame n f).fns = s.fns := rfl
@[simp] theorem setFrame_wins (n : Nat) (f : Frame) : (s.setFrame n f).wins = s.wins := rfl
@[simp] theorem setFrame_msix (n : Nat) (f : Frame) : (s.setFrame n f).msix = s.msix := rfl
@[simp] theorem setFrame_tens (n : Nat) (f : Frame) : (s.setFrame n f).tens = s.tens := rfl
@[simp] theorem setFrame_dma (n : Nat) (f : Frame) : (s.setFrame n f).dma = s.dma := rfl
@[simp] theorem setFrame_rings (n : Nat) (f : Frame) : (s.setFrame n f).rings = s.rings := rfl
@[simp] theorem setFrame_threads (n : Nat) (f : Frame) : (s.setFrame n f).threads = s.threads := rfl
@[simp] theorem setFrame_ferry (n : Nat) (f : Frame) : (s.setFrame n f).ferry = s.ferry := rfl
@[simp] theorem setFrame_charter (n : Nat) (f : Frame) : (s.setFrame n f).charter = s.charter := rfl
@[simp] theorem setFrame_ports (n : Nat) (f : Frame) : (s.setFrame n f).ports = s.ports := rfl
@[simp] theorem setFrame_partners (n : Nat) (f : Frame) : (s.setFrame n f).partners = s.partners := rfl
@[simp] theorem setFrame_harbour (n : Nat) (f : Frame) : (s.setFrame n f).harbour = s.harbour := rfl
@[simp] theorem setFrame_harbourBad (n : Nat) (f : Frame) : (s.setFrame n f).harbourBad = s.harbourBad := rfl
@[simp] theorem setFrame_bufCorrected (n : Nat) (f : Frame) : (s.setFrame n f).bufCorrected = s.bufCorrected := rfl
@[simp] theorem setFrame_bufUncorrectable (n : Nat) (f : Frame) : (s.setFrame n f).bufUncorrectable = s.bufUncorrectable := rfl
@[simp] theorem setFrame_harbourSoft (n : Nat) (f : Frame) : (s.setFrame n f).harbourSoft = s.harbourSoft := rfl
@[simp] theorem setFrame_partnerBad (n : Nat) (f : Frame) : (s.setFrame n f).partnerBad = s.partnerBad := rfl
@[simp] theorem setFrame_progMem (n : Nat) (f : Frame) : (s.setFrame n f).progMem = s.progMem := rfl
@[simp] theorem setFrame_progBad (n : Nat) (f : Frame) : (s.setFrame n f).progBad = s.progBad := rfl
@[simp] theorem setFrame_tallyLatch (n : Nat) (f : Frame) : (s.setFrame n f).tallyLatch = s.tallyLatch := rfl
@[simp] theorem setFrame_tb (n : Nat) (f : Frame) : (s.setFrame n f).tb = s.tb := rfl
@[simp] theorem setFrame_leave (n : Nat) (f : Frame) : (s.setFrame n f).leave = s.leave := rfl
@[simp] theorem setFrame_log (n : Nat) (f : Frame) : (s.setFrame n f).log = s.log := rfl
@[simp] theorem setFrame_ptu (n : Nat) (f : Frame) : (s.setFrame n f).ptu = s.ptu := rfl
@[simp] theorem setFrame_ptuHeld (n : Nat) (f : Frame) : (s.setFrame n f).ptuHeld = s.ptuHeld := rfl

/-! ## modIsl -/

@[simp] theorem modIsl_pending (i : Nat) (f : Isl → Isl) : (s.modIsl i f).pending = s.pending := rfl
@[simp] theorem modIsl_out (i : Nat) (f : Isl → Isl) : (s.modIsl i f).out = s.out := rfl
@[simp] theorem modIsl_freeCounter (i : Nat) (f : Isl → Isl) : (s.modIsl i f).freeCounter = s.freeCounter := rfl
@[simp] theorem modIsl_coreNs (i : Nat) (f : Isl → Isl) : (s.modIsl i f).coreNs = s.coreNs := rfl
@[simp] theorem modIsl_mode (i : Nat) (f : Isl → Isl) : (s.modIsl i f).mode = s.mode := rfl
@[simp] theorem modIsl_frames (i : Nat) (f : Isl → Isl) : (s.modIsl i f).frames = s.frames := rfl
@[simp] theorem modIsl_clocks (i : Nat) (f : Isl → Isl) : (s.modIsl i f).clocks = s.clocks := rfl
@[simp] theorem modIsl_ldr (i : Nat) (f : Isl → Isl) : (s.modIsl i f).ldr = s.ldr := rfl
@[simp] theorem modIsl_flash (i : Nat) (f : Isl → Isl) : (s.modIsl i f).flash = s.flash := rfl
@[simp] theorem modIsl_chain (i : Nat) (f : Isl → Isl) : (s.modIsl i f).chain = s.chain := rfl
@[simp] theorem modIsl_jtag (i : Nat) (f : Isl → Isl) : (s.modIsl i f).jtag = s.jtag := rfl
@[simp] theorem modIsl_tide (i : Nat) (f : Isl → Isl) : (s.modIsl i f).tide = s.tide := rfl
@[simp] theorem modIsl_behind (i : Nat) (f : Isl → Isl) : (s.modIsl i f).behind = s.behind := rfl
@[simp] theorem modIsl_banks (i : Nat) (f : Isl → Isl) : (s.modIsl i f).banks = s.banks := rfl
@[simp] theorem modIsl_link (i : Nat) (f : Isl → Isl) : (s.modIsl i f).link = s.link := rfl
@[simp] theorem modIsl_fns (i : Nat) (f : Isl → Isl) : (s.modIsl i f).fns = s.fns := rfl
@[simp] theorem modIsl_wins (i : Nat) (f : Isl → Isl) : (s.modIsl i f).wins = s.wins := rfl
@[simp] theorem modIsl_msix (i : Nat) (f : Isl → Isl) : (s.modIsl i f).msix = s.msix := rfl
@[simp] theorem modIsl_tens (i : Nat) (f : Isl → Isl) : (s.modIsl i f).tens = s.tens := rfl
@[simp] theorem modIsl_dma (i : Nat) (f : Isl → Isl) : (s.modIsl i f).dma = s.dma := rfl
@[simp] theorem modIsl_rings (i : Nat) (f : Isl → Isl) : (s.modIsl i f).rings = s.rings := rfl
@[simp] theorem modIsl_threads (i : Nat) (f : Isl → Isl) : (s.modIsl i f).threads = s.threads := rfl
@[simp] theorem modIsl_ferry (i : Nat) (f : Isl → Isl) : (s.modIsl i f).ferry = s.ferry := rfl
@[simp] theorem modIsl_charter (i : Nat) (f : Isl → Isl) : (s.modIsl i f).charter = s.charter := rfl
@[simp] theorem modIsl_ports (i : Nat) (f : Isl → Isl) : (s.modIsl i f).ports = s.ports := rfl
@[simp] theorem modIsl_partners (i : Nat) (f : Isl → Isl) : (s.modIsl i f).partners = s.partners := rfl
@[simp] theorem modIsl_harbour (i : Nat) (f : Isl → Isl) : (s.modIsl i f).harbour = s.harbour := rfl
@[simp] theorem modIsl_harbourBad (i : Nat) (f : Isl → Isl) : (s.modIsl i f).harbourBad = s.harbourBad := rfl
@[simp] theorem modIsl_bufCorrected (i : Nat) (f : Isl → Isl) : (s.modIsl i f).bufCorrected = s.bufCorrected := rfl
@[simp] theorem modIsl_bufUncorrectable (i : Nat) (f : Isl → Isl) : (s.modIsl i f).bufUncorrectable = s.bufUncorrectable := rfl
@[simp] theorem modIsl_harbourSoft (i : Nat) (f : Isl → Isl) : (s.modIsl i f).harbourSoft = s.harbourSoft := rfl
@[simp] theorem modIsl_partnerBad (i : Nat) (f : Isl → Isl) : (s.modIsl i f).partnerBad = s.partnerBad := rfl
@[simp] theorem modIsl_progMem (i : Nat) (f : Isl → Isl) : (s.modIsl i f).progMem = s.progMem := rfl
@[simp] theorem modIsl_progBad (i : Nat) (f : Isl → Isl) : (s.modIsl i f).progBad = s.progBad := rfl
@[simp] theorem modIsl_tallyLatch (i : Nat) (f : Isl → Isl) : (s.modIsl i f).tallyLatch = s.tallyLatch := rfl
@[simp] theorem modIsl_tb (i : Nat) (f : Isl → Isl) : (s.modIsl i f).tb = s.tb := rfl
@[simp] theorem modIsl_leave (i : Nat) (f : Isl → Isl) : (s.modIsl i f).leave = s.leave := rfl
@[simp] theorem modIsl_log (i : Nat) (f : Isl → Isl) : (s.modIsl i f).log = s.log := rfl
@[simp] theorem modIsl_ptu (i : Nat) (f : Isl → Isl) : (s.modIsl i f).ptu = s.ptu := rfl
@[simp] theorem modIsl_ptuHeld (i : Nat) (f : Isl → Isl) : (s.modIsl i f).ptuHeld = s.ptuHeld := rfl

/-! ## modBank -/

@[simp] theorem modBank_pending (i : Nat) (f : Bank → Bank) : (s.modBank i f).pending = s.pending := rfl
@[simp] theorem modBank_out (i : Nat) (f : Bank → Bank) : (s.modBank i f).out = s.out := rfl
@[simp] theorem modBank_freeCounter (i : Nat) (f : Bank → Bank) : (s.modBank i f).freeCounter = s.freeCounter := rfl
@[simp] theorem modBank_coreNs (i : Nat) (f : Bank → Bank) : (s.modBank i f).coreNs = s.coreNs := rfl
@[simp] theorem modBank_mode (i : Nat) (f : Bank → Bank) : (s.modBank i f).mode = s.mode := rfl
@[simp] theorem modBank_islands (i : Nat) (f : Bank → Bank) : (s.modBank i f).islands = s.islands := rfl
@[simp] theorem modBank_frames (i : Nat) (f : Bank → Bank) : (s.modBank i f).frames = s.frames := rfl
@[simp] theorem modBank_clocks (i : Nat) (f : Bank → Bank) : (s.modBank i f).clocks = s.clocks := rfl
@[simp] theorem modBank_ldr (i : Nat) (f : Bank → Bank) : (s.modBank i f).ldr = s.ldr := rfl
@[simp] theorem modBank_flash (i : Nat) (f : Bank → Bank) : (s.modBank i f).flash = s.flash := rfl
@[simp] theorem modBank_chain (i : Nat) (f : Bank → Bank) : (s.modBank i f).chain = s.chain := rfl
@[simp] theorem modBank_jtag (i : Nat) (f : Bank → Bank) : (s.modBank i f).jtag = s.jtag := rfl
@[simp] theorem modBank_tide (i : Nat) (f : Bank → Bank) : (s.modBank i f).tide = s.tide := rfl
@[simp] theorem modBank_behind (i : Nat) (f : Bank → Bank) : (s.modBank i f).behind = s.behind := rfl
@[simp] theorem modBank_link (i : Nat) (f : Bank → Bank) : (s.modBank i f).link = s.link := rfl
@[simp] theorem modBank_fns (i : Nat) (f : Bank → Bank) : (s.modBank i f).fns = s.fns := rfl
@[simp] theorem modBank_wins (i : Nat) (f : Bank → Bank) : (s.modBank i f).wins = s.wins := rfl
@[simp] theorem modBank_msix (i : Nat) (f : Bank → Bank) : (s.modBank i f).msix = s.msix := rfl
@[simp] theorem modBank_tens (i : Nat) (f : Bank → Bank) : (s.modBank i f).tens = s.tens := rfl
@[simp] theorem modBank_dma (i : Nat) (f : Bank → Bank) : (s.modBank i f).dma = s.dma := rfl
@[simp] theorem modBank_rings (i : Nat) (f : Bank → Bank) : (s.modBank i f).rings = s.rings := rfl
@[simp] theorem modBank_threads (i : Nat) (f : Bank → Bank) : (s.modBank i f).threads = s.threads := rfl
@[simp] theorem modBank_ferry (i : Nat) (f : Bank → Bank) : (s.modBank i f).ferry = s.ferry := rfl
@[simp] theorem modBank_charter (i : Nat) (f : Bank → Bank) : (s.modBank i f).charter = s.charter := rfl
@[simp] theorem modBank_ports (i : Nat) (f : Bank → Bank) : (s.modBank i f).ports = s.ports := rfl
@[simp] theorem modBank_partners (i : Nat) (f : Bank → Bank) : (s.modBank i f).partners = s.partners := rfl
@[simp] theorem modBank_harbour (i : Nat) (f : Bank → Bank) : (s.modBank i f).harbour = s.harbour := rfl
@[simp] theorem modBank_harbourBad (i : Nat) (f : Bank → Bank) : (s.modBank i f).harbourBad = s.harbourBad := rfl
@[simp] theorem modBank_bufCorrected (i : Nat) (f : Bank → Bank) : (s.modBank i f).bufCorrected = s.bufCorrected := rfl
@[simp] theorem modBank_bufUncorrectable (i : Nat) (f : Bank → Bank) : (s.modBank i f).bufUncorrectable = s.bufUncorrectable := rfl
@[simp] theorem modBank_harbourSoft (i : Nat) (f : Bank → Bank) : (s.modBank i f).harbourSoft = s.harbourSoft := rfl
@[simp] theorem modBank_partnerBad (i : Nat) (f : Bank → Bank) : (s.modBank i f).partnerBad = s.partnerBad := rfl
@[simp] theorem modBank_progMem (i : Nat) (f : Bank → Bank) : (s.modBank i f).progMem = s.progMem := rfl
@[simp] theorem modBank_progBad (i : Nat) (f : Bank → Bank) : (s.modBank i f).progBad = s.progBad := rfl
@[simp] theorem modBank_tallyLatch (i : Nat) (f : Bank → Bank) : (s.modBank i f).tallyLatch = s.tallyLatch := rfl
@[simp] theorem modBank_tb (i : Nat) (f : Bank → Bank) : (s.modBank i f).tb = s.tb := rfl
@[simp] theorem modBank_leave (i : Nat) (f : Bank → Bank) : (s.modBank i f).leave = s.leave := rfl
@[simp] theorem modBank_log (i : Nat) (f : Bank → Bank) : (s.modBank i f).log = s.log := rfl
@[simp] theorem modBank_ptu (i : Nat) (f : Bank → Bank) : (s.modBank i f).ptu = s.ptu := rfl
@[simp] theorem modBank_ptuHeld (i : Nat) (f : Bank → Bank) : (s.modBank i f).ptuHeld = s.ptuHeld := rfl

/-! ## modFn -/

@[simp] theorem modFn_pending (i : Nat) (f : Fn → Fn) : (s.modFn i f).pending = s.pending := rfl
@[simp] theorem modFn_out (i : Nat) (f : Fn → Fn) : (s.modFn i f).out = s.out := rfl
@[simp] theorem modFn_freeCounter (i : Nat) (f : Fn → Fn) : (s.modFn i f).freeCounter = s.freeCounter := rfl
@[simp] theorem modFn_coreNs (i : Nat) (f : Fn → Fn) : (s.modFn i f).coreNs = s.coreNs := rfl
@[simp] theorem modFn_mode (i : Nat) (f : Fn → Fn) : (s.modFn i f).mode = s.mode := rfl
@[simp] theorem modFn_islands (i : Nat) (f : Fn → Fn) : (s.modFn i f).islands = s.islands := rfl
@[simp] theorem modFn_frames (i : Nat) (f : Fn → Fn) : (s.modFn i f).frames = s.frames := rfl
@[simp] theorem modFn_clocks (i : Nat) (f : Fn → Fn) : (s.modFn i f).clocks = s.clocks := rfl
@[simp] theorem modFn_ldr (i : Nat) (f : Fn → Fn) : (s.modFn i f).ldr = s.ldr := rfl
@[simp] theorem modFn_flash (i : Nat) (f : Fn → Fn) : (s.modFn i f).flash = s.flash := rfl
@[simp] theorem modFn_chain (i : Nat) (f : Fn → Fn) : (s.modFn i f).chain = s.chain := rfl
@[simp] theorem modFn_jtag (i : Nat) (f : Fn → Fn) : (s.modFn i f).jtag = s.jtag := rfl
@[simp] theorem modFn_tide (i : Nat) (f : Fn → Fn) : (s.modFn i f).tide = s.tide := rfl
@[simp] theorem modFn_behind (i : Nat) (f : Fn → Fn) : (s.modFn i f).behind = s.behind := rfl
@[simp] theorem modFn_banks (i : Nat) (f : Fn → Fn) : (s.modFn i f).banks = s.banks := rfl
@[simp] theorem modFn_link (i : Nat) (f : Fn → Fn) : (s.modFn i f).link = s.link := rfl
@[simp] theorem modFn_wins (i : Nat) (f : Fn → Fn) : (s.modFn i f).wins = s.wins := rfl
@[simp] theorem modFn_msix (i : Nat) (f : Fn → Fn) : (s.modFn i f).msix = s.msix := rfl
@[simp] theorem modFn_tens (i : Nat) (f : Fn → Fn) : (s.modFn i f).tens = s.tens := rfl
@[simp] theorem modFn_dma (i : Nat) (f : Fn → Fn) : (s.modFn i f).dma = s.dma := rfl
@[simp] theorem modFn_rings (i : Nat) (f : Fn → Fn) : (s.modFn i f).rings = s.rings := rfl
@[simp] theorem modFn_threads (i : Nat) (f : Fn → Fn) : (s.modFn i f).threads = s.threads := rfl
@[simp] theorem modFn_ferry (i : Nat) (f : Fn → Fn) : (s.modFn i f).ferry = s.ferry := rfl
@[simp] theorem modFn_charter (i : Nat) (f : Fn → Fn) : (s.modFn i f).charter = s.charter := rfl
@[simp] theorem modFn_ports (i : Nat) (f : Fn → Fn) : (s.modFn i f).ports = s.ports := rfl
@[simp] theorem modFn_partners (i : Nat) (f : Fn → Fn) : (s.modFn i f).partners = s.partners := rfl
@[simp] theorem modFn_harbour (i : Nat) (f : Fn → Fn) : (s.modFn i f).harbour = s.harbour := rfl
@[simp] theorem modFn_harbourBad (i : Nat) (f : Fn → Fn) : (s.modFn i f).harbourBad = s.harbourBad := rfl
@[simp] theorem modFn_bufCorrected (i : Nat) (f : Fn → Fn) : (s.modFn i f).bufCorrected = s.bufCorrected := rfl
@[simp] theorem modFn_bufUncorrectable (i : Nat) (f : Fn → Fn) : (s.modFn i f).bufUncorrectable = s.bufUncorrectable := rfl
@[simp] theorem modFn_harbourSoft (i : Nat) (f : Fn → Fn) : (s.modFn i f).harbourSoft = s.harbourSoft := rfl
@[simp] theorem modFn_partnerBad (i : Nat) (f : Fn → Fn) : (s.modFn i f).partnerBad = s.partnerBad := rfl
@[simp] theorem modFn_progMem (i : Nat) (f : Fn → Fn) : (s.modFn i f).progMem = s.progMem := rfl
@[simp] theorem modFn_progBad (i : Nat) (f : Fn → Fn) : (s.modFn i f).progBad = s.progBad := rfl
@[simp] theorem modFn_tallyLatch (i : Nat) (f : Fn → Fn) : (s.modFn i f).tallyLatch = s.tallyLatch := rfl
@[simp] theorem modFn_tb (i : Nat) (f : Fn → Fn) : (s.modFn i f).tb = s.tb := rfl
@[simp] theorem modFn_leave (i : Nat) (f : Fn → Fn) : (s.modFn i f).leave = s.leave := rfl
@[simp] theorem modFn_log (i : Nat) (f : Fn → Fn) : (s.modFn i f).log = s.log := rfl
@[simp] theorem modFn_ptu (i : Nat) (f : Fn → Fn) : (s.modFn i f).ptu = s.ptu := rfl
@[simp] theorem modFn_ptuHeld (i : Nat) (f : Fn → Fn) : (s.modFn i f).ptuHeld = s.ptuHeld := rfl

/-! ## modWin -/

@[simp] theorem modWin_pending (i j : Nat) (f : Win → Win) : (s.modWin i j f).pending = s.pending := rfl
@[simp] theorem modWin_out (i j : Nat) (f : Win → Win) : (s.modWin i j f).out = s.out := rfl
@[simp] theorem modWin_freeCounter (i j : Nat) (f : Win → Win) : (s.modWin i j f).freeCounter = s.freeCounter := rfl
@[simp] theorem modWin_coreNs (i j : Nat) (f : Win → Win) : (s.modWin i j f).coreNs = s.coreNs := rfl
@[simp] theorem modWin_mode (i j : Nat) (f : Win → Win) : (s.modWin i j f).mode = s.mode := rfl
@[simp] theorem modWin_islands (i j : Nat) (f : Win → Win) : (s.modWin i j f).islands = s.islands := rfl
@[simp] theorem modWin_frames (i j : Nat) (f : Win → Win) : (s.modWin i j f).frames = s.frames := rfl
@[simp] theorem modWin_clocks (i j : Nat) (f : Win → Win) : (s.modWin i j f).clocks = s.clocks := rfl
@[simp] theorem modWin_ldr (i j : Nat) (f : Win → Win) : (s.modWin i j f).ldr = s.ldr := rfl
@[simp] theorem modWin_flash (i j : Nat) (f : Win → Win) : (s.modWin i j f).flash = s.flash := rfl
@[simp] theorem modWin_chain (i j : Nat) (f : Win → Win) : (s.modWin i j f).chain = s.chain := rfl
@[simp] theorem modWin_jtag (i j : Nat) (f : Win → Win) : (s.modWin i j f).jtag = s.jtag := rfl
@[simp] theorem modWin_tide (i j : Nat) (f : Win → Win) : (s.modWin i j f).tide = s.tide := rfl
@[simp] theorem modWin_behind (i j : Nat) (f : Win → Win) : (s.modWin i j f).behind = s.behind := rfl
@[simp] theorem modWin_banks (i j : Nat) (f : Win → Win) : (s.modWin i j f).banks = s.banks := rfl
@[simp] theorem modWin_link (i j : Nat) (f : Win → Win) : (s.modWin i j f).link = s.link := rfl
@[simp] theorem modWin_fns (i j : Nat) (f : Win → Win) : (s.modWin i j f).fns = s.fns := rfl
@[simp] theorem modWin_msix (i j : Nat) (f : Win → Win) : (s.modWin i j f).msix = s.msix := rfl
@[simp] theorem modWin_tens (i j : Nat) (f : Win → Win) : (s.modWin i j f).tens = s.tens := rfl
@[simp] theorem modWin_dma (i j : Nat) (f : Win → Win) : (s.modWin i j f).dma = s.dma := rfl
@[simp] theorem modWin_rings (i j : Nat) (f : Win → Win) : (s.modWin i j f).rings = s.rings := rfl
@[simp] theorem modWin_threads (i j : Nat) (f : Win → Win) : (s.modWin i j f).threads = s.threads := rfl
@[simp] theorem modWin_ferry (i j : Nat) (f : Win → Win) : (s.modWin i j f).ferry = s.ferry := rfl
@[simp] theorem modWin_charter (i j : Nat) (f : Win → Win) : (s.modWin i j f).charter = s.charter := rfl
@[simp] theorem modWin_ports (i j : Nat) (f : Win → Win) : (s.modWin i j f).ports = s.ports := rfl
@[simp] theorem modWin_partners (i j : Nat) (f : Win → Win) : (s.modWin i j f).partners = s.partners := rfl
@[simp] theorem modWin_harbour (i j : Nat) (f : Win → Win) : (s.modWin i j f).harbour = s.harbour := rfl
@[simp] theorem modWin_harbourBad (i j : Nat) (f : Win → Win) : (s.modWin i j f).harbourBad = s.harbourBad := rfl
@[simp] theorem modWin_bufCorrected (i j : Nat) (f : Win → Win) : (s.modWin i j f).bufCorrected = s.bufCorrected := rfl
@[simp] theorem modWin_bufUncorrectable (i j : Nat) (f : Win → Win) : (s.modWin i j f).bufUncorrectable = s.bufUncorrectable := rfl
@[simp] theorem modWin_harbourSoft (i j : Nat) (f : Win → Win) : (s.modWin i j f).harbourSoft = s.harbourSoft := rfl
@[simp] theorem modWin_partnerBad (i j : Nat) (f : Win → Win) : (s.modWin i j f).partnerBad = s.partnerBad := rfl
@[simp] theorem modWin_progMem (i j : Nat) (f : Win → Win) : (s.modWin i j f).progMem = s.progMem := rfl
@[simp] theorem modWin_progBad (i j : Nat) (f : Win → Win) : (s.modWin i j f).progBad = s.progBad := rfl
@[simp] theorem modWin_tallyLatch (i j : Nat) (f : Win → Win) : (s.modWin i j f).tallyLatch = s.tallyLatch := rfl
@[simp] theorem modWin_tb (i j : Nat) (f : Win → Win) : (s.modWin i j f).tb = s.tb := rfl
@[simp] theorem modWin_leave (i j : Nat) (f : Win → Win) : (s.modWin i j f).leave = s.leave := rfl
@[simp] theorem modWin_log (i j : Nat) (f : Win → Win) : (s.modWin i j f).log = s.log := rfl
@[simp] theorem modWin_ptu (i j : Nat) (f : Win → Win) : (s.modWin i j f).ptu = s.ptu := rfl
@[simp] theorem modWin_ptuHeld (i j : Nat) (f : Win → Win) : (s.modWin i j f).ptuHeld = s.ptuHeld := rfl

/-! ## modMsx -/

@[simp] theorem modMsx_pending (i j : Nat) (f : Msix → Msix) : (s.modMsx i j f).pending = s.pending := rfl
@[simp] theorem modMsx_out (i j : Nat) (f : Msix → Msix) : (s.modMsx i j f).out = s.out := rfl
@[simp] theorem modMsx_freeCounter (i j : Nat) (f : Msix → Msix) : (s.modMsx i j f).freeCounter = s.freeCounter := rfl
@[simp] theorem modMsx_coreNs (i j : Nat) (f : Msix → Msix) : (s.modMsx i j f).coreNs = s.coreNs := rfl
@[simp] theorem modMsx_mode (i j : Nat) (f : Msix → Msix) : (s.modMsx i j f).mode = s.mode := rfl
@[simp] theorem modMsx_islands (i j : Nat) (f : Msix → Msix) : (s.modMsx i j f).islands = s.islands := rfl
@[simp] theorem modMsx_frames (i j : Nat) (f : Msix → Msix) : (s.modMsx i j f).frames = s.frames := rfl
@[simp] theorem modMsx_clocks (i j : Nat) (f : Msix → Msix) : (s.modMsx i j f).clocks = s.clocks := rfl
@[simp] theorem modMsx_ldr (i j : Nat) (f : Msix → Msix) : (s.modMsx i j f).ldr = s.ldr := rfl
@[simp] theorem modMsx_flash (i j : Nat) (f : Msix → Msix) : (s.modMsx i j f).flash = s.flash := rfl
@[simp] theorem modMsx_chain (i j : Nat) (f : Msix → Msix) : (s.modMsx i j f).chain = s.chain := rfl
@[simp] theorem modMsx_jtag (i j : Nat) (f : Msix → Msix) : (s.modMsx i j f).jtag = s.jtag := rfl
@[simp] theorem modMsx_tide (i j : Nat) (f : Msix → Msix) : (s.modMsx i j f).tide = s.tide := rfl
@[simp] theorem modMsx_behind (i j : Nat) (f : Msix → Msix) : (s.modMsx i j f).behind = s.behind := rfl
@[simp] theorem modMsx_banks (i j : Nat) (f : Msix → Msix) : (s.modMsx i j f).banks = s.banks := rfl
@[simp] theorem modMsx_link (i j : Nat) (f : Msix → Msix) : (s.modMsx i j f).link = s.link := rfl
@[simp] theorem modMsx_fns (i j : Nat) (f : Msix → Msix) : (s.modMsx i j f).fns = s.fns := rfl
@[simp] theorem modMsx_wins (i j : Nat) (f : Msix → Msix) : (s.modMsx i j f).wins = s.wins := rfl
@[simp] theorem modMsx_tens (i j : Nat) (f : Msix → Msix) : (s.modMsx i j f).tens = s.tens := rfl
@[simp] theorem modMsx_dma (i j : Nat) (f : Msix → Msix) : (s.modMsx i j f).dma = s.dma := rfl
@[simp] theorem modMsx_rings (i j : Nat) (f : Msix → Msix) : (s.modMsx i j f).rings = s.rings := rfl
@[simp] theorem modMsx_threads (i j : Nat) (f : Msix → Msix) : (s.modMsx i j f).threads = s.threads := rfl
@[simp] theorem modMsx_ferry (i j : Nat) (f : Msix → Msix) : (s.modMsx i j f).ferry = s.ferry := rfl
@[simp] theorem modMsx_charter (i j : Nat) (f : Msix → Msix) : (s.modMsx i j f).charter = s.charter := rfl
@[simp] theorem modMsx_ports (i j : Nat) (f : Msix → Msix) : (s.modMsx i j f).ports = s.ports := rfl
@[simp] theorem modMsx_partners (i j : Nat) (f : Msix → Msix) : (s.modMsx i j f).partners = s.partners := rfl
@[simp] theorem modMsx_harbour (i j : Nat) (f : Msix → Msix) : (s.modMsx i j f).harbour = s.harbour := rfl
@[simp] theorem modMsx_harbourBad (i j : Nat) (f : Msix → Msix) : (s.modMsx i j f).harbourBad = s.harbourBad := rfl
@[simp] theorem modMsx_bufCorrected (i j : Nat) (f : Msix → Msix) : (s.modMsx i j f).bufCorrected = s.bufCorrected := rfl
@[simp] theorem modMsx_bufUncorrectable (i j : Nat) (f : Msix → Msix) : (s.modMsx i j f).bufUncorrectable = s.bufUncorrectable := rfl
@[simp] theorem modMsx_harbourSoft (i j : Nat) (f : Msix → Msix) : (s.modMsx i j f).harbourSoft = s.harbourSoft := rfl
@[simp] theorem modMsx_partnerBad (i j : Nat) (f : Msix → Msix) : (s.modMsx i j f).partnerBad = s.partnerBad := rfl
@[simp] theorem modMsx_progMem (i j : Nat) (f : Msix → Msix) : (s.modMsx i j f).progMem = s.progMem := rfl
@[simp] theorem modMsx_progBad (i j : Nat) (f : Msix → Msix) : (s.modMsx i j f).progBad = s.progBad := rfl
@[simp] theorem modMsx_tallyLatch (i j : Nat) (f : Msix → Msix) : (s.modMsx i j f).tallyLatch = s.tallyLatch := rfl
@[simp] theorem modMsx_tb (i j : Nat) (f : Msix → Msix) : (s.modMsx i j f).tb = s.tb := rfl
@[simp] theorem modMsx_leave (i j : Nat) (f : Msix → Msix) : (s.modMsx i j f).leave = s.leave := rfl
@[simp] theorem modMsx_log (i j : Nat) (f : Msix → Msix) : (s.modMsx i j f).log = s.log := rfl
@[simp] theorem modMsx_ptu (i j : Nat) (f : Msix → Msix) : (s.modMsx i j f).ptu = s.ptu := rfl
@[simp] theorem modMsx_ptuHeld (i j : Nat) (f : Msix → Msix) : (s.modMsx i j f).ptuHeld = s.ptuHeld := rfl

/-! ## modTen -/

@[simp] theorem modTen_pending (i : Nat) (f : Ten → Ten) : (s.modTen i f).pending = s.pending := rfl
@[simp] theorem modTen_out (i : Nat) (f : Ten → Ten) : (s.modTen i f).out = s.out := rfl
@[simp] theorem modTen_freeCounter (i : Nat) (f : Ten → Ten) : (s.modTen i f).freeCounter = s.freeCounter := rfl
@[simp] theorem modTen_coreNs (i : Nat) (f : Ten → Ten) : (s.modTen i f).coreNs = s.coreNs := rfl
@[simp] theorem modTen_mode (i : Nat) (f : Ten → Ten) : (s.modTen i f).mode = s.mode := rfl
@[simp] theorem modTen_islands (i : Nat) (f : Ten → Ten) : (s.modTen i f).islands = s.islands := rfl
@[simp] theorem modTen_frames (i : Nat) (f : Ten → Ten) : (s.modTen i f).frames = s.frames := rfl
@[simp] theorem modTen_clocks (i : Nat) (f : Ten → Ten) : (s.modTen i f).clocks = s.clocks := rfl
@[simp] theorem modTen_ldr (i : Nat) (f : Ten → Ten) : (s.modTen i f).ldr = s.ldr := rfl
@[simp] theorem modTen_flash (i : Nat) (f : Ten → Ten) : (s.modTen i f).flash = s.flash := rfl
@[simp] theorem modTen_chain (i : Nat) (f : Ten → Ten) : (s.modTen i f).chain = s.chain := rfl
@[simp] theorem modTen_jtag (i : Nat) (f : Ten → Ten) : (s.modTen i f).jtag = s.jtag := rfl
@[simp] theorem modTen_tide (i : Nat) (f : Ten → Ten) : (s.modTen i f).tide = s.tide := rfl
@[simp] theorem modTen_behind (i : Nat) (f : Ten → Ten) : (s.modTen i f).behind = s.behind := rfl
@[simp] theorem modTen_banks (i : Nat) (f : Ten → Ten) : (s.modTen i f).banks = s.banks := rfl
@[simp] theorem modTen_link (i : Nat) (f : Ten → Ten) : (s.modTen i f).link = s.link := rfl
@[simp] theorem modTen_fns (i : Nat) (f : Ten → Ten) : (s.modTen i f).fns = s.fns := rfl
@[simp] theorem modTen_wins (i : Nat) (f : Ten → Ten) : (s.modTen i f).wins = s.wins := rfl
@[simp] theorem modTen_msix (i : Nat) (f : Ten → Ten) : (s.modTen i f).msix = s.msix := rfl
@[simp] theorem modTen_dma (i : Nat) (f : Ten → Ten) : (s.modTen i f).dma = s.dma := rfl
@[simp] theorem modTen_rings (i : Nat) (f : Ten → Ten) : (s.modTen i f).rings = s.rings := rfl
@[simp] theorem modTen_threads (i : Nat) (f : Ten → Ten) : (s.modTen i f).threads = s.threads := rfl
@[simp] theorem modTen_ferry (i : Nat) (f : Ten → Ten) : (s.modTen i f).ferry = s.ferry := rfl
@[simp] theorem modTen_charter (i : Nat) (f : Ten → Ten) : (s.modTen i f).charter = s.charter := rfl
@[simp] theorem modTen_ports (i : Nat) (f : Ten → Ten) : (s.modTen i f).ports = s.ports := rfl
@[simp] theorem modTen_partners (i : Nat) (f : Ten → Ten) : (s.modTen i f).partners = s.partners := rfl
@[simp] theorem modTen_harbour (i : Nat) (f : Ten → Ten) : (s.modTen i f).harbour = s.harbour := rfl
@[simp] theorem modTen_harbourBad (i : Nat) (f : Ten → Ten) : (s.modTen i f).harbourBad = s.harbourBad := rfl
@[simp] theorem modTen_bufCorrected (i : Nat) (f : Ten → Ten) : (s.modTen i f).bufCorrected = s.bufCorrected := rfl
@[simp] theorem modTen_bufUncorrectable (i : Nat) (f : Ten → Ten) : (s.modTen i f).bufUncorrectable = s.bufUncorrectable := rfl
@[simp] theorem modTen_harbourSoft (i : Nat) (f : Ten → Ten) : (s.modTen i f).harbourSoft = s.harbourSoft := rfl
@[simp] theorem modTen_partnerBad (i : Nat) (f : Ten → Ten) : (s.modTen i f).partnerBad = s.partnerBad := rfl
@[simp] theorem modTen_progMem (i : Nat) (f : Ten → Ten) : (s.modTen i f).progMem = s.progMem := rfl
@[simp] theorem modTen_progBad (i : Nat) (f : Ten → Ten) : (s.modTen i f).progBad = s.progBad := rfl
@[simp] theorem modTen_tallyLatch (i : Nat) (f : Ten → Ten) : (s.modTen i f).tallyLatch = s.tallyLatch := rfl
@[simp] theorem modTen_tb (i : Nat) (f : Ten → Ten) : (s.modTen i f).tb = s.tb := rfl
@[simp] theorem modTen_leave (i : Nat) (f : Ten → Ten) : (s.modTen i f).leave = s.leave := rfl
@[simp] theorem modTen_log (i : Nat) (f : Ten → Ten) : (s.modTen i f).log = s.log := rfl
@[simp] theorem modTen_ptu (i : Nat) (f : Ten → Ten) : (s.modTen i f).ptu = s.ptu := rfl
@[simp] theorem modTen_ptuHeld (i : Nat) (f : Ten → Ten) : (s.modTen i f).ptuHeld = s.ptuHeld := rfl

/-! ## modRing -/

@[simp] theorem modRing_pending (i : Nat) (f : Ring → Ring) : (s.modRing i f).pending = s.pending := rfl
@[simp] theorem modRing_out (i : Nat) (f : Ring → Ring) : (s.modRing i f).out = s.out := rfl
@[simp] theorem modRing_freeCounter (i : Nat) (f : Ring → Ring) : (s.modRing i f).freeCounter = s.freeCounter := rfl
@[simp] theorem modRing_coreNs (i : Nat) (f : Ring → Ring) : (s.modRing i f).coreNs = s.coreNs := rfl
@[simp] theorem modRing_mode (i : Nat) (f : Ring → Ring) : (s.modRing i f).mode = s.mode := rfl
@[simp] theorem modRing_islands (i : Nat) (f : Ring → Ring) : (s.modRing i f).islands = s.islands := rfl
@[simp] theorem modRing_frames (i : Nat) (f : Ring → Ring) : (s.modRing i f).frames = s.frames := rfl
@[simp] theorem modRing_clocks (i : Nat) (f : Ring → Ring) : (s.modRing i f).clocks = s.clocks := rfl
@[simp] theorem modRing_ldr (i : Nat) (f : Ring → Ring) : (s.modRing i f).ldr = s.ldr := rfl
@[simp] theorem modRing_flash (i : Nat) (f : Ring → Ring) : (s.modRing i f).flash = s.flash := rfl
@[simp] theorem modRing_chain (i : Nat) (f : Ring → Ring) : (s.modRing i f).chain = s.chain := rfl
@[simp] theorem modRing_jtag (i : Nat) (f : Ring → Ring) : (s.modRing i f).jtag = s.jtag := rfl
@[simp] theorem modRing_tide (i : Nat) (f : Ring → Ring) : (s.modRing i f).tide = s.tide := rfl
@[simp] theorem modRing_behind (i : Nat) (f : Ring → Ring) : (s.modRing i f).behind = s.behind := rfl
@[simp] theorem modRing_banks (i : Nat) (f : Ring → Ring) : (s.modRing i f).banks = s.banks := rfl
@[simp] theorem modRing_link (i : Nat) (f : Ring → Ring) : (s.modRing i f).link = s.link := rfl
@[simp] theorem modRing_fns (i : Nat) (f : Ring → Ring) : (s.modRing i f).fns = s.fns := rfl
@[simp] theorem modRing_wins (i : Nat) (f : Ring → Ring) : (s.modRing i f).wins = s.wins := rfl
@[simp] theorem modRing_msix (i : Nat) (f : Ring → Ring) : (s.modRing i f).msix = s.msix := rfl
@[simp] theorem modRing_tens (i : Nat) (f : Ring → Ring) : (s.modRing i f).tens = s.tens := rfl
@[simp] theorem modRing_dma (i : Nat) (f : Ring → Ring) : (s.modRing i f).dma = s.dma := rfl
@[simp] theorem modRing_threads (i : Nat) (f : Ring → Ring) : (s.modRing i f).threads = s.threads := rfl
@[simp] theorem modRing_ferry (i : Nat) (f : Ring → Ring) : (s.modRing i f).ferry = s.ferry := rfl
@[simp] theorem modRing_charter (i : Nat) (f : Ring → Ring) : (s.modRing i f).charter = s.charter := rfl
@[simp] theorem modRing_ports (i : Nat) (f : Ring → Ring) : (s.modRing i f).ports = s.ports := rfl
@[simp] theorem modRing_partners (i : Nat) (f : Ring → Ring) : (s.modRing i f).partners = s.partners := rfl
@[simp] theorem modRing_harbour (i : Nat) (f : Ring → Ring) : (s.modRing i f).harbour = s.harbour := rfl
@[simp] theorem modRing_harbourBad (i : Nat) (f : Ring → Ring) : (s.modRing i f).harbourBad = s.harbourBad := rfl
@[simp] theorem modRing_bufCorrected (i : Nat) (f : Ring → Ring) : (s.modRing i f).bufCorrected = s.bufCorrected := rfl
@[simp] theorem modRing_bufUncorrectable (i : Nat) (f : Ring → Ring) : (s.modRing i f).bufUncorrectable = s.bufUncorrectable := rfl
@[simp] theorem modRing_harbourSoft (i : Nat) (f : Ring → Ring) : (s.modRing i f).harbourSoft = s.harbourSoft := rfl
@[simp] theorem modRing_partnerBad (i : Nat) (f : Ring → Ring) : (s.modRing i f).partnerBad = s.partnerBad := rfl
@[simp] theorem modRing_progMem (i : Nat) (f : Ring → Ring) : (s.modRing i f).progMem = s.progMem := rfl
@[simp] theorem modRing_progBad (i : Nat) (f : Ring → Ring) : (s.modRing i f).progBad = s.progBad := rfl
@[simp] theorem modRing_tallyLatch (i : Nat) (f : Ring → Ring) : (s.modRing i f).tallyLatch = s.tallyLatch := rfl
@[simp] theorem modRing_tb (i : Nat) (f : Ring → Ring) : (s.modRing i f).tb = s.tb := rfl
@[simp] theorem modRing_leave (i : Nat) (f : Ring → Ring) : (s.modRing i f).leave = s.leave := rfl
@[simp] theorem modRing_log (i : Nat) (f : Ring → Ring) : (s.modRing i f).log = s.log := rfl
@[simp] theorem modRing_ptu (i : Nat) (f : Ring → Ring) : (s.modRing i f).ptu = s.ptu := rfl
@[simp] theorem modRing_ptuHeld (i : Nat) (f : Ring → Ring) : (s.modRing i f).ptuHeld = s.ptuHeld := rfl

/-! ## modThr -/

@[simp] theorem modThr_pending (i : Nat) (f : Thread → Thread) : (s.modThr i f).pending = s.pending := rfl
@[simp] theorem modThr_out (i : Nat) (f : Thread → Thread) : (s.modThr i f).out = s.out := rfl
@[simp] theorem modThr_freeCounter (i : Nat) (f : Thread → Thread) : (s.modThr i f).freeCounter = s.freeCounter := rfl
@[simp] theorem modThr_coreNs (i : Nat) (f : Thread → Thread) : (s.modThr i f).coreNs = s.coreNs := rfl
@[simp] theorem modThr_mode (i : Nat) (f : Thread → Thread) : (s.modThr i f).mode = s.mode := rfl
@[simp] theorem modThr_islands (i : Nat) (f : Thread → Thread) : (s.modThr i f).islands = s.islands := rfl
@[simp] theorem modThr_frames (i : Nat) (f : Thread → Thread) : (s.modThr i f).frames = s.frames := rfl
@[simp] theorem modThr_clocks (i : Nat) (f : Thread → Thread) : (s.modThr i f).clocks = s.clocks := rfl
@[simp] theorem modThr_ldr (i : Nat) (f : Thread → Thread) : (s.modThr i f).ldr = s.ldr := rfl
@[simp] theorem modThr_flash (i : Nat) (f : Thread → Thread) : (s.modThr i f).flash = s.flash := rfl
@[simp] theorem modThr_chain (i : Nat) (f : Thread → Thread) : (s.modThr i f).chain = s.chain := rfl
@[simp] theorem modThr_jtag (i : Nat) (f : Thread → Thread) : (s.modThr i f).jtag = s.jtag := rfl
@[simp] theorem modThr_tide (i : Nat) (f : Thread → Thread) : (s.modThr i f).tide = s.tide := rfl
@[simp] theorem modThr_behind (i : Nat) (f : Thread → Thread) : (s.modThr i f).behind = s.behind := rfl
@[simp] theorem modThr_banks (i : Nat) (f : Thread → Thread) : (s.modThr i f).banks = s.banks := rfl
@[simp] theorem modThr_link (i : Nat) (f : Thread → Thread) : (s.modThr i f).link = s.link := rfl
@[simp] theorem modThr_fns (i : Nat) (f : Thread → Thread) : (s.modThr i f).fns = s.fns := rfl
@[simp] theorem modThr_wins (i : Nat) (f : Thread → Thread) : (s.modThr i f).wins = s.wins := rfl
@[simp] theorem modThr_msix (i : Nat) (f : Thread → Thread) : (s.modThr i f).msix = s.msix := rfl
@[simp] theorem modThr_tens (i : Nat) (f : Thread → Thread) : (s.modThr i f).tens = s.tens := rfl
@[simp] theorem modThr_dma (i : Nat) (f : Thread → Thread) : (s.modThr i f).dma = s.dma := rfl
@[simp] theorem modThr_rings (i : Nat) (f : Thread → Thread) : (s.modThr i f).rings = s.rings := rfl
@[simp] theorem modThr_ferry (i : Nat) (f : Thread → Thread) : (s.modThr i f).ferry = s.ferry := rfl
@[simp] theorem modThr_charter (i : Nat) (f : Thread → Thread) : (s.modThr i f).charter = s.charter := rfl
@[simp] theorem modThr_ports (i : Nat) (f : Thread → Thread) : (s.modThr i f).ports = s.ports := rfl
@[simp] theorem modThr_partners (i : Nat) (f : Thread → Thread) : (s.modThr i f).partners = s.partners := rfl
@[simp] theorem modThr_harbour (i : Nat) (f : Thread → Thread) : (s.modThr i f).harbour = s.harbour := rfl
@[simp] theorem modThr_harbourBad (i : Nat) (f : Thread → Thread) : (s.modThr i f).harbourBad = s.harbourBad := rfl
@[simp] theorem modThr_bufCorrected (i : Nat) (f : Thread → Thread) : (s.modThr i f).bufCorrected = s.bufCorrected := rfl
@[simp] theorem modThr_bufUncorrectable (i : Nat) (f : Thread → Thread) : (s.modThr i f).bufUncorrectable = s.bufUncorrectable := rfl
@[simp] theorem modThr_harbourSoft (i : Nat) (f : Thread → Thread) : (s.modThr i f).harbourSoft = s.harbourSoft := rfl
@[simp] theorem modThr_partnerBad (i : Nat) (f : Thread → Thread) : (s.modThr i f).partnerBad = s.partnerBad := rfl
@[simp] theorem modThr_progMem (i : Nat) (f : Thread → Thread) : (s.modThr i f).progMem = s.progMem := rfl
@[simp] theorem modThr_progBad (i : Nat) (f : Thread → Thread) : (s.modThr i f).progBad = s.progBad := rfl
@[simp] theorem modThr_tallyLatch (i : Nat) (f : Thread → Thread) : (s.modThr i f).tallyLatch = s.tallyLatch := rfl
@[simp] theorem modThr_tb (i : Nat) (f : Thread → Thread) : (s.modThr i f).tb = s.tb := rfl
@[simp] theorem modThr_leave (i : Nat) (f : Thread → Thread) : (s.modThr i f).leave = s.leave := rfl
@[simp] theorem modThr_log (i : Nat) (f : Thread → Thread) : (s.modThr i f).log = s.log := rfl
@[simp] theorem modThr_ptu (i : Nat) (f : Thread → Thread) : (s.modThr i f).ptu = s.ptu := rfl
@[simp] theorem modThr_ptuHeld (i : Nat) (f : Thread → Thread) : (s.modThr i f).ptuHeld = s.ptuHeld := rfl

/-! ## modPair -/

@[simp] theorem modPair_pending (i : Nat) (f : Pair → Pair) : (s.modPair i f).pending = s.pending := rfl
@[simp] theorem modPair_out (i : Nat) (f : Pair → Pair) : (s.modPair i f).out = s.out := rfl
@[simp] theorem modPair_freeCounter (i : Nat) (f : Pair → Pair) : (s.modPair i f).freeCounter = s.freeCounter := rfl
@[simp] theorem modPair_coreNs (i : Nat) (f : Pair → Pair) : (s.modPair i f).coreNs = s.coreNs := rfl
@[simp] theorem modPair_mode (i : Nat) (f : Pair → Pair) : (s.modPair i f).mode = s.mode := rfl
@[simp] theorem modPair_islands (i : Nat) (f : Pair → Pair) : (s.modPair i f).islands = s.islands := rfl
@[simp] theorem modPair_frames (i : Nat) (f : Pair → Pair) : (s.modPair i f).frames = s.frames := rfl
@[simp] theorem modPair_clocks (i : Nat) (f : Pair → Pair) : (s.modPair i f).clocks = s.clocks := rfl
@[simp] theorem modPair_ldr (i : Nat) (f : Pair → Pair) : (s.modPair i f).ldr = s.ldr := rfl
@[simp] theorem modPair_flash (i : Nat) (f : Pair → Pair) : (s.modPair i f).flash = s.flash := rfl
@[simp] theorem modPair_chain (i : Nat) (f : Pair → Pair) : (s.modPair i f).chain = s.chain := rfl
@[simp] theorem modPair_jtag (i : Nat) (f : Pair → Pair) : (s.modPair i f).jtag = s.jtag := rfl
@[simp] theorem modPair_tide (i : Nat) (f : Pair → Pair) : (s.modPair i f).tide = s.tide := rfl
@[simp] theorem modPair_behind (i : Nat) (f : Pair → Pair) : (s.modPair i f).behind = s.behind := rfl
@[simp] theorem modPair_banks (i : Nat) (f : Pair → Pair) : (s.modPair i f).banks = s.banks := rfl
@[simp] theorem modPair_link (i : Nat) (f : Pair → Pair) : (s.modPair i f).link = s.link := rfl
@[simp] theorem modPair_fns (i : Nat) (f : Pair → Pair) : (s.modPair i f).fns = s.fns := rfl
@[simp] theorem modPair_wins (i : Nat) (f : Pair → Pair) : (s.modPair i f).wins = s.wins := rfl
@[simp] theorem modPair_msix (i : Nat) (f : Pair → Pair) : (s.modPair i f).msix = s.msix := rfl
@[simp] theorem modPair_tens (i : Nat) (f : Pair → Pair) : (s.modPair i f).tens = s.tens := rfl
@[simp] theorem modPair_dma (i : Nat) (f : Pair → Pair) : (s.modPair i f).dma = s.dma := rfl
@[simp] theorem modPair_rings (i : Nat) (f : Pair → Pair) : (s.modPair i f).rings = s.rings := rfl
@[simp] theorem modPair_threads (i : Nat) (f : Pair → Pair) : (s.modPair i f).threads = s.threads := rfl
@[simp] theorem modPair_charter (i : Nat) (f : Pair → Pair) : (s.modPair i f).charter = s.charter := rfl
@[simp] theorem modPair_ports (i : Nat) (f : Pair → Pair) : (s.modPair i f).ports = s.ports := rfl
@[simp] theorem modPair_partners (i : Nat) (f : Pair → Pair) : (s.modPair i f).partners = s.partners := rfl
@[simp] theorem modPair_harbour (i : Nat) (f : Pair → Pair) : (s.modPair i f).harbour = s.harbour := rfl
@[simp] theorem modPair_harbourBad (i : Nat) (f : Pair → Pair) : (s.modPair i f).harbourBad = s.harbourBad := rfl
@[simp] theorem modPair_bufCorrected (i : Nat) (f : Pair → Pair) : (s.modPair i f).bufCorrected = s.bufCorrected := rfl
@[simp] theorem modPair_bufUncorrectable (i : Nat) (f : Pair → Pair) : (s.modPair i f).bufUncorrectable = s.bufUncorrectable := rfl
@[simp] theorem modPair_harbourSoft (i : Nat) (f : Pair → Pair) : (s.modPair i f).harbourSoft = s.harbourSoft := rfl
@[simp] theorem modPair_partnerBad (i : Nat) (f : Pair → Pair) : (s.modPair i f).partnerBad = s.partnerBad := rfl
@[simp] theorem modPair_progMem (i : Nat) (f : Pair → Pair) : (s.modPair i f).progMem = s.progMem := rfl
@[simp] theorem modPair_progBad (i : Nat) (f : Pair → Pair) : (s.modPair i f).progBad = s.progBad := rfl
@[simp] theorem modPair_tallyLatch (i : Nat) (f : Pair → Pair) : (s.modPair i f).tallyLatch = s.tallyLatch := rfl
@[simp] theorem modPair_tb (i : Nat) (f : Pair → Pair) : (s.modPair i f).tb = s.tb := rfl
@[simp] theorem modPair_leave (i : Nat) (f : Pair → Pair) : (s.modPair i f).leave = s.leave := rfl
@[simp] theorem modPair_log (i : Nat) (f : Pair → Pair) : (s.modPair i f).log = s.log := rfl
@[simp] theorem modPair_ptu (i : Nat) (f : Pair → Pair) : (s.modPair i f).ptu = s.ptu := rfl
@[simp] theorem modPair_ptuHeld (i : Nat) (f : Pair → Pair) : (s.modPair i f).ptuHeld = s.ptuHeld := rfl

/-! ## modPort -/

@[simp] theorem modPort_pending (i : Nat) (f : Port → Port) : (s.modPort i f).pending = s.pending := rfl
@[simp] theorem modPort_out (i : Nat) (f : Port → Port) : (s.modPort i f).out = s.out := rfl
@[simp] theorem modPort_freeCounter (i : Nat) (f : Port → Port) : (s.modPort i f).freeCounter = s.freeCounter := rfl
@[simp] theorem modPort_coreNs (i : Nat) (f : Port → Port) : (s.modPort i f).coreNs = s.coreNs := rfl
@[simp] theorem modPort_mode (i : Nat) (f : Port → Port) : (s.modPort i f).mode = s.mode := rfl
@[simp] theorem modPort_islands (i : Nat) (f : Port → Port) : (s.modPort i f).islands = s.islands := rfl
@[simp] theorem modPort_frames (i : Nat) (f : Port → Port) : (s.modPort i f).frames = s.frames := rfl
@[simp] theorem modPort_clocks (i : Nat) (f : Port → Port) : (s.modPort i f).clocks = s.clocks := rfl
@[simp] theorem modPort_ldr (i : Nat) (f : Port → Port) : (s.modPort i f).ldr = s.ldr := rfl
@[simp] theorem modPort_flash (i : Nat) (f : Port → Port) : (s.modPort i f).flash = s.flash := rfl
@[simp] theorem modPort_chain (i : Nat) (f : Port → Port) : (s.modPort i f).chain = s.chain := rfl
@[simp] theorem modPort_jtag (i : Nat) (f : Port → Port) : (s.modPort i f).jtag = s.jtag := rfl
@[simp] theorem modPort_tide (i : Nat) (f : Port → Port) : (s.modPort i f).tide = s.tide := rfl
@[simp] theorem modPort_behind (i : Nat) (f : Port → Port) : (s.modPort i f).behind = s.behind := rfl
@[simp] theorem modPort_banks (i : Nat) (f : Port → Port) : (s.modPort i f).banks = s.banks := rfl
@[simp] theorem modPort_link (i : Nat) (f : Port → Port) : (s.modPort i f).link = s.link := rfl
@[simp] theorem modPort_fns (i : Nat) (f : Port → Port) : (s.modPort i f).fns = s.fns := rfl
@[simp] theorem modPort_wins (i : Nat) (f : Port → Port) : (s.modPort i f).wins = s.wins := rfl
@[simp] theorem modPort_msix (i : Nat) (f : Port → Port) : (s.modPort i f).msix = s.msix := rfl
@[simp] theorem modPort_tens (i : Nat) (f : Port → Port) : (s.modPort i f).tens = s.tens := rfl
@[simp] theorem modPort_dma (i : Nat) (f : Port → Port) : (s.modPort i f).dma = s.dma := rfl
@[simp] theorem modPort_rings (i : Nat) (f : Port → Port) : (s.modPort i f).rings = s.rings := rfl
@[simp] theorem modPort_threads (i : Nat) (f : Port → Port) : (s.modPort i f).threads = s.threads := rfl
@[simp] theorem modPort_ferry (i : Nat) (f : Port → Port) : (s.modPort i f).ferry = s.ferry := rfl
@[simp] theorem modPort_charter (i : Nat) (f : Port → Port) : (s.modPort i f).charter = s.charter := rfl
@[simp] theorem modPort_partners (i : Nat) (f : Port → Port) : (s.modPort i f).partners = s.partners := rfl
@[simp] theorem modPort_harbour (i : Nat) (f : Port → Port) : (s.modPort i f).harbour = s.harbour := rfl
@[simp] theorem modPort_harbourBad (i : Nat) (f : Port → Port) : (s.modPort i f).harbourBad = s.harbourBad := rfl
@[simp] theorem modPort_bufCorrected (i : Nat) (f : Port → Port) : (s.modPort i f).bufCorrected = s.bufCorrected := rfl
@[simp] theorem modPort_bufUncorrectable (i : Nat) (f : Port → Port) : (s.modPort i f).bufUncorrectable = s.bufUncorrectable := rfl
@[simp] theorem modPort_harbourSoft (i : Nat) (f : Port → Port) : (s.modPort i f).harbourSoft = s.harbourSoft := rfl
@[simp] theorem modPort_partnerBad (i : Nat) (f : Port → Port) : (s.modPort i f).partnerBad = s.partnerBad := rfl
@[simp] theorem modPort_progMem (i : Nat) (f : Port → Port) : (s.modPort i f).progMem = s.progMem := rfl
@[simp] theorem modPort_progBad (i : Nat) (f : Port → Port) : (s.modPort i f).progBad = s.progBad := rfl
@[simp] theorem modPort_tallyLatch (i : Nat) (f : Port → Port) : (s.modPort i f).tallyLatch = s.tallyLatch := rfl
@[simp] theorem modPort_tb (i : Nat) (f : Port → Port) : (s.modPort i f).tb = s.tb := rfl
@[simp] theorem modPort_leave (i : Nat) (f : Port → Port) : (s.modPort i f).leave = s.leave := rfl
@[simp] theorem modPort_log (i : Nat) (f : Port → Port) : (s.modPort i f).log = s.log := rfl
@[simp] theorem modPort_ptu (i : Nat) (f : Port → Port) : (s.modPort i f).ptu = s.ptu := rfl
@[simp] theorem modPort_ptuHeld (i : Nat) (f : Port → Port) : (s.modPort i f).ptuHeld = s.ptuHeld := rfl

/-! ## modPartner -/

@[simp] theorem modPartner_pending (i : Nat) (f : Partner → Partner) : (s.modPartner i f).pending = s.pending := rfl
@[simp] theorem modPartner_out (i : Nat) (f : Partner → Partner) : (s.modPartner i f).out = s.out := rfl
@[simp] theorem modPartner_freeCounter (i : Nat) (f : Partner → Partner) : (s.modPartner i f).freeCounter = s.freeCounter := rfl
@[simp] theorem modPartner_coreNs (i : Nat) (f : Partner → Partner) : (s.modPartner i f).coreNs = s.coreNs := rfl
@[simp] theorem modPartner_mode (i : Nat) (f : Partner → Partner) : (s.modPartner i f).mode = s.mode := rfl
@[simp] theorem modPartner_islands (i : Nat) (f : Partner → Partner) : (s.modPartner i f).islands = s.islands := rfl
@[simp] theorem modPartner_frames (i : Nat) (f : Partner → Partner) : (s.modPartner i f).frames = s.frames := rfl
@[simp] theorem modPartner_clocks (i : Nat) (f : Partner → Partner) : (s.modPartner i f).clocks = s.clocks := rfl
@[simp] theorem modPartner_ldr (i : Nat) (f : Partner → Partner) : (s.modPartner i f).ldr = s.ldr := rfl
@[simp] theorem modPartner_flash (i : Nat) (f : Partner → Partner) : (s.modPartner i f).flash = s.flash := rfl
@[simp] theorem modPartner_chain (i : Nat) (f : Partner → Partner) : (s.modPartner i f).chain = s.chain := rfl
@[simp] theorem modPartner_jtag (i : Nat) (f : Partner → Partner) : (s.modPartner i f).jtag = s.jtag := rfl
@[simp] theorem modPartner_tide (i : Nat) (f : Partner → Partner) : (s.modPartner i f).tide = s.tide := rfl
@[simp] theorem modPartner_behind (i : Nat) (f : Partner → Partner) : (s.modPartner i f).behind = s.behind := rfl
@[simp] theorem modPartner_banks (i : Nat) (f : Partner → Partner) : (s.modPartner i f).banks = s.banks := rfl
@[simp] theorem modPartner_link (i : Nat) (f : Partner → Partner) : (s.modPartner i f).link = s.link := rfl
@[simp] theorem modPartner_fns (i : Nat) (f : Partner → Partner) : (s.modPartner i f).fns = s.fns := rfl
@[simp] theorem modPartner_wins (i : Nat) (f : Partner → Partner) : (s.modPartner i f).wins = s.wins := rfl
@[simp] theorem modPartner_msix (i : Nat) (f : Partner → Partner) : (s.modPartner i f).msix = s.msix := rfl
@[simp] theorem modPartner_tens (i : Nat) (f : Partner → Partner) : (s.modPartner i f).tens = s.tens := rfl
@[simp] theorem modPartner_dma (i : Nat) (f : Partner → Partner) : (s.modPartner i f).dma = s.dma := rfl
@[simp] theorem modPartner_rings (i : Nat) (f : Partner → Partner) : (s.modPartner i f).rings = s.rings := rfl
@[simp] theorem modPartner_threads (i : Nat) (f : Partner → Partner) : (s.modPartner i f).threads = s.threads := rfl
@[simp] theorem modPartner_ferry (i : Nat) (f : Partner → Partner) : (s.modPartner i f).ferry = s.ferry := rfl
@[simp] theorem modPartner_charter (i : Nat) (f : Partner → Partner) : (s.modPartner i f).charter = s.charter := rfl
@[simp] theorem modPartner_ports (i : Nat) (f : Partner → Partner) : (s.modPartner i f).ports = s.ports := rfl
@[simp] theorem modPartner_harbour (i : Nat) (f : Partner → Partner) : (s.modPartner i f).harbour = s.harbour := rfl
@[simp] theorem modPartner_harbourBad (i : Nat) (f : Partner → Partner) : (s.modPartner i f).harbourBad = s.harbourBad := rfl
@[simp] theorem modPartner_bufCorrected (i : Nat) (f : Partner → Partner) : (s.modPartner i f).bufCorrected = s.bufCorrected := rfl
@[simp] theorem modPartner_bufUncorrectable (i : Nat) (f : Partner → Partner) : (s.modPartner i f).bufUncorrectable = s.bufUncorrectable := rfl
@[simp] theorem modPartner_harbourSoft (i : Nat) (f : Partner → Partner) : (s.modPartner i f).harbourSoft = s.harbourSoft := rfl
@[simp] theorem modPartner_partnerBad (i : Nat) (f : Partner → Partner) : (s.modPartner i f).partnerBad = s.partnerBad := rfl
@[simp] theorem modPartner_progMem (i : Nat) (f : Partner → Partner) : (s.modPartner i f).progMem = s.progMem := rfl
@[simp] theorem modPartner_progBad (i : Nat) (f : Partner → Partner) : (s.modPartner i f).progBad = s.progBad := rfl
@[simp] theorem modPartner_tallyLatch (i : Nat) (f : Partner → Partner) : (s.modPartner i f).tallyLatch = s.tallyLatch := rfl
@[simp] theorem modPartner_tb (i : Nat) (f : Partner → Partner) : (s.modPartner i f).tb = s.tb := rfl
@[simp] theorem modPartner_leave (i : Nat) (f : Partner → Partner) : (s.modPartner i f).leave = s.leave := rfl
@[simp] theorem modPartner_log (i : Nat) (f : Partner → Partner) : (s.modPartner i f).log = s.log := rfl
@[simp] theorem modPartner_ptu (i : Nat) (f : Partner → Partner) : (s.modPartner i f).ptu = s.ptu := rfl
@[simp] theorem modPartner_ptuHeld (i : Nat) (f : Partner → Partner) : (s.modPartner i f).ptuHeld = s.ptuHeld := rfl

/-! ## modView -/

@[simp] theorem modView_pending (i : Nat) (f : LogView → LogView) : (s.modView i f).pending = s.pending := rfl
@[simp] theorem modView_out (i : Nat) (f : LogView → LogView) : (s.modView i f).out = s.out := rfl
@[simp] theorem modView_freeCounter (i : Nat) (f : LogView → LogView) : (s.modView i f).freeCounter = s.freeCounter := rfl
@[simp] theorem modView_coreNs (i : Nat) (f : LogView → LogView) : (s.modView i f).coreNs = s.coreNs := rfl
@[simp] theorem modView_mode (i : Nat) (f : LogView → LogView) : (s.modView i f).mode = s.mode := rfl
@[simp] theorem modView_islands (i : Nat) (f : LogView → LogView) : (s.modView i f).islands = s.islands := rfl
@[simp] theorem modView_frames (i : Nat) (f : LogView → LogView) : (s.modView i f).frames = s.frames := rfl
@[simp] theorem modView_clocks (i : Nat) (f : LogView → LogView) : (s.modView i f).clocks = s.clocks := rfl
@[simp] theorem modView_ldr (i : Nat) (f : LogView → LogView) : (s.modView i f).ldr = s.ldr := rfl
@[simp] theorem modView_flash (i : Nat) (f : LogView → LogView) : (s.modView i f).flash = s.flash := rfl
@[simp] theorem modView_chain (i : Nat) (f : LogView → LogView) : (s.modView i f).chain = s.chain := rfl
@[simp] theorem modView_jtag (i : Nat) (f : LogView → LogView) : (s.modView i f).jtag = s.jtag := rfl
@[simp] theorem modView_tide (i : Nat) (f : LogView → LogView) : (s.modView i f).tide = s.tide := rfl
@[simp] theorem modView_behind (i : Nat) (f : LogView → LogView) : (s.modView i f).behind = s.behind := rfl
@[simp] theorem modView_banks (i : Nat) (f : LogView → LogView) : (s.modView i f).banks = s.banks := rfl
@[simp] theorem modView_link (i : Nat) (f : LogView → LogView) : (s.modView i f).link = s.link := rfl
@[simp] theorem modView_fns (i : Nat) (f : LogView → LogView) : (s.modView i f).fns = s.fns := rfl
@[simp] theorem modView_wins (i : Nat) (f : LogView → LogView) : (s.modView i f).wins = s.wins := rfl
@[simp] theorem modView_msix (i : Nat) (f : LogView → LogView) : (s.modView i f).msix = s.msix := rfl
@[simp] theorem modView_tens (i : Nat) (f : LogView → LogView) : (s.modView i f).tens = s.tens := rfl
@[simp] theorem modView_dma (i : Nat) (f : LogView → LogView) : (s.modView i f).dma = s.dma := rfl
@[simp] theorem modView_rings (i : Nat) (f : LogView → LogView) : (s.modView i f).rings = s.rings := rfl
@[simp] theorem modView_threads (i : Nat) (f : LogView → LogView) : (s.modView i f).threads = s.threads := rfl
@[simp] theorem modView_ferry (i : Nat) (f : LogView → LogView) : (s.modView i f).ferry = s.ferry := rfl
@[simp] theorem modView_charter (i : Nat) (f : LogView → LogView) : (s.modView i f).charter = s.charter := rfl
@[simp] theorem modView_ports (i : Nat) (f : LogView → LogView) : (s.modView i f).ports = s.ports := rfl
@[simp] theorem modView_partners (i : Nat) (f : LogView → LogView) : (s.modView i f).partners = s.partners := rfl
@[simp] theorem modView_harbour (i : Nat) (f : LogView → LogView) : (s.modView i f).harbour = s.harbour := rfl
@[simp] theorem modView_harbourBad (i : Nat) (f : LogView → LogView) : (s.modView i f).harbourBad = s.harbourBad := rfl
@[simp] theorem modView_bufCorrected (i : Nat) (f : LogView → LogView) : (s.modView i f).bufCorrected = s.bufCorrected := rfl
@[simp] theorem modView_bufUncorrectable (i : Nat) (f : LogView → LogView) : (s.modView i f).bufUncorrectable = s.bufUncorrectable := rfl
@[simp] theorem modView_harbourSoft (i : Nat) (f : LogView → LogView) : (s.modView i f).harbourSoft = s.harbourSoft := rfl
@[simp] theorem modView_partnerBad (i : Nat) (f : LogView → LogView) : (s.modView i f).partnerBad = s.partnerBad := rfl
@[simp] theorem modView_progMem (i : Nat) (f : LogView → LogView) : (s.modView i f).progMem = s.progMem := rfl
@[simp] theorem modView_progBad (i : Nat) (f : LogView → LogView) : (s.modView i f).progBad = s.progBad := rfl
@[simp] theorem modView_tallyLatch (i : Nat) (f : LogView → LogView) : (s.modView i f).tallyLatch = s.tallyLatch := rfl
@[simp] theorem modView_tb (i : Nat) (f : LogView → LogView) : (s.modView i f).tb = s.tb := rfl
@[simp] theorem modView_leave (i : Nat) (f : LogView → LogView) : (s.modView i f).leave = s.leave := rfl
@[simp] theorem modView_ptu (i : Nat) (f : LogView → LogView) : (s.modView i f).ptu = s.ptu := rfl
@[simp] theorem modView_ptuHeld (i : Nat) (f : LogView → LogView) : (s.modView i f).ptuHeld = s.ptuHeld := rfl

/-! ## modMode -/

@[simp] theorem modMode_pending (f : ModeUnit → ModeUnit) : (s.modMode f).pending = s.pending := rfl
@[simp] theorem modMode_out (f : ModeUnit → ModeUnit) : (s.modMode f).out = s.out := rfl
@[simp] theorem modMode_freeCounter (f : ModeUnit → ModeUnit) : (s.modMode f).freeCounter = s.freeCounter := rfl
@[simp] theorem modMode_coreNs (f : ModeUnit → ModeUnit) : (s.modMode f).coreNs = s.coreNs := rfl
@[simp] theorem modMode_mode (f : ModeUnit → ModeUnit) : (s.modMode f).mode = f s.mode := rfl
@[simp] theorem modMode_islands (f : ModeUnit → ModeUnit) : (s.modMode f).islands = s.islands := rfl
@[simp] theorem modMode_frames (f : ModeUnit → ModeUnit) : (s.modMode f).frames = s.frames := rfl
@[simp] theorem modMode_clocks (f : ModeUnit → ModeUnit) : (s.modMode f).clocks = s.clocks := rfl
@[simp] theorem modMode_ldr (f : ModeUnit → ModeUnit) : (s.modMode f).ldr = s.ldr := rfl
@[simp] theorem modMode_flash (f : ModeUnit → ModeUnit) : (s.modMode f).flash = s.flash := rfl
@[simp] theorem modMode_chain (f : ModeUnit → ModeUnit) : (s.modMode f).chain = s.chain := rfl
@[simp] theorem modMode_jtag (f : ModeUnit → ModeUnit) : (s.modMode f).jtag = s.jtag := rfl
@[simp] theorem modMode_tide (f : ModeUnit → ModeUnit) : (s.modMode f).tide = s.tide := rfl
@[simp] theorem modMode_behind (f : ModeUnit → ModeUnit) : (s.modMode f).behind = s.behind := rfl
@[simp] theorem modMode_banks (f : ModeUnit → ModeUnit) : (s.modMode f).banks = s.banks := rfl
@[simp] theorem modMode_link (f : ModeUnit → ModeUnit) : (s.modMode f).link = s.link := rfl
@[simp] theorem modMode_fns (f : ModeUnit → ModeUnit) : (s.modMode f).fns = s.fns := rfl
@[simp] theorem modMode_wins (f : ModeUnit → ModeUnit) : (s.modMode f).wins = s.wins := rfl
@[simp] theorem modMode_msix (f : ModeUnit → ModeUnit) : (s.modMode f).msix = s.msix := rfl
@[simp] theorem modMode_tens (f : ModeUnit → ModeUnit) : (s.modMode f).tens = s.tens := rfl
@[simp] theorem modMode_dma (f : ModeUnit → ModeUnit) : (s.modMode f).dma = s.dma := rfl
@[simp] theorem modMode_rings (f : ModeUnit → ModeUnit) : (s.modMode f).rings = s.rings := rfl
@[simp] theorem modMode_threads (f : ModeUnit → ModeUnit) : (s.modMode f).threads = s.threads := rfl
@[simp] theorem modMode_ferry (f : ModeUnit → ModeUnit) : (s.modMode f).ferry = s.ferry := rfl
@[simp] theorem modMode_charter (f : ModeUnit → ModeUnit) : (s.modMode f).charter = s.charter := rfl
@[simp] theorem modMode_ports (f : ModeUnit → ModeUnit) : (s.modMode f).ports = s.ports := rfl
@[simp] theorem modMode_partners (f : ModeUnit → ModeUnit) : (s.modMode f).partners = s.partners := rfl
@[simp] theorem modMode_harbour (f : ModeUnit → ModeUnit) : (s.modMode f).harbour = s.harbour := rfl
@[simp] theorem modMode_harbourBad (f : ModeUnit → ModeUnit) : (s.modMode f).harbourBad = s.harbourBad := rfl
@[simp] theorem modMode_bufCorrected (f : ModeUnit → ModeUnit) : (s.modMode f).bufCorrected = s.bufCorrected := rfl
@[simp] theorem modMode_bufUncorrectable (f : ModeUnit → ModeUnit) : (s.modMode f).bufUncorrectable = s.bufUncorrectable := rfl
@[simp] theorem modMode_harbourSoft (f : ModeUnit → ModeUnit) : (s.modMode f).harbourSoft = s.harbourSoft := rfl
@[simp] theorem modMode_partnerBad (f : ModeUnit → ModeUnit) : (s.modMode f).partnerBad = s.partnerBad := rfl
@[simp] theorem modMode_progMem (f : ModeUnit → ModeUnit) : (s.modMode f).progMem = s.progMem := rfl
@[simp] theorem modMode_progBad (f : ModeUnit → ModeUnit) : (s.modMode f).progBad = s.progBad := rfl
@[simp] theorem modMode_tallyLatch (f : ModeUnit → ModeUnit) : (s.modMode f).tallyLatch = s.tallyLatch := rfl
@[simp] theorem modMode_tb (f : ModeUnit → ModeUnit) : (s.modMode f).tb = s.tb := rfl
@[simp] theorem modMode_leave (f : ModeUnit → ModeUnit) : (s.modMode f).leave = s.leave := rfl
@[simp] theorem modMode_log (f : ModeUnit → ModeUnit) : (s.modMode f).log = s.log := rfl
@[simp] theorem modMode_ptu (f : ModeUnit → ModeUnit) : (s.modMode f).ptu = s.ptu := rfl
@[simp] theorem modMode_ptuHeld (f : ModeUnit → ModeUnit) : (s.modMode f).ptuHeld = s.ptuHeld := rfl

/-! ## modLdr -/

@[simp] theorem modLdr_pending (f : Loader → Loader) : (s.modLdr f).pending = s.pending := rfl
@[simp] theorem modLdr_out (f : Loader → Loader) : (s.modLdr f).out = s.out := rfl
@[simp] theorem modLdr_freeCounter (f : Loader → Loader) : (s.modLdr f).freeCounter = s.freeCounter := rfl
@[simp] theorem modLdr_coreNs (f : Loader → Loader) : (s.modLdr f).coreNs = s.coreNs := rfl
@[simp] theorem modLdr_mode (f : Loader → Loader) : (s.modLdr f).mode = s.mode := rfl
@[simp] theorem modLdr_islands (f : Loader → Loader) : (s.modLdr f).islands = s.islands := rfl
@[simp] theorem modLdr_frames (f : Loader → Loader) : (s.modLdr f).frames = s.frames := rfl
@[simp] theorem modLdr_clocks (f : Loader → Loader) : (s.modLdr f).clocks = s.clocks := rfl
@[simp] theorem modLdr_ldr (f : Loader → Loader) : (s.modLdr f).ldr = f s.ldr := rfl
@[simp] theorem modLdr_flash (f : Loader → Loader) : (s.modLdr f).flash = s.flash := rfl
@[simp] theorem modLdr_chain (f : Loader → Loader) : (s.modLdr f).chain = s.chain := rfl
@[simp] theorem modLdr_jtag (f : Loader → Loader) : (s.modLdr f).jtag = s.jtag := rfl
@[simp] theorem modLdr_tide (f : Loader → Loader) : (s.modLdr f).tide = s.tide := rfl
@[simp] theorem modLdr_behind (f : Loader → Loader) : (s.modLdr f).behind = s.behind := rfl
@[simp] theorem modLdr_banks (f : Loader → Loader) : (s.modLdr f).banks = s.banks := rfl
@[simp] theorem modLdr_link (f : Loader → Loader) : (s.modLdr f).link = s.link := rfl
@[simp] theorem modLdr_fns (f : Loader → Loader) : (s.modLdr f).fns = s.fns := rfl
@[simp] theorem modLdr_wins (f : Loader → Loader) : (s.modLdr f).wins = s.wins := rfl
@[simp] theorem modLdr_msix (f : Loader → Loader) : (s.modLdr f).msix = s.msix := rfl
@[simp] theorem modLdr_tens (f : Loader → Loader) : (s.modLdr f).tens = s.tens := rfl
@[simp] theorem modLdr_dma (f : Loader → Loader) : (s.modLdr f).dma = s.dma := rfl
@[simp] theorem modLdr_rings (f : Loader → Loader) : (s.modLdr f).rings = s.rings := rfl
@[simp] theorem modLdr_threads (f : Loader → Loader) : (s.modLdr f).threads = s.threads := rfl
@[simp] theorem modLdr_ferry (f : Loader → Loader) : (s.modLdr f).ferry = s.ferry := rfl
@[simp] theorem modLdr_charter (f : Loader → Loader) : (s.modLdr f).charter = s.charter := rfl
@[simp] theorem modLdr_ports (f : Loader → Loader) : (s.modLdr f).ports = s.ports := rfl
@[simp] theorem modLdr_partners (f : Loader → Loader) : (s.modLdr f).partners = s.partners := rfl
@[simp] theorem modLdr_harbour (f : Loader → Loader) : (s.modLdr f).harbour = s.harbour := rfl
@[simp] theorem modLdr_harbourBad (f : Loader → Loader) : (s.modLdr f).harbourBad = s.harbourBad := rfl
@[simp] theorem modLdr_bufCorrected (f : Loader → Loader) : (s.modLdr f).bufCorrected = s.bufCorrected := rfl
@[simp] theorem modLdr_bufUncorrectable (f : Loader → Loader) : (s.modLdr f).bufUncorrectable = s.bufUncorrectable := rfl
@[simp] theorem modLdr_harbourSoft (f : Loader → Loader) : (s.modLdr f).harbourSoft = s.harbourSoft := rfl
@[simp] theorem modLdr_partnerBad (f : Loader → Loader) : (s.modLdr f).partnerBad = s.partnerBad := rfl
@[simp] theorem modLdr_progMem (f : Loader → Loader) : (s.modLdr f).progMem = s.progMem := rfl
@[simp] theorem modLdr_progBad (f : Loader → Loader) : (s.modLdr f).progBad = s.progBad := rfl
@[simp] theorem modLdr_tallyLatch (f : Loader → Loader) : (s.modLdr f).tallyLatch = s.tallyLatch := rfl
@[simp] theorem modLdr_tb (f : Loader → Loader) : (s.modLdr f).tb = s.tb := rfl
@[simp] theorem modLdr_leave (f : Loader → Loader) : (s.modLdr f).leave = s.leave := rfl
@[simp] theorem modLdr_log (f : Loader → Loader) : (s.modLdr f).log = s.log := rfl
@[simp] theorem modLdr_ptu (f : Loader → Loader) : (s.modLdr f).ptu = s.ptu := rfl
@[simp] theorem modLdr_ptuHeld (f : Loader → Loader) : (s.modLdr f).ptuHeld = s.ptuHeld := rfl

/-! ## modFlash -/

@[simp] theorem modFlash_pending (f : Flash → Flash) : (s.modFlash f).pending = s.pending := rfl
@[simp] theorem modFlash_out (f : Flash → Flash) : (s.modFlash f).out = s.out := rfl
@[simp] theorem modFlash_freeCounter (f : Flash → Flash) : (s.modFlash f).freeCounter = s.freeCounter := rfl
@[simp] theorem modFlash_coreNs (f : Flash → Flash) : (s.modFlash f).coreNs = s.coreNs := rfl
@[simp] theorem modFlash_mode (f : Flash → Flash) : (s.modFlash f).mode = s.mode := rfl
@[simp] theorem modFlash_islands (f : Flash → Flash) : (s.modFlash f).islands = s.islands := rfl
@[simp] theorem modFlash_frames (f : Flash → Flash) : (s.modFlash f).frames = s.frames := rfl
@[simp] theorem modFlash_clocks (f : Flash → Flash) : (s.modFlash f).clocks = s.clocks := rfl
@[simp] theorem modFlash_ldr (f : Flash → Flash) : (s.modFlash f).ldr = s.ldr := rfl
@[simp] theorem modFlash_flash (f : Flash → Flash) : (s.modFlash f).flash = f s.flash := rfl
@[simp] theorem modFlash_chain (f : Flash → Flash) : (s.modFlash f).chain = s.chain := rfl
@[simp] theorem modFlash_jtag (f : Flash → Flash) : (s.modFlash f).jtag = s.jtag := rfl
@[simp] theorem modFlash_tide (f : Flash → Flash) : (s.modFlash f).tide = s.tide := rfl
@[simp] theorem modFlash_behind (f : Flash → Flash) : (s.modFlash f).behind = s.behind := rfl
@[simp] theorem modFlash_banks (f : Flash → Flash) : (s.modFlash f).banks = s.banks := rfl
@[simp] theorem modFlash_link (f : Flash → Flash) : (s.modFlash f).link = s.link := rfl
@[simp] theorem modFlash_fns (f : Flash → Flash) : (s.modFlash f).fns = s.fns := rfl
@[simp] theorem modFlash_wins (f : Flash → Flash) : (s.modFlash f).wins = s.wins := rfl
@[simp] theorem modFlash_msix (f : Flash → Flash) : (s.modFlash f).msix = s.msix := rfl
@[simp] theorem modFlash_tens (f : Flash → Flash) : (s.modFlash f).tens = s.tens := rfl
@[simp] theorem modFlash_dma (f : Flash → Flash) : (s.modFlash f).dma = s.dma := rfl
@[simp] theorem modFlash_rings (f : Flash → Flash) : (s.modFlash f).rings = s.rings := rfl
@[simp] theorem modFlash_threads (f : Flash → Flash) : (s.modFlash f).threads = s.threads := rfl
@[simp] theorem modFlash_ferry (f : Flash → Flash) : (s.modFlash f).ferry = s.ferry := rfl
@[simp] theorem modFlash_charter (f : Flash → Flash) : (s.modFlash f).charter = s.charter := rfl
@[simp] theorem modFlash_ports (f : Flash → Flash) : (s.modFlash f).ports = s.ports := rfl
@[simp] theorem modFlash_partners (f : Flash → Flash) : (s.modFlash f).partners = s.partners := rfl
@[simp] theorem modFlash_harbour (f : Flash → Flash) : (s.modFlash f).harbour = s.harbour := rfl
@[simp] theorem modFlash_harbourBad (f : Flash → Flash) : (s.modFlash f).harbourBad = s.harbourBad := rfl
@[simp] theorem modFlash_bufCorrected (f : Flash → Flash) : (s.modFlash f).bufCorrected = s.bufCorrected := rfl
@[simp] theorem modFlash_bufUncorrectable (f : Flash → Flash) : (s.modFlash f).bufUncorrectable = s.bufUncorrectable := rfl
@[simp] theorem modFlash_harbourSoft (f : Flash → Flash) : (s.modFlash f).harbourSoft = s.harbourSoft := rfl
@[simp] theorem modFlash_partnerBad (f : Flash → Flash) : (s.modFlash f).partnerBad = s.partnerBad := rfl
@[simp] theorem modFlash_progMem (f : Flash → Flash) : (s.modFlash f).progMem = s.progMem := rfl
@[simp] theorem modFlash_progBad (f : Flash → Flash) : (s.modFlash f).progBad = s.progBad := rfl
@[simp] theorem modFlash_tallyLatch (f : Flash → Flash) : (s.modFlash f).tallyLatch = s.tallyLatch := rfl
@[simp] theorem modFlash_tb (f : Flash → Flash) : (s.modFlash f).tb = s.tb := rfl
@[simp] theorem modFlash_leave (f : Flash → Flash) : (s.modFlash f).leave = s.leave := rfl
@[simp] theorem modFlash_log (f : Flash → Flash) : (s.modFlash f).log = s.log := rfl
@[simp] theorem modFlash_ptu (f : Flash → Flash) : (s.modFlash f).ptu = s.ptu := rfl
@[simp] theorem modFlash_ptuHeld (f : Flash → Flash) : (s.modFlash f).ptuHeld = s.ptuHeld := rfl

/-! ## modChain -/

@[simp] theorem modChain_pending (f : Chain → Chain) : (s.modChain f).pending = s.pending := rfl
@[simp] theorem modChain_out (f : Chain → Chain) : (s.modChain f).out = s.out := rfl
@[simp] theorem modChain_freeCounter (f : Chain → Chain) : (s.modChain f).freeCounter = s.freeCounter := rfl
@[simp] theorem modChain_coreNs (f : Chain → Chain) : (s.modChain f).coreNs = s.coreNs := rfl
@[simp] theorem modChain_mode (f : Chain → Chain) : (s.modChain f).mode = s.mode := rfl
@[simp] theorem modChain_islands (f : Chain → Chain) : (s.modChain f).islands = s.islands := rfl
@[simp] theorem modChain_frames (f : Chain → Chain) : (s.modChain f).frames = s.frames := rfl
@[simp] theorem modChain_clocks (f : Chain → Chain) : (s.modChain f).clocks = s.clocks := rfl
@[simp] theorem modChain_ldr (f : Chain → Chain) : (s.modChain f).ldr = s.ldr := rfl
@[simp] theorem modChain_flash (f : Chain → Chain) : (s.modChain f).flash = s.flash := rfl
@[simp] theorem modChain_chain (f : Chain → Chain) : (s.modChain f).chain = f s.chain := rfl
@[simp] theorem modChain_jtag (f : Chain → Chain) : (s.modChain f).jtag = s.jtag := rfl
@[simp] theorem modChain_tide (f : Chain → Chain) : (s.modChain f).tide = s.tide := rfl
@[simp] theorem modChain_behind (f : Chain → Chain) : (s.modChain f).behind = s.behind := rfl
@[simp] theorem modChain_banks (f : Chain → Chain) : (s.modChain f).banks = s.banks := rfl
@[simp] theorem modChain_link (f : Chain → Chain) : (s.modChain f).link = s.link := rfl
@[simp] theorem modChain_fns (f : Chain → Chain) : (s.modChain f).fns = s.fns := rfl
@[simp] theorem modChain_wins (f : Chain → Chain) : (s.modChain f).wins = s.wins := rfl
@[simp] theorem modChain_msix (f : Chain → Chain) : (s.modChain f).msix = s.msix := rfl
@[simp] theorem modChain_tens (f : Chain → Chain) : (s.modChain f).tens = s.tens := rfl
@[simp] theorem modChain_dma (f : Chain → Chain) : (s.modChain f).dma = s.dma := rfl
@[simp] theorem modChain_rings (f : Chain → Chain) : (s.modChain f).rings = s.rings := rfl
@[simp] theorem modChain_threads (f : Chain → Chain) : (s.modChain f).threads = s.threads := rfl
@[simp] theorem modChain_ferry (f : Chain → Chain) : (s.modChain f).ferry = s.ferry := rfl
@[simp] theorem modChain_charter (f : Chain → Chain) : (s.modChain f).charter = s.charter := rfl
@[simp] theorem modChain_ports (f : Chain → Chain) : (s.modChain f).ports = s.ports := rfl
@[simp] theorem modChain_partners (f : Chain → Chain) : (s.modChain f).partners = s.partners := rfl
@[simp] theorem modChain_harbour (f : Chain → Chain) : (s.modChain f).harbour = s.harbour := rfl
@[simp] theorem modChain_harbourBad (f : Chain → Chain) : (s.modChain f).harbourBad = s.harbourBad := rfl
@[simp] theorem modChain_bufCorrected (f : Chain → Chain) : (s.modChain f).bufCorrected = s.bufCorrected := rfl
@[simp] theorem modChain_bufUncorrectable (f : Chain → Chain) : (s.modChain f).bufUncorrectable = s.bufUncorrectable := rfl
@[simp] theorem modChain_harbourSoft (f : Chain → Chain) : (s.modChain f).harbourSoft = s.harbourSoft := rfl
@[simp] theorem modChain_partnerBad (f : Chain → Chain) : (s.modChain f).partnerBad = s.partnerBad := rfl
@[simp] theorem modChain_progMem (f : Chain → Chain) : (s.modChain f).progMem = s.progMem := rfl
@[simp] theorem modChain_progBad (f : Chain → Chain) : (s.modChain f).progBad = s.progBad := rfl
@[simp] theorem modChain_tallyLatch (f : Chain → Chain) : (s.modChain f).tallyLatch = s.tallyLatch := rfl
@[simp] theorem modChain_tb (f : Chain → Chain) : (s.modChain f).tb = s.tb := rfl
@[simp] theorem modChain_leave (f : Chain → Chain) : (s.modChain f).leave = s.leave := rfl
@[simp] theorem modChain_log (f : Chain → Chain) : (s.modChain f).log = s.log := rfl
@[simp] theorem modChain_ptu (f : Chain → Chain) : (s.modChain f).ptu = s.ptu := rfl
@[simp] theorem modChain_ptuHeld (f : Chain → Chain) : (s.modChain f).ptuHeld = s.ptuHeld := rfl

/-! ## modJtag -/

@[simp] theorem modJtag_pending (f : Jtag → Jtag) : (s.modJtag f).pending = s.pending := rfl
@[simp] theorem modJtag_out (f : Jtag → Jtag) : (s.modJtag f).out = s.out := rfl
@[simp] theorem modJtag_freeCounter (f : Jtag → Jtag) : (s.modJtag f).freeCounter = s.freeCounter := rfl
@[simp] theorem modJtag_coreNs (f : Jtag → Jtag) : (s.modJtag f).coreNs = s.coreNs := rfl
@[simp] theorem modJtag_mode (f : Jtag → Jtag) : (s.modJtag f).mode = s.mode := rfl
@[simp] theorem modJtag_islands (f : Jtag → Jtag) : (s.modJtag f).islands = s.islands := rfl
@[simp] theorem modJtag_frames (f : Jtag → Jtag) : (s.modJtag f).frames = s.frames := rfl
@[simp] theorem modJtag_clocks (f : Jtag → Jtag) : (s.modJtag f).clocks = s.clocks := rfl
@[simp] theorem modJtag_ldr (f : Jtag → Jtag) : (s.modJtag f).ldr = s.ldr := rfl
@[simp] theorem modJtag_flash (f : Jtag → Jtag) : (s.modJtag f).flash = s.flash := rfl
@[simp] theorem modJtag_chain (f : Jtag → Jtag) : (s.modJtag f).chain = s.chain := rfl
@[simp] theorem modJtag_jtag (f : Jtag → Jtag) : (s.modJtag f).jtag = f s.jtag := rfl
@[simp] theorem modJtag_tide (f : Jtag → Jtag) : (s.modJtag f).tide = s.tide := rfl
@[simp] theorem modJtag_behind (f : Jtag → Jtag) : (s.modJtag f).behind = s.behind := rfl
@[simp] theorem modJtag_banks (f : Jtag → Jtag) : (s.modJtag f).banks = s.banks := rfl
@[simp] theorem modJtag_link (f : Jtag → Jtag) : (s.modJtag f).link = s.link := rfl
@[simp] theorem modJtag_fns (f : Jtag → Jtag) : (s.modJtag f).fns = s.fns := rfl
@[simp] theorem modJtag_wins (f : Jtag → Jtag) : (s.modJtag f).wins = s.wins := rfl
@[simp] theorem modJtag_msix (f : Jtag → Jtag) : (s.modJtag f).msix = s.msix := rfl
@[simp] theorem modJtag_tens (f : Jtag → Jtag) : (s.modJtag f).tens = s.tens := rfl
@[simp] theorem modJtag_dma (f : Jtag → Jtag) : (s.modJtag f).dma = s.dma := rfl
@[simp] theorem modJtag_rings (f : Jtag → Jtag) : (s.modJtag f).rings = s.rings := rfl
@[simp] theorem modJtag_threads (f : Jtag → Jtag) : (s.modJtag f).threads = s.threads := rfl
@[simp] theorem modJtag_ferry (f : Jtag → Jtag) : (s.modJtag f).ferry = s.ferry := rfl
@[simp] theorem modJtag_charter (f : Jtag → Jtag) : (s.modJtag f).charter = s.charter := rfl
@[simp] theorem modJtag_ports (f : Jtag → Jtag) : (s.modJtag f).ports = s.ports := rfl
@[simp] theorem modJtag_partners (f : Jtag → Jtag) : (s.modJtag f).partners = s.partners := rfl
@[simp] theorem modJtag_harbour (f : Jtag → Jtag) : (s.modJtag f).harbour = s.harbour := rfl
@[simp] theorem modJtag_harbourBad (f : Jtag → Jtag) : (s.modJtag f).harbourBad = s.harbourBad := rfl
@[simp] theorem modJtag_bufCorrected (f : Jtag → Jtag) : (s.modJtag f).bufCorrected = s.bufCorrected := rfl
@[simp] theorem modJtag_bufUncorrectable (f : Jtag → Jtag) : (s.modJtag f).bufUncorrectable = s.bufUncorrectable := rfl
@[simp] theorem modJtag_harbourSoft (f : Jtag → Jtag) : (s.modJtag f).harbourSoft = s.harbourSoft := rfl
@[simp] theorem modJtag_partnerBad (f : Jtag → Jtag) : (s.modJtag f).partnerBad = s.partnerBad := rfl
@[simp] theorem modJtag_progMem (f : Jtag → Jtag) : (s.modJtag f).progMem = s.progMem := rfl
@[simp] theorem modJtag_progBad (f : Jtag → Jtag) : (s.modJtag f).progBad = s.progBad := rfl
@[simp] theorem modJtag_tallyLatch (f : Jtag → Jtag) : (s.modJtag f).tallyLatch = s.tallyLatch := rfl
@[simp] theorem modJtag_tb (f : Jtag → Jtag) : (s.modJtag f).tb = s.tb := rfl
@[simp] theorem modJtag_leave (f : Jtag → Jtag) : (s.modJtag f).leave = s.leave := rfl
@[simp] theorem modJtag_log (f : Jtag → Jtag) : (s.modJtag f).log = s.log := rfl
@[simp] theorem modJtag_ptu (f : Jtag → Jtag) : (s.modJtag f).ptu = s.ptu := rfl
@[simp] theorem modJtag_ptuHeld (f : Jtag → Jtag) : (s.modJtag f).ptuHeld = s.ptuHeld := rfl

/-! ## modTide -/

@[simp] theorem modTide_pending (f : Tide → Tide) : (s.modTide f).pending = s.pending := rfl
@[simp] theorem modTide_out (f : Tide → Tide) : (s.modTide f).out = s.out := rfl
@[simp] theorem modTide_freeCounter (f : Tide → Tide) : (s.modTide f).freeCounter = s.freeCounter := rfl
@[simp] theorem modTide_coreNs (f : Tide → Tide) : (s.modTide f).coreNs = s.coreNs := rfl
@[simp] theorem modTide_mode (f : Tide → Tide) : (s.modTide f).mode = s.mode := rfl
@[simp] theorem modTide_islands (f : Tide → Tide) : (s.modTide f).islands = s.islands := rfl
@[simp] theorem modTide_frames (f : Tide → Tide) : (s.modTide f).frames = s.frames := rfl
@[simp] theorem modTide_clocks (f : Tide → Tide) : (s.modTide f).clocks = s.clocks := rfl
@[simp] theorem modTide_ldr (f : Tide → Tide) : (s.modTide f).ldr = s.ldr := rfl
@[simp] theorem modTide_flash (f : Tide → Tide) : (s.modTide f).flash = s.flash := rfl
@[simp] theorem modTide_chain (f : Tide → Tide) : (s.modTide f).chain = s.chain := rfl
@[simp] theorem modTide_jtag (f : Tide → Tide) : (s.modTide f).jtag = s.jtag := rfl
@[simp] theorem modTide_tide (f : Tide → Tide) : (s.modTide f).tide = f s.tide := rfl
@[simp] theorem modTide_banks (f : Tide → Tide) : (s.modTide f).banks = s.banks := rfl
@[simp] theorem modTide_behind (f : Tide → Tide) : (s.modTide f).behind = s.behind := rfl
@[simp] theorem modTide_link (f : Tide → Tide) : (s.modTide f).link = s.link := rfl
@[simp] theorem modTide_fns (f : Tide → Tide) : (s.modTide f).fns = s.fns := rfl
@[simp] theorem modTide_wins (f : Tide → Tide) : (s.modTide f).wins = s.wins := rfl
@[simp] theorem modTide_msix (f : Tide → Tide) : (s.modTide f).msix = s.msix := rfl
@[simp] theorem modTide_tens (f : Tide → Tide) : (s.modTide f).tens = s.tens := rfl
@[simp] theorem modTide_dma (f : Tide → Tide) : (s.modTide f).dma = s.dma := rfl
@[simp] theorem modTide_rings (f : Tide → Tide) : (s.modTide f).rings = s.rings := rfl
@[simp] theorem modTide_threads (f : Tide → Tide) : (s.modTide f).threads = s.threads := rfl
@[simp] theorem modTide_ferry (f : Tide → Tide) : (s.modTide f).ferry = s.ferry := rfl
@[simp] theorem modTide_charter (f : Tide → Tide) : (s.modTide f).charter = s.charter := rfl
@[simp] theorem modTide_ports (f : Tide → Tide) : (s.modTide f).ports = s.ports := rfl
@[simp] theorem modTide_partners (f : Tide → Tide) : (s.modTide f).partners = s.partners := rfl
@[simp] theorem modTide_harbour (f : Tide → Tide) : (s.modTide f).harbour = s.harbour := rfl
@[simp] theorem modTide_harbourBad (f : Tide → Tide) : (s.modTide f).harbourBad = s.harbourBad := rfl
@[simp] theorem modTide_bufCorrected (f : Tide → Tide) : (s.modTide f).bufCorrected = s.bufCorrected := rfl
@[simp] theorem modTide_bufUncorrectable (f : Tide → Tide) : (s.modTide f).bufUncorrectable = s.bufUncorrectable := rfl
@[simp] theorem modTide_harbourSoft (f : Tide → Tide) : (s.modTide f).harbourSoft = s.harbourSoft := rfl
@[simp] theorem modTide_partnerBad (f : Tide → Tide) : (s.modTide f).partnerBad = s.partnerBad := rfl
@[simp] theorem modTide_progMem (f : Tide → Tide) : (s.modTide f).progMem = s.progMem := rfl
@[simp] theorem modTide_progBad (f : Tide → Tide) : (s.modTide f).progBad = s.progBad := rfl
@[simp] theorem modTide_tallyLatch (f : Tide → Tide) : (s.modTide f).tallyLatch = s.tallyLatch := rfl
@[simp] theorem modTide_tb (f : Tide → Tide) : (s.modTide f).tb = s.tb := rfl
@[simp] theorem modTide_leave (f : Tide → Tide) : (s.modTide f).leave = s.leave := rfl
@[simp] theorem modTide_log (f : Tide → Tide) : (s.modTide f).log = s.log := rfl
@[simp] theorem modTide_ptu (f : Tide → Tide) : (s.modTide f).ptu = s.ptu := rfl
@[simp] theorem modTide_ptuHeld (f : Tide → Tide) : (s.modTide f).ptuHeld = s.ptuHeld := rfl

/-! ## modClocks -/

@[simp] theorem modClocks_pending (f : Clocks → Clocks) : (s.modClocks f).pending = s.pending := rfl
@[simp] theorem modClocks_out (f : Clocks → Clocks) : (s.modClocks f).out = s.out := rfl
@[simp] theorem modClocks_freeCounter (f : Clocks → Clocks) : (s.modClocks f).freeCounter = s.freeCounter := rfl
@[simp] theorem modClocks_coreNs (f : Clocks → Clocks) : (s.modClocks f).coreNs = s.coreNs := rfl
@[simp] theorem modClocks_mode (f : Clocks → Clocks) : (s.modClocks f).mode = s.mode := rfl
@[simp] theorem modClocks_islands (f : Clocks → Clocks) : (s.modClocks f).islands = s.islands := rfl
@[simp] theorem modClocks_frames (f : Clocks → Clocks) : (s.modClocks f).frames = s.frames := rfl
@[simp] theorem modClocks_clocks (f : Clocks → Clocks) : (s.modClocks f).clocks = f s.clocks := rfl
@[simp] theorem modClocks_ldr (f : Clocks → Clocks) : (s.modClocks f).ldr = s.ldr := rfl
@[simp] theorem modClocks_flash (f : Clocks → Clocks) : (s.modClocks f).flash = s.flash := rfl
@[simp] theorem modClocks_chain (f : Clocks → Clocks) : (s.modClocks f).chain = s.chain := rfl
@[simp] theorem modClocks_jtag (f : Clocks → Clocks) : (s.modClocks f).jtag = s.jtag := rfl
@[simp] theorem modClocks_tide (f : Clocks → Clocks) : (s.modClocks f).tide = s.tide := rfl
@[simp] theorem modClocks_behind (f : Clocks → Clocks) : (s.modClocks f).behind = s.behind := rfl
@[simp] theorem modClocks_banks (f : Clocks → Clocks) : (s.modClocks f).banks = s.banks := rfl
@[simp] theorem modClocks_link (f : Clocks → Clocks) : (s.modClocks f).link = s.link := rfl
@[simp] theorem modClocks_fns (f : Clocks → Clocks) : (s.modClocks f).fns = s.fns := rfl
@[simp] theorem modClocks_wins (f : Clocks → Clocks) : (s.modClocks f).wins = s.wins := rfl
@[simp] theorem modClocks_msix (f : Clocks → Clocks) : (s.modClocks f).msix = s.msix := rfl
@[simp] theorem modClocks_tens (f : Clocks → Clocks) : (s.modClocks f).tens = s.tens := rfl
@[simp] theorem modClocks_dma (f : Clocks → Clocks) : (s.modClocks f).dma = s.dma := rfl
@[simp] theorem modClocks_rings (f : Clocks → Clocks) : (s.modClocks f).rings = s.rings := rfl
@[simp] theorem modClocks_threads (f : Clocks → Clocks) : (s.modClocks f).threads = s.threads := rfl
@[simp] theorem modClocks_ferry (f : Clocks → Clocks) : (s.modClocks f).ferry = s.ferry := rfl
@[simp] theorem modClocks_charter (f : Clocks → Clocks) : (s.modClocks f).charter = s.charter := rfl
@[simp] theorem modClocks_ports (f : Clocks → Clocks) : (s.modClocks f).ports = s.ports := rfl
@[simp] theorem modClocks_partners (f : Clocks → Clocks) : (s.modClocks f).partners = s.partners := rfl
@[simp] theorem modClocks_harbour (f : Clocks → Clocks) : (s.modClocks f).harbour = s.harbour := rfl
@[simp] theorem modClocks_harbourBad (f : Clocks → Clocks) : (s.modClocks f).harbourBad = s.harbourBad := rfl
@[simp] theorem modClocks_bufCorrected (f : Clocks → Clocks) : (s.modClocks f).bufCorrected = s.bufCorrected := rfl
@[simp] theorem modClocks_bufUncorrectable (f : Clocks → Clocks) : (s.modClocks f).bufUncorrectable = s.bufUncorrectable := rfl
@[simp] theorem modClocks_harbourSoft (f : Clocks → Clocks) : (s.modClocks f).harbourSoft = s.harbourSoft := rfl
@[simp] theorem modClocks_partnerBad (f : Clocks → Clocks) : (s.modClocks f).partnerBad = s.partnerBad := rfl
@[simp] theorem modClocks_progMem (f : Clocks → Clocks) : (s.modClocks f).progMem = s.progMem := rfl
@[simp] theorem modClocks_progBad (f : Clocks → Clocks) : (s.modClocks f).progBad = s.progBad := rfl
@[simp] theorem modClocks_tallyLatch (f : Clocks → Clocks) : (s.modClocks f).tallyLatch = s.tallyLatch := rfl
@[simp] theorem modClocks_tb (f : Clocks → Clocks) : (s.modClocks f).tb = s.tb := rfl
@[simp] theorem modClocks_leave (f : Clocks → Clocks) : (s.modClocks f).leave = s.leave := rfl
@[simp] theorem modClocks_log (f : Clocks → Clocks) : (s.modClocks f).log = s.log := rfl
@[simp] theorem modClocks_ptu (f : Clocks → Clocks) : (s.modClocks f).ptu = s.ptu := rfl
@[simp] theorem modClocks_ptuHeld (f : Clocks → Clocks) : (s.modClocks f).ptuHeld = s.ptuHeld := rfl

/-! ## modLink -/

@[simp] theorem modLink_pending (f : Link → Link) : (s.modLink f).pending = s.pending := rfl
@[simp] theorem modLink_out (f : Link → Link) : (s.modLink f).out = s.out := rfl
@[simp] theorem modLink_freeCounter (f : Link → Link) : (s.modLink f).freeCounter = s.freeCounter := rfl
@[simp] theorem modLink_coreNs (f : Link → Link) : (s.modLink f).coreNs = s.coreNs := rfl
@[simp] theorem modLink_mode (f : Link → Link) : (s.modLink f).mode = s.mode := rfl
@[simp] theorem modLink_islands (f : Link → Link) : (s.modLink f).islands = s.islands := rfl
@[simp] theorem modLink_frames (f : Link → Link) : (s.modLink f).frames = s.frames := rfl
@[simp] theorem modLink_clocks (f : Link → Link) : (s.modLink f).clocks = s.clocks := rfl
@[simp] theorem modLink_ldr (f : Link → Link) : (s.modLink f).ldr = s.ldr := rfl
@[simp] theorem modLink_flash (f : Link → Link) : (s.modLink f).flash = s.flash := rfl
@[simp] theorem modLink_chain (f : Link → Link) : (s.modLink f).chain = s.chain := rfl
@[simp] theorem modLink_jtag (f : Link → Link) : (s.modLink f).jtag = s.jtag := rfl
@[simp] theorem modLink_tide (f : Link → Link) : (s.modLink f).tide = s.tide := rfl
@[simp] theorem modLink_behind (f : Link → Link) : (s.modLink f).behind = s.behind := rfl
@[simp] theorem modLink_banks (f : Link → Link) : (s.modLink f).banks = s.banks := rfl
@[simp] theorem modLink_link (f : Link → Link) : (s.modLink f).link = f s.link := rfl
@[simp] theorem modLink_fns (f : Link → Link) : (s.modLink f).fns = s.fns := rfl
@[simp] theorem modLink_wins (f : Link → Link) : (s.modLink f).wins = s.wins := rfl
@[simp] theorem modLink_msix (f : Link → Link) : (s.modLink f).msix = s.msix := rfl
@[simp] theorem modLink_tens (f : Link → Link) : (s.modLink f).tens = s.tens := rfl
@[simp] theorem modLink_dma (f : Link → Link) : (s.modLink f).dma = s.dma := rfl
@[simp] theorem modLink_rings (f : Link → Link) : (s.modLink f).rings = s.rings := rfl
@[simp] theorem modLink_threads (f : Link → Link) : (s.modLink f).threads = s.threads := rfl
@[simp] theorem modLink_ferry (f : Link → Link) : (s.modLink f).ferry = s.ferry := rfl
@[simp] theorem modLink_charter (f : Link → Link) : (s.modLink f).charter = s.charter := rfl
@[simp] theorem modLink_ports (f : Link → Link) : (s.modLink f).ports = s.ports := rfl
@[simp] theorem modLink_partners (f : Link → Link) : (s.modLink f).partners = s.partners := rfl
@[simp] theorem modLink_harbour (f : Link → Link) : (s.modLink f).harbour = s.harbour := rfl
@[simp] theorem modLink_harbourBad (f : Link → Link) : (s.modLink f).harbourBad = s.harbourBad := rfl
@[simp] theorem modLink_bufCorrected (f : Link → Link) : (s.modLink f).bufCorrected = s.bufCorrected := rfl
@[simp] theorem modLink_bufUncorrectable (f : Link → Link) : (s.modLink f).bufUncorrectable = s.bufUncorrectable := rfl
@[simp] theorem modLink_harbourSoft (f : Link → Link) : (s.modLink f).harbourSoft = s.harbourSoft := rfl
@[simp] theorem modLink_partnerBad (f : Link → Link) : (s.modLink f).partnerBad = s.partnerBad := rfl
@[simp] theorem modLink_progMem (f : Link → Link) : (s.modLink f).progMem = s.progMem := rfl
@[simp] theorem modLink_progBad (f : Link → Link) : (s.modLink f).progBad = s.progBad := rfl
@[simp] theorem modLink_tallyLatch (f : Link → Link) : (s.modLink f).tallyLatch = s.tallyLatch := rfl
@[simp] theorem modLink_tb (f : Link → Link) : (s.modLink f).tb = s.tb := rfl
@[simp] theorem modLink_leave (f : Link → Link) : (s.modLink f).leave = s.leave := rfl
@[simp] theorem modLink_log (f : Link → Link) : (s.modLink f).log = s.log := rfl
@[simp] theorem modLink_ptu (f : Link → Link) : (s.modLink f).ptu = s.ptu := rfl
@[simp] theorem modLink_ptuHeld (f : Link → Link) : (s.modLink f).ptuHeld = s.ptuHeld := rfl

/-! ## modDma -/

@[simp] theorem modDma_pending (f : Dma → Dma) : (s.modDma f).pending = s.pending := rfl
@[simp] theorem modDma_out (f : Dma → Dma) : (s.modDma f).out = s.out := rfl
@[simp] theorem modDma_freeCounter (f : Dma → Dma) : (s.modDma f).freeCounter = s.freeCounter := rfl
@[simp] theorem modDma_coreNs (f : Dma → Dma) : (s.modDma f).coreNs = s.coreNs := rfl
@[simp] theorem modDma_mode (f : Dma → Dma) : (s.modDma f).mode = s.mode := rfl
@[simp] theorem modDma_islands (f : Dma → Dma) : (s.modDma f).islands = s.islands := rfl
@[simp] theorem modDma_frames (f : Dma → Dma) : (s.modDma f).frames = s.frames := rfl
@[simp] theorem modDma_clocks (f : Dma → Dma) : (s.modDma f).clocks = s.clocks := rfl
@[simp] theorem modDma_ldr (f : Dma → Dma) : (s.modDma f).ldr = s.ldr := rfl
@[simp] theorem modDma_flash (f : Dma → Dma) : (s.modDma f).flash = s.flash := rfl
@[simp] theorem modDma_chain (f : Dma → Dma) : (s.modDma f).chain = s.chain := rfl
@[simp] theorem modDma_jtag (f : Dma → Dma) : (s.modDma f).jtag = s.jtag := rfl
@[simp] theorem modDma_tide (f : Dma → Dma) : (s.modDma f).tide = s.tide := rfl
@[simp] theorem modDma_behind (f : Dma → Dma) : (s.modDma f).behind = s.behind := rfl
@[simp] theorem modDma_banks (f : Dma → Dma) : (s.modDma f).banks = s.banks := rfl
@[simp] theorem modDma_link (f : Dma → Dma) : (s.modDma f).link = s.link := rfl
@[simp] theorem modDma_fns (f : Dma → Dma) : (s.modDma f).fns = s.fns := rfl
@[simp] theorem modDma_wins (f : Dma → Dma) : (s.modDma f).wins = s.wins := rfl
@[simp] theorem modDma_msix (f : Dma → Dma) : (s.modDma f).msix = s.msix := rfl
@[simp] theorem modDma_tens (f : Dma → Dma) : (s.modDma f).tens = s.tens := rfl
@[simp] theorem modDma_dma (f : Dma → Dma) : (s.modDma f).dma = f s.dma := rfl
@[simp] theorem modDma_rings (f : Dma → Dma) : (s.modDma f).rings = s.rings := rfl
@[simp] theorem modDma_threads (f : Dma → Dma) : (s.modDma f).threads = s.threads := rfl
@[simp] theorem modDma_ferry (f : Dma → Dma) : (s.modDma f).ferry = s.ferry := rfl
@[simp] theorem modDma_charter (f : Dma → Dma) : (s.modDma f).charter = s.charter := rfl
@[simp] theorem modDma_ports (f : Dma → Dma) : (s.modDma f).ports = s.ports := rfl
@[simp] theorem modDma_partners (f : Dma → Dma) : (s.modDma f).partners = s.partners := rfl
@[simp] theorem modDma_harbour (f : Dma → Dma) : (s.modDma f).harbour = s.harbour := rfl
@[simp] theorem modDma_harbourBad (f : Dma → Dma) : (s.modDma f).harbourBad = s.harbourBad := rfl
@[simp] theorem modDma_bufCorrected (f : Dma → Dma) : (s.modDma f).bufCorrected = s.bufCorrected := rfl
@[simp] theorem modDma_bufUncorrectable (f : Dma → Dma) : (s.modDma f).bufUncorrectable = s.bufUncorrectable := rfl
@[simp] theorem modDma_harbourSoft (f : Dma → Dma) : (s.modDma f).harbourSoft = s.harbourSoft := rfl
@[simp] theorem modDma_partnerBad (f : Dma → Dma) : (s.modDma f).partnerBad = s.partnerBad := rfl
@[simp] theorem modDma_progMem (f : Dma → Dma) : (s.modDma f).progMem = s.progMem := rfl
@[simp] theorem modDma_progBad (f : Dma → Dma) : (s.modDma f).progBad = s.progBad := rfl
@[simp] theorem modDma_tallyLatch (f : Dma → Dma) : (s.modDma f).tallyLatch = s.tallyLatch := rfl
@[simp] theorem modDma_tb (f : Dma → Dma) : (s.modDma f).tb = s.tb := rfl
@[simp] theorem modDma_leave (f : Dma → Dma) : (s.modDma f).leave = s.leave := rfl
@[simp] theorem modDma_log (f : Dma → Dma) : (s.modDma f).log = s.log := rfl
@[simp] theorem modDma_ptu (f : Dma → Dma) : (s.modDma f).ptu = s.ptu := rfl
@[simp] theorem modDma_ptuHeld (f : Dma → Dma) : (s.modDma f).ptuHeld = s.ptuHeld := rfl

/-! ## modFerry -/

@[simp] theorem modFerry_pending (f : Ferry → Ferry) : (s.modFerry f).pending = s.pending := rfl
@[simp] theorem modFerry_out (f : Ferry → Ferry) : (s.modFerry f).out = s.out := rfl
@[simp] theorem modFerry_freeCounter (f : Ferry → Ferry) : (s.modFerry f).freeCounter = s.freeCounter := rfl
@[simp] theorem modFerry_coreNs (f : Ferry → Ferry) : (s.modFerry f).coreNs = s.coreNs := rfl
@[simp] theorem modFerry_mode (f : Ferry → Ferry) : (s.modFerry f).mode = s.mode := rfl
@[simp] theorem modFerry_islands (f : Ferry → Ferry) : (s.modFerry f).islands = s.islands := rfl
@[simp] theorem modFerry_frames (f : Ferry → Ferry) : (s.modFerry f).frames = s.frames := rfl
@[simp] theorem modFerry_clocks (f : Ferry → Ferry) : (s.modFerry f).clocks = s.clocks := rfl
@[simp] theorem modFerry_ldr (f : Ferry → Ferry) : (s.modFerry f).ldr = s.ldr := rfl
@[simp] theorem modFerry_flash (f : Ferry → Ferry) : (s.modFerry f).flash = s.flash := rfl
@[simp] theorem modFerry_chain (f : Ferry → Ferry) : (s.modFerry f).chain = s.chain := rfl
@[simp] theorem modFerry_jtag (f : Ferry → Ferry) : (s.modFerry f).jtag = s.jtag := rfl
@[simp] theorem modFerry_tide (f : Ferry → Ferry) : (s.modFerry f).tide = s.tide := rfl
@[simp] theorem modFerry_behind (f : Ferry → Ferry) : (s.modFerry f).behind = s.behind := rfl
@[simp] theorem modFerry_banks (f : Ferry → Ferry) : (s.modFerry f).banks = s.banks := rfl
@[simp] theorem modFerry_link (f : Ferry → Ferry) : (s.modFerry f).link = s.link := rfl
@[simp] theorem modFerry_fns (f : Ferry → Ferry) : (s.modFerry f).fns = s.fns := rfl
@[simp] theorem modFerry_wins (f : Ferry → Ferry) : (s.modFerry f).wins = s.wins := rfl
@[simp] theorem modFerry_msix (f : Ferry → Ferry) : (s.modFerry f).msix = s.msix := rfl
@[simp] theorem modFerry_tens (f : Ferry → Ferry) : (s.modFerry f).tens = s.tens := rfl
@[simp] theorem modFerry_dma (f : Ferry → Ferry) : (s.modFerry f).dma = s.dma := rfl
@[simp] theorem modFerry_rings (f : Ferry → Ferry) : (s.modFerry f).rings = s.rings := rfl
@[simp] theorem modFerry_threads (f : Ferry → Ferry) : (s.modFerry f).threads = s.threads := rfl
@[simp] theorem modFerry_ferry (f : Ferry → Ferry) : (s.modFerry f).ferry = f s.ferry := rfl
@[simp] theorem modFerry_charter (f : Ferry → Ferry) : (s.modFerry f).charter = s.charter := rfl
@[simp] theorem modFerry_ports (f : Ferry → Ferry) : (s.modFerry f).ports = s.ports := rfl
@[simp] theorem modFerry_partners (f : Ferry → Ferry) : (s.modFerry f).partners = s.partners := rfl
@[simp] theorem modFerry_harbour (f : Ferry → Ferry) : (s.modFerry f).harbour = s.harbour := rfl
@[simp] theorem modFerry_harbourBad (f : Ferry → Ferry) : (s.modFerry f).harbourBad = s.harbourBad := rfl
@[simp] theorem modFerry_bufCorrected (f : Ferry → Ferry) : (s.modFerry f).bufCorrected = s.bufCorrected := rfl
@[simp] theorem modFerry_bufUncorrectable (f : Ferry → Ferry) : (s.modFerry f).bufUncorrectable = s.bufUncorrectable := rfl
@[simp] theorem modFerry_harbourSoft (f : Ferry → Ferry) : (s.modFerry f).harbourSoft = s.harbourSoft := rfl
@[simp] theorem modFerry_partnerBad (f : Ferry → Ferry) : (s.modFerry f).partnerBad = s.partnerBad := rfl
@[simp] theorem modFerry_progMem (f : Ferry → Ferry) : (s.modFerry f).progMem = s.progMem := rfl
@[simp] theorem modFerry_progBad (f : Ferry → Ferry) : (s.modFerry f).progBad = s.progBad := rfl
@[simp] theorem modFerry_tallyLatch (f : Ferry → Ferry) : (s.modFerry f).tallyLatch = s.tallyLatch := rfl
@[simp] theorem modFerry_tb (f : Ferry → Ferry) : (s.modFerry f).tb = s.tb := rfl
@[simp] theorem modFerry_leave (f : Ferry → Ferry) : (s.modFerry f).leave = s.leave := rfl
@[simp] theorem modFerry_log (f : Ferry → Ferry) : (s.modFerry f).log = s.log := rfl
@[simp] theorem modFerry_ptu (f : Ferry → Ferry) : (s.modFerry f).ptu = s.ptu := rfl
@[simp] theorem modFerry_ptuHeld (f : Ferry → Ferry) : (s.modFerry f).ptuHeld = s.ptuHeld := rfl

/-! ## modCharter -/

@[simp] theorem modCharter_pending (f : Charter → Charter) : (s.modCharter f).pending = s.pending := rfl
@[simp] theorem modCharter_out (f : Charter → Charter) : (s.modCharter f).out = s.out := rfl
@[simp] theorem modCharter_freeCounter (f : Charter → Charter) : (s.modCharter f).freeCounter = s.freeCounter := rfl
@[simp] theorem modCharter_coreNs (f : Charter → Charter) : (s.modCharter f).coreNs = s.coreNs := rfl
@[simp] theorem modCharter_mode (f : Charter → Charter) : (s.modCharter f).mode = s.mode := rfl
@[simp] theorem modCharter_islands (f : Charter → Charter) : (s.modCharter f).islands = s.islands := rfl
@[simp] theorem modCharter_frames (f : Charter → Charter) : (s.modCharter f).frames = s.frames := rfl
@[simp] theorem modCharter_clocks (f : Charter → Charter) : (s.modCharter f).clocks = s.clocks := rfl
@[simp] theorem modCharter_ldr (f : Charter → Charter) : (s.modCharter f).ldr = s.ldr := rfl
@[simp] theorem modCharter_flash (f : Charter → Charter) : (s.modCharter f).flash = s.flash := rfl
@[simp] theorem modCharter_chain (f : Charter → Charter) : (s.modCharter f).chain = s.chain := rfl
@[simp] theorem modCharter_jtag (f : Charter → Charter) : (s.modCharter f).jtag = s.jtag := rfl
@[simp] theorem modCharter_tide (f : Charter → Charter) : (s.modCharter f).tide = s.tide := rfl
@[simp] theorem modCharter_behind (f : Charter → Charter) : (s.modCharter f).behind = s.behind := rfl
@[simp] theorem modCharter_banks (f : Charter → Charter) : (s.modCharter f).banks = s.banks := rfl
@[simp] theorem modCharter_link (f : Charter → Charter) : (s.modCharter f).link = s.link := rfl
@[simp] theorem modCharter_fns (f : Charter → Charter) : (s.modCharter f).fns = s.fns := rfl
@[simp] theorem modCharter_wins (f : Charter → Charter) : (s.modCharter f).wins = s.wins := rfl
@[simp] theorem modCharter_msix (f : Charter → Charter) : (s.modCharter f).msix = s.msix := rfl
@[simp] theorem modCharter_tens (f : Charter → Charter) : (s.modCharter f).tens = s.tens := rfl
@[simp] theorem modCharter_dma (f : Charter → Charter) : (s.modCharter f).dma = s.dma := rfl
@[simp] theorem modCharter_rings (f : Charter → Charter) : (s.modCharter f).rings = s.rings := rfl
@[simp] theorem modCharter_threads (f : Charter → Charter) : (s.modCharter f).threads = s.threads := rfl
@[simp] theorem modCharter_ferry (f : Charter → Charter) : (s.modCharter f).ferry = s.ferry := rfl
@[simp] theorem modCharter_charter (f : Charter → Charter) : (s.modCharter f).charter = f s.charter := rfl
@[simp] theorem modCharter_ports (f : Charter → Charter) : (s.modCharter f).ports = s.ports := rfl
@[simp] theorem modCharter_partners (f : Charter → Charter) : (s.modCharter f).partners = s.partners := rfl
@[simp] theorem modCharter_harbour (f : Charter → Charter) : (s.modCharter f).harbour = s.harbour := rfl
@[simp] theorem modCharter_harbourBad (f : Charter → Charter) : (s.modCharter f).harbourBad = s.harbourBad := rfl
@[simp] theorem modCharter_bufCorrected (f : Charter → Charter) : (s.modCharter f).bufCorrected = s.bufCorrected := rfl
@[simp] theorem modCharter_bufUncorrectable (f : Charter → Charter) : (s.modCharter f).bufUncorrectable = s.bufUncorrectable := rfl
@[simp] theorem modCharter_harbourSoft (f : Charter → Charter) : (s.modCharter f).harbourSoft = s.harbourSoft := rfl
@[simp] theorem modCharter_partnerBad (f : Charter → Charter) : (s.modCharter f).partnerBad = s.partnerBad := rfl
@[simp] theorem modCharter_progMem (f : Charter → Charter) : (s.modCharter f).progMem = s.progMem := rfl
@[simp] theorem modCharter_progBad (f : Charter → Charter) : (s.modCharter f).progBad = s.progBad := rfl
@[simp] theorem modCharter_tallyLatch (f : Charter → Charter) : (s.modCharter f).tallyLatch = s.tallyLatch := rfl
@[simp] theorem modCharter_tb (f : Charter → Charter) : (s.modCharter f).tb = s.tb := rfl
@[simp] theorem modCharter_leave (f : Charter → Charter) : (s.modCharter f).leave = s.leave := rfl
@[simp] theorem modCharter_log (f : Charter → Charter) : (s.modCharter f).log = s.log := rfl
@[simp] theorem modCharter_ptu (f : Charter → Charter) : (s.modCharter f).ptu = s.ptu := rfl
@[simp] theorem modCharter_ptuHeld (f : Charter → Charter) : (s.modCharter f).ptuHeld = s.ptuHeld := rfl

/-! ## modTb -/

@[simp] theorem modTb_pending (f : Timebase → Timebase) : (s.modTb f).pending = s.pending := rfl
@[simp] theorem modTb_out (f : Timebase → Timebase) : (s.modTb f).out = s.out := rfl
@[simp] theorem modTb_freeCounter (f : Timebase → Timebase) : (s.modTb f).freeCounter = s.freeCounter := rfl
@[simp] theorem modTb_coreNs (f : Timebase → Timebase) : (s.modTb f).coreNs = s.coreNs := rfl
@[simp] theorem modTb_mode (f : Timebase → Timebase) : (s.modTb f).mode = s.mode := rfl
@[simp] theorem modTb_islands (f : Timebase → Timebase) : (s.modTb f).islands = s.islands := rfl
@[simp] theorem modTb_frames (f : Timebase → Timebase) : (s.modTb f).frames = s.frames := rfl
@[simp] theorem modTb_clocks (f : Timebase → Timebase) : (s.modTb f).clocks = s.clocks := rfl
@[simp] theorem modTb_ldr (f : Timebase → Timebase) : (s.modTb f).ldr = s.ldr := rfl
@[simp] theorem modTb_flash (f : Timebase → Timebase) : (s.modTb f).flash = s.flash := rfl
@[simp] theorem modTb_chain (f : Timebase → Timebase) : (s.modTb f).chain = s.chain := rfl
@[simp] theorem modTb_jtag (f : Timebase → Timebase) : (s.modTb f).jtag = s.jtag := rfl
@[simp] theorem modTb_tide (f : Timebase → Timebase) : (s.modTb f).tide = s.tide := rfl
@[simp] theorem modTb_behind (f : Timebase → Timebase) : (s.modTb f).behind = s.behind := rfl
@[simp] theorem modTb_banks (f : Timebase → Timebase) : (s.modTb f).banks = s.banks := rfl
@[simp] theorem modTb_link (f : Timebase → Timebase) : (s.modTb f).link = s.link := rfl
@[simp] theorem modTb_fns (f : Timebase → Timebase) : (s.modTb f).fns = s.fns := rfl
@[simp] theorem modTb_wins (f : Timebase → Timebase) : (s.modTb f).wins = s.wins := rfl
@[simp] theorem modTb_msix (f : Timebase → Timebase) : (s.modTb f).msix = s.msix := rfl
@[simp] theorem modTb_tens (f : Timebase → Timebase) : (s.modTb f).tens = s.tens := rfl
@[simp] theorem modTb_dma (f : Timebase → Timebase) : (s.modTb f).dma = s.dma := rfl
@[simp] theorem modTb_rings (f : Timebase → Timebase) : (s.modTb f).rings = s.rings := rfl
@[simp] theorem modTb_threads (f : Timebase → Timebase) : (s.modTb f).threads = s.threads := rfl
@[simp] theorem modTb_ferry (f : Timebase → Timebase) : (s.modTb f).ferry = s.ferry := rfl
@[simp] theorem modTb_charter (f : Timebase → Timebase) : (s.modTb f).charter = s.charter := rfl
@[simp] theorem modTb_ports (f : Timebase → Timebase) : (s.modTb f).ports = s.ports := rfl
@[simp] theorem modTb_partners (f : Timebase → Timebase) : (s.modTb f).partners = s.partners := rfl
@[simp] theorem modTb_harbour (f : Timebase → Timebase) : (s.modTb f).harbour = s.harbour := rfl
@[simp] theorem modTb_harbourBad (f : Timebase → Timebase) : (s.modTb f).harbourBad = s.harbourBad := rfl
@[simp] theorem modTb_bufCorrected (f : Timebase → Timebase) : (s.modTb f).bufCorrected = s.bufCorrected := rfl
@[simp] theorem modTb_bufUncorrectable (f : Timebase → Timebase) : (s.modTb f).bufUncorrectable = s.bufUncorrectable := rfl
@[simp] theorem modTb_harbourSoft (f : Timebase → Timebase) : (s.modTb f).harbourSoft = s.harbourSoft := rfl
@[simp] theorem modTb_partnerBad (f : Timebase → Timebase) : (s.modTb f).partnerBad = s.partnerBad := rfl
@[simp] theorem modTb_progMem (f : Timebase → Timebase) : (s.modTb f).progMem = s.progMem := rfl
@[simp] theorem modTb_progBad (f : Timebase → Timebase) : (s.modTb f).progBad = s.progBad := rfl
@[simp] theorem modTb_tallyLatch (f : Timebase → Timebase) : (s.modTb f).tallyLatch = s.tallyLatch := rfl
@[simp] theorem modTb_tb (f : Timebase → Timebase) : (s.modTb f).tb = f s.tb := rfl
@[simp] theorem modTb_leave (f : Timebase → Timebase) : (s.modTb f).leave = s.leave := rfl
@[simp] theorem modTb_log (f : Timebase → Timebase) : (s.modTb f).log = s.log := rfl
@[simp] theorem modTb_ptu (f : Timebase → Timebase) : (s.modTb f).ptu = s.ptu := rfl
@[simp] theorem modTb_ptuHeld (f : Timebase → Timebase) : (s.modTb f).ptuHeld = s.ptuHeld := rfl

/-! ## modLeave -/

@[simp] theorem modLeave_pending (f : Leave → Leave) : (s.modLeave f).pending = s.pending := rfl
@[simp] theorem modLeave_out (f : Leave → Leave) : (s.modLeave f).out = s.out := rfl
@[simp] theorem modLeave_freeCounter (f : Leave → Leave) : (s.modLeave f).freeCounter = s.freeCounter := rfl
@[simp] theorem modLeave_coreNs (f : Leave → Leave) : (s.modLeave f).coreNs = s.coreNs := rfl
@[simp] theorem modLeave_mode (f : Leave → Leave) : (s.modLeave f).mode = s.mode := rfl
@[simp] theorem modLeave_islands (f : Leave → Leave) : (s.modLeave f).islands = s.islands := rfl
@[simp] theorem modLeave_frames (f : Leave → Leave) : (s.modLeave f).frames = s.frames := rfl
@[simp] theorem modLeave_clocks (f : Leave → Leave) : (s.modLeave f).clocks = s.clocks := rfl
@[simp] theorem modLeave_ldr (f : Leave → Leave) : (s.modLeave f).ldr = s.ldr := rfl
@[simp] theorem modLeave_flash (f : Leave → Leave) : (s.modLeave f).flash = s.flash := rfl
@[simp] theorem modLeave_chain (f : Leave → Leave) : (s.modLeave f).chain = s.chain := rfl
@[simp] theorem modLeave_jtag (f : Leave → Leave) : (s.modLeave f).jtag = s.jtag := rfl
@[simp] theorem modLeave_tide (f : Leave → Leave) : (s.modLeave f).tide = s.tide := rfl
@[simp] theorem modLeave_behind (f : Leave → Leave) : (s.modLeave f).behind = s.behind := rfl
@[simp] theorem modLeave_banks (f : Leave → Leave) : (s.modLeave f).banks = s.banks := rfl
@[simp] theorem modLeave_link (f : Leave → Leave) : (s.modLeave f).link = s.link := rfl
@[simp] theorem modLeave_fns (f : Leave → Leave) : (s.modLeave f).fns = s.fns := rfl
@[simp] theorem modLeave_wins (f : Leave → Leave) : (s.modLeave f).wins = s.wins := rfl
@[simp] theorem modLeave_msix (f : Leave → Leave) : (s.modLeave f).msix = s.msix := rfl
@[simp] theorem modLeave_tens (f : Leave → Leave) : (s.modLeave f).tens = s.tens := rfl
@[simp] theorem modLeave_dma (f : Leave → Leave) : (s.modLeave f).dma = s.dma := rfl
@[simp] theorem modLeave_rings (f : Leave → Leave) : (s.modLeave f).rings = s.rings := rfl
@[simp] theorem modLeave_threads (f : Leave → Leave) : (s.modLeave f).threads = s.threads := rfl
@[simp] theorem modLeave_ferry (f : Leave → Leave) : (s.modLeave f).ferry = s.ferry := rfl
@[simp] theorem modLeave_charter (f : Leave → Leave) : (s.modLeave f).charter = s.charter := rfl
@[simp] theorem modLeave_ports (f : Leave → Leave) : (s.modLeave f).ports = s.ports := rfl
@[simp] theorem modLeave_partners (f : Leave → Leave) : (s.modLeave f).partners = s.partners := rfl
@[simp] theorem modLeave_harbour (f : Leave → Leave) : (s.modLeave f).harbour = s.harbour := rfl
@[simp] theorem modLeave_harbourBad (f : Leave → Leave) : (s.modLeave f).harbourBad = s.harbourBad := rfl
@[simp] theorem modLeave_bufCorrected (f : Leave → Leave) : (s.modLeave f).bufCorrected = s.bufCorrected := rfl
@[simp] theorem modLeave_bufUncorrectable (f : Leave → Leave) : (s.modLeave f).bufUncorrectable = s.bufUncorrectable := rfl
@[simp] theorem modLeave_harbourSoft (f : Leave → Leave) : (s.modLeave f).harbourSoft = s.harbourSoft := rfl
@[simp] theorem modLeave_partnerBad (f : Leave → Leave) : (s.modLeave f).partnerBad = s.partnerBad := rfl
@[simp] theorem modLeave_progMem (f : Leave → Leave) : (s.modLeave f).progMem = s.progMem := rfl
@[simp] theorem modLeave_progBad (f : Leave → Leave) : (s.modLeave f).progBad = s.progBad := rfl
@[simp] theorem modLeave_tallyLatch (f : Leave → Leave) : (s.modLeave f).tallyLatch = s.tallyLatch := rfl
@[simp] theorem modLeave_tb (f : Leave → Leave) : (s.modLeave f).tb = s.tb := rfl
@[simp] theorem modLeave_leave (f : Leave → Leave) : (s.modLeave f).leave = f s.leave := rfl
@[simp] theorem modLeave_log (f : Leave → Leave) : (s.modLeave f).log = s.log := rfl
@[simp] theorem modLeave_ptu (f : Leave → Leave) : (s.modLeave f).ptu = s.ptu := rfl
@[simp] theorem modLeave_ptuHeld (f : Leave → Leave) : (s.modLeave f).ptuHeld = s.ptuHeld := rfl

/-! ## modLog -/

@[simp] theorem modLog_pending (f : Log → Log) : (s.modLog f).pending = s.pending := rfl
@[simp] theorem modLog_out (f : Log → Log) : (s.modLog f).out = s.out := rfl
@[simp] theorem modLog_freeCounter (f : Log → Log) : (s.modLog f).freeCounter = s.freeCounter := rfl
@[simp] theorem modLog_coreNs (f : Log → Log) : (s.modLog f).coreNs = s.coreNs := rfl
@[simp] theorem modLog_mode (f : Log → Log) : (s.modLog f).mode = s.mode := rfl
@[simp] theorem modLog_islands (f : Log → Log) : (s.modLog f).islands = s.islands := rfl
@[simp] theorem modLog_frames (f : Log → Log) : (s.modLog f).frames = s.frames := rfl
@[simp] theorem modLog_clocks (f : Log → Log) : (s.modLog f).clocks = s.clocks := rfl
@[simp] theorem modLog_ldr (f : Log → Log) : (s.modLog f).ldr = s.ldr := rfl
@[simp] theorem modLog_flash (f : Log → Log) : (s.modLog f).flash = s.flash := rfl
@[simp] theorem modLog_chain (f : Log → Log) : (s.modLog f).chain = s.chain := rfl
@[simp] theorem modLog_jtag (f : Log → Log) : (s.modLog f).jtag = s.jtag := rfl
@[simp] theorem modLog_tide (f : Log → Log) : (s.modLog f).tide = s.tide := rfl
@[simp] theorem modLog_behind (f : Log → Log) : (s.modLog f).behind = s.behind := rfl
@[simp] theorem modLog_banks (f : Log → Log) : (s.modLog f).banks = s.banks := rfl
@[simp] theorem modLog_link (f : Log → Log) : (s.modLog f).link = s.link := rfl
@[simp] theorem modLog_fns (f : Log → Log) : (s.modLog f).fns = s.fns := rfl
@[simp] theorem modLog_wins (f : Log → Log) : (s.modLog f).wins = s.wins := rfl
@[simp] theorem modLog_msix (f : Log → Log) : (s.modLog f).msix = s.msix := rfl
@[simp] theorem modLog_tens (f : Log → Log) : (s.modLog f).tens = s.tens := rfl
@[simp] theorem modLog_dma (f : Log → Log) : (s.modLog f).dma = s.dma := rfl
@[simp] theorem modLog_rings (f : Log → Log) : (s.modLog f).rings = s.rings := rfl
@[simp] theorem modLog_threads (f : Log → Log) : (s.modLog f).threads = s.threads := rfl
@[simp] theorem modLog_ferry (f : Log → Log) : (s.modLog f).ferry = s.ferry := rfl
@[simp] theorem modLog_charter (f : Log → Log) : (s.modLog f).charter = s.charter := rfl
@[simp] theorem modLog_ports (f : Log → Log) : (s.modLog f).ports = s.ports := rfl
@[simp] theorem modLog_partners (f : Log → Log) : (s.modLog f).partners = s.partners := rfl
@[simp] theorem modLog_harbour (f : Log → Log) : (s.modLog f).harbour = s.harbour := rfl
@[simp] theorem modLog_harbourBad (f : Log → Log) : (s.modLog f).harbourBad = s.harbourBad := rfl
@[simp] theorem modLog_bufCorrected (f : Log → Log) : (s.modLog f).bufCorrected = s.bufCorrected := rfl
@[simp] theorem modLog_bufUncorrectable (f : Log → Log) : (s.modLog f).bufUncorrectable = s.bufUncorrectable := rfl
@[simp] theorem modLog_harbourSoft (f : Log → Log) : (s.modLog f).harbourSoft = s.harbourSoft := rfl
@[simp] theorem modLog_partnerBad (f : Log → Log) : (s.modLog f).partnerBad = s.partnerBad := rfl
@[simp] theorem modLog_progMem (f : Log → Log) : (s.modLog f).progMem = s.progMem := rfl
@[simp] theorem modLog_progBad (f : Log → Log) : (s.modLog f).progBad = s.progBad := rfl
@[simp] theorem modLog_tallyLatch (f : Log → Log) : (s.modLog f).tallyLatch = s.tallyLatch := rfl
@[simp] theorem modLog_tb (f : Log → Log) : (s.modLog f).tb = s.tb := rfl
@[simp] theorem modLog_leave (f : Log → Log) : (s.modLog f).leave = s.leave := rfl
@[simp] theorem modLog_log (f : Log → Log) : (s.modLog f).log = f s.log := rfl
@[simp] theorem modLog_ptu (f : Log → Log) : (s.modLog f).ptu = s.ptu := rfl
@[simp] theorem modLog_ptuHeld (f : Log → Log) : (s.modLog f).ptuHeld = s.ptuHeld := rfl

/-! ## modPtu -/

@[simp] theorem modPtu_pending (f : Ptu → Ptu) : (s.modPtu f).pending = s.pending := rfl
@[simp] theorem modPtu_out (f : Ptu → Ptu) : (s.modPtu f).out = s.out := rfl
@[simp] theorem modPtu_freeCounter (f : Ptu → Ptu) : (s.modPtu f).freeCounter = s.freeCounter := rfl
@[simp] theorem modPtu_coreNs (f : Ptu → Ptu) : (s.modPtu f).coreNs = s.coreNs := rfl
@[simp] theorem modPtu_mode (f : Ptu → Ptu) : (s.modPtu f).mode = s.mode := rfl
@[simp] theorem modPtu_islands (f : Ptu → Ptu) : (s.modPtu f).islands = s.islands := rfl
@[simp] theorem modPtu_frames (f : Ptu → Ptu) : (s.modPtu f).frames = s.frames := rfl
@[simp] theorem modPtu_clocks (f : Ptu → Ptu) : (s.modPtu f).clocks = s.clocks := rfl
@[simp] theorem modPtu_ldr (f : Ptu → Ptu) : (s.modPtu f).ldr = s.ldr := rfl
@[simp] theorem modPtu_flash (f : Ptu → Ptu) : (s.modPtu f).flash = s.flash := rfl
@[simp] theorem modPtu_chain (f : Ptu → Ptu) : (s.modPtu f).chain = s.chain := rfl
@[simp] theorem modPtu_jtag (f : Ptu → Ptu) : (s.modPtu f).jtag = s.jtag := rfl
@[simp] theorem modPtu_tide (f : Ptu → Ptu) : (s.modPtu f).tide = s.tide := rfl
@[simp] theorem modPtu_behind (f : Ptu → Ptu) : (s.modPtu f).behind = s.behind := rfl
@[simp] theorem modPtu_banks (f : Ptu → Ptu) : (s.modPtu f).banks = s.banks := rfl
@[simp] theorem modPtu_link (f : Ptu → Ptu) : (s.modPtu f).link = s.link := rfl
@[simp] theorem modPtu_fns (f : Ptu → Ptu) : (s.modPtu f).fns = s.fns := rfl
@[simp] theorem modPtu_wins (f : Ptu → Ptu) : (s.modPtu f).wins = s.wins := rfl
@[simp] theorem modPtu_msix (f : Ptu → Ptu) : (s.modPtu f).msix = s.msix := rfl
@[simp] theorem modPtu_tens (f : Ptu → Ptu) : (s.modPtu f).tens = s.tens := rfl
@[simp] theorem modPtu_dma (f : Ptu → Ptu) : (s.modPtu f).dma = s.dma := rfl
@[simp] theorem modPtu_rings (f : Ptu → Ptu) : (s.modPtu f).rings = s.rings := rfl
@[simp] theorem modPtu_threads (f : Ptu → Ptu) : (s.modPtu f).threads = s.threads := rfl
@[simp] theorem modPtu_ferry (f : Ptu → Ptu) : (s.modPtu f).ferry = s.ferry := rfl
@[simp] theorem modPtu_charter (f : Ptu → Ptu) : (s.modPtu f).charter = s.charter := rfl
@[simp] theorem modPtu_ports (f : Ptu → Ptu) : (s.modPtu f).ports = s.ports := rfl
@[simp] theorem modPtu_partners (f : Ptu → Ptu) : (s.modPtu f).partners = s.partners := rfl
@[simp] theorem modPtu_harbour (f : Ptu → Ptu) : (s.modPtu f).harbour = s.harbour := rfl
@[simp] theorem modPtu_harbourBad (f : Ptu → Ptu) : (s.modPtu f).harbourBad = s.harbourBad := rfl
@[simp] theorem modPtu_bufCorrected (f : Ptu → Ptu) : (s.modPtu f).bufCorrected = s.bufCorrected := rfl
@[simp] theorem modPtu_bufUncorrectable (f : Ptu → Ptu) : (s.modPtu f).bufUncorrectable = s.bufUncorrectable := rfl
@[simp] theorem modPtu_harbourSoft (f : Ptu → Ptu) : (s.modPtu f).harbourSoft = s.harbourSoft := rfl
@[simp] theorem modPtu_partnerBad (f : Ptu → Ptu) : (s.modPtu f).partnerBad = s.partnerBad := rfl
@[simp] theorem modPtu_progMem (f : Ptu → Ptu) : (s.modPtu f).progMem = s.progMem := rfl
@[simp] theorem modPtu_progBad (f : Ptu → Ptu) : (s.modPtu f).progBad = s.progBad := rfl
@[simp] theorem modPtu_tallyLatch (f : Ptu → Ptu) : (s.modPtu f).tallyLatch = s.tallyLatch := rfl
@[simp] theorem modPtu_tb (f : Ptu → Ptu) : (s.modPtu f).tb = s.tb := rfl
@[simp] theorem modPtu_leave (f : Ptu → Ptu) : (s.modPtu f).leave = s.leave := rfl
@[simp] theorem modPtu_log (f : Ptu → Ptu) : (s.modPtu f).log = s.log := rfl
@[simp] theorem modPtu_ptu (f : Ptu → Ptu) : (s.modPtu f).ptu = f s.ptu := rfl
@[simp] theorem modPtu_ptuHeld (f : Ptu → Ptu) : (s.modPtu f).ptuHeld = s.ptuHeld := rfl

/-! ## modHeld -/

@[simp] theorem modHeld_pending (f : PtuHeld → PtuHeld) : (s.modHeld f).pending = s.pending := rfl
@[simp] theorem modHeld_out (f : PtuHeld → PtuHeld) : (s.modHeld f).out = s.out := rfl
@[simp] theorem modHeld_freeCounter (f : PtuHeld → PtuHeld) : (s.modHeld f).freeCounter = s.freeCounter := rfl
@[simp] theorem modHeld_coreNs (f : PtuHeld → PtuHeld) : (s.modHeld f).coreNs = s.coreNs := rfl
@[simp] theorem modHeld_mode (f : PtuHeld → PtuHeld) : (s.modHeld f).mode = s.mode := rfl
@[simp] theorem modHeld_islands (f : PtuHeld → PtuHeld) : (s.modHeld f).islands = s.islands := rfl
@[simp] theorem modHeld_frames (f : PtuHeld → PtuHeld) : (s.modHeld f).frames = s.frames := rfl
@[simp] theorem modHeld_clocks (f : PtuHeld → PtuHeld) : (s.modHeld f).clocks = s.clocks := rfl
@[simp] theorem modHeld_ldr (f : PtuHeld → PtuHeld) : (s.modHeld f).ldr = s.ldr := rfl
@[simp] theorem modHeld_flash (f : PtuHeld → PtuHeld) : (s.modHeld f).flash = s.flash := rfl
@[simp] theorem modHeld_chain (f : PtuHeld → PtuHeld) : (s.modHeld f).chain = s.chain := rfl
@[simp] theorem modHeld_jtag (f : PtuHeld → PtuHeld) : (s.modHeld f).jtag = s.jtag := rfl
@[simp] theorem modHeld_tide (f : PtuHeld → PtuHeld) : (s.modHeld f).tide = s.tide := rfl
@[simp] theorem modHeld_behind (f : PtuHeld → PtuHeld) : (s.modHeld f).behind = s.behind := rfl
@[simp] theorem modHeld_banks (f : PtuHeld → PtuHeld) : (s.modHeld f).banks = s.banks := rfl
@[simp] theorem modHeld_link (f : PtuHeld → PtuHeld) : (s.modHeld f).link = s.link := rfl
@[simp] theorem modHeld_fns (f : PtuHeld → PtuHeld) : (s.modHeld f).fns = s.fns := rfl
@[simp] theorem modHeld_wins (f : PtuHeld → PtuHeld) : (s.modHeld f).wins = s.wins := rfl
@[simp] theorem modHeld_msix (f : PtuHeld → PtuHeld) : (s.modHeld f).msix = s.msix := rfl
@[simp] theorem modHeld_tens (f : PtuHeld → PtuHeld) : (s.modHeld f).tens = s.tens := rfl
@[simp] theorem modHeld_dma (f : PtuHeld → PtuHeld) : (s.modHeld f).dma = s.dma := rfl
@[simp] theorem modHeld_rings (f : PtuHeld → PtuHeld) : (s.modHeld f).rings = s.rings := rfl
@[simp] theorem modHeld_threads (f : PtuHeld → PtuHeld) : (s.modHeld f).threads = s.threads := rfl
@[simp] theorem modHeld_ferry (f : PtuHeld → PtuHeld) : (s.modHeld f).ferry = s.ferry := rfl
@[simp] theorem modHeld_charter (f : PtuHeld → PtuHeld) : (s.modHeld f).charter = s.charter := rfl
@[simp] theorem modHeld_ports (f : PtuHeld → PtuHeld) : (s.modHeld f).ports = s.ports := rfl
@[simp] theorem modHeld_partners (f : PtuHeld → PtuHeld) : (s.modHeld f).partners = s.partners := rfl
@[simp] theorem modHeld_harbour (f : PtuHeld → PtuHeld) : (s.modHeld f).harbour = s.harbour := rfl
@[simp] theorem modHeld_harbourBad (f : PtuHeld → PtuHeld) : (s.modHeld f).harbourBad = s.harbourBad := rfl
@[simp] theorem modHeld_bufCorrected (f : PtuHeld → PtuHeld) : (s.modHeld f).bufCorrected = s.bufCorrected := rfl
@[simp] theorem modHeld_bufUncorrectable (f : PtuHeld → PtuHeld) : (s.modHeld f).bufUncorrectable = s.bufUncorrectable := rfl
@[simp] theorem modHeld_harbourSoft (f : PtuHeld → PtuHeld) : (s.modHeld f).harbourSoft = s.harbourSoft := rfl
@[simp] theorem modHeld_partnerBad (f : PtuHeld → PtuHeld) : (s.modHeld f).partnerBad = s.partnerBad := rfl
@[simp] theorem modHeld_progMem (f : PtuHeld → PtuHeld) : (s.modHeld f).progMem = s.progMem := rfl
@[simp] theorem modHeld_progBad (f : PtuHeld → PtuHeld) : (s.modHeld f).progBad = s.progBad := rfl
@[simp] theorem modHeld_tallyLatch (f : PtuHeld → PtuHeld) : (s.modHeld f).tallyLatch = s.tallyLatch := rfl
@[simp] theorem modHeld_tb (f : PtuHeld → PtuHeld) : (s.modHeld f).tb = s.tb := rfl
@[simp] theorem modHeld_leave (f : PtuHeld → PtuHeld) : (s.modHeld f).leave = s.leave := rfl
@[simp] theorem modHeld_log (f : PtuHeld → PtuHeld) : (s.modHeld f).log = s.log := rfl
@[simp] theorem modHeld_ptu (f : PtuHeld → PtuHeld) : (s.modHeld f).ptu = s.ptu := rfl
@[simp] theorem modHeld_ptuHeld (f : PtuHeld → PtuHeld) : (s.modHeld f).ptuHeld = f s.ptuHeld := rfl

/-! ## event -/

@[simp] theorem event_pending (c v t : Nat) (p : List (Nat × Nat)) : (s.event c v t p).pending = s.pending := rfl
@[simp] theorem event_out (c v t : Nat) (p : List (Nat × Nat)) : (s.event c v t p).out = s.out := rfl
@[simp] theorem event_freeCounter (c v t : Nat) (p : List (Nat × Nat)) : (s.event c v t p).freeCounter = s.freeCounter := rfl
@[simp] theorem event_coreNs (c v t : Nat) (p : List (Nat × Nat)) : (s.event c v t p).coreNs = s.coreNs := rfl
@[simp] theorem event_mode (c v t : Nat) (p : List (Nat × Nat)) : (s.event c v t p).mode = s.mode := rfl
@[simp] theorem event_islands (c v t : Nat) (p : List (Nat × Nat)) : (s.event c v t p).islands = s.islands := rfl
@[simp] theorem event_frames (c v t : Nat) (p : List (Nat × Nat)) : (s.event c v t p).frames = s.frames := rfl
@[simp] theorem event_clocks (c v t : Nat) (p : List (Nat × Nat)) : (s.event c v t p).clocks = s.clocks := rfl
@[simp] theorem event_ldr (c v t : Nat) (p : List (Nat × Nat)) : (s.event c v t p).ldr = s.ldr := rfl
@[simp] theorem event_flash (c v t : Nat) (p : List (Nat × Nat)) : (s.event c v t p).flash = s.flash := rfl
@[simp] theorem event_chain (c v t : Nat) (p : List (Nat × Nat)) : (s.event c v t p).chain = s.chain := rfl
@[simp] theorem event_jtag (c v t : Nat) (p : List (Nat × Nat)) : (s.event c v t p).jtag = s.jtag := rfl
@[simp] theorem event_tide (c v t : Nat) (p : List (Nat × Nat)) : (s.event c v t p).tide = s.tide := rfl
@[simp] theorem event_behind (c v t : Nat) (p : List (Nat × Nat)) : (s.event c v t p).behind = s.behind := rfl
@[simp] theorem event_banks (c v t : Nat) (p : List (Nat × Nat)) : (s.event c v t p).banks = s.banks := rfl
@[simp] theorem event_link (c v t : Nat) (p : List (Nat × Nat)) : (s.event c v t p).link = s.link := rfl
@[simp] theorem event_fns (c v t : Nat) (p : List (Nat × Nat)) : (s.event c v t p).fns = s.fns := rfl
@[simp] theorem event_wins (c v t : Nat) (p : List (Nat × Nat)) : (s.event c v t p).wins = s.wins := rfl
@[simp] theorem event_msix (c v t : Nat) (p : List (Nat × Nat)) : (s.event c v t p).msix = s.msix := rfl
@[simp] theorem event_tens (c v t : Nat) (p : List (Nat × Nat)) : (s.event c v t p).tens = s.tens := rfl
@[simp] theorem event_dma (c v t : Nat) (p : List (Nat × Nat)) : (s.event c v t p).dma = s.dma := rfl
@[simp] theorem event_rings (c v t : Nat) (p : List (Nat × Nat)) : (s.event c v t p).rings = s.rings := rfl
@[simp] theorem event_threads (c v t : Nat) (p : List (Nat × Nat)) : (s.event c v t p).threads = s.threads := rfl
@[simp] theorem event_ferry (c v t : Nat) (p : List (Nat × Nat)) : (s.event c v t p).ferry = s.ferry := rfl
@[simp] theorem event_charter (c v t : Nat) (p : List (Nat × Nat)) : (s.event c v t p).charter = s.charter := rfl
@[simp] theorem event_ports (c v t : Nat) (p : List (Nat × Nat)) : (s.event c v t p).ports = s.ports := rfl
@[simp] theorem event_partners (c v t : Nat) (p : List (Nat × Nat)) : (s.event c v t p).partners = s.partners := rfl
@[simp] theorem event_harbour (c v t : Nat) (p : List (Nat × Nat)) : (s.event c v t p).harbour = s.harbour := rfl
@[simp] theorem event_harbourBad (c v t : Nat) (p : List (Nat × Nat)) : (s.event c v t p).harbourBad = s.harbourBad := rfl
@[simp] theorem event_bufCorrected (c v t : Nat) (p : List (Nat × Nat)) : (s.event c v t p).bufCorrected = s.bufCorrected := rfl
@[simp] theorem event_bufUncorrectable (c v t : Nat) (p : List (Nat × Nat)) : (s.event c v t p).bufUncorrectable = s.bufUncorrectable := rfl
@[simp] theorem event_harbourSoft (c v t : Nat) (p : List (Nat × Nat)) : (s.event c v t p).harbourSoft = s.harbourSoft := rfl
@[simp] theorem event_partnerBad (c v t : Nat) (p : List (Nat × Nat)) : (s.event c v t p).partnerBad = s.partnerBad := rfl
@[simp] theorem event_progMem (c v t : Nat) (p : List (Nat × Nat)) : (s.event c v t p).progMem = s.progMem := rfl
@[simp] theorem event_progBad (c v t : Nat) (p : List (Nat × Nat)) : (s.event c v t p).progBad = s.progBad := rfl
@[simp] theorem event_tallyLatch (c v t : Nat) (p : List (Nat × Nat)) : (s.event c v t p).tallyLatch = s.tallyLatch := rfl
@[simp] theorem event_tb (c v t : Nat) (p : List (Nat × Nat)) : (s.event c v t p).tb = s.tb := rfl
@[simp] theorem event_leave (c v t : Nat) (p : List (Nat × Nat)) : (s.event c v t p).leave = s.leave := rfl
@[simp] theorem event_ptu (c v t : Nat) (p : List (Nat × Nat)) : (s.event c v t p).ptu = s.ptu := rfl
@[simp] theorem event_ptuHeld (c v t : Nat) (p : List (Nat × Nat)) : (s.event c v t p).ptuHeld = s.ptuHeld := rfl

/-! ## What a table holds after an update of it -/

@[simp] theorem modIsl_isl_self (i : Nat) (f : Isl → Isl) : (s.modIsl i f).isl i = f (s.isl i) :=
  tabGet_tabMod_self _ _ _ _
theorem modIsl_isl_other (i j : Nat) (f : Isl → Isl) (h : j ≠ i) : (s.modIsl i f).isl j = s.isl j :=
  tabGet_tabMod_other _ _ _ _ _ h
@[simp] theorem modBank_bank_self (i : Nat) (f : Bank → Bank) : (s.modBank i f).bank i = f (s.bank i) :=
  tabGet_tabMod_self _ _ _ _
theorem modBank_bank_other (i j : Nat) (f : Bank → Bank) (h : j ≠ i) : (s.modBank i f).bank j = s.bank j :=
  tabGet_tabMod_other _ _ _ _ _ h
@[simp] theorem modFn_fn_self (i : Nat) (f : Fn → Fn) : (s.modFn i f).fn i = f (s.fn i) :=
  tabGet_tabMod_self _ _ _ _
theorem modFn_fn_other (i j : Nat) (f : Fn → Fn) (h : j ≠ i) : (s.modFn i f).fn j = s.fn j :=
  tabGet_tabMod_other _ _ _ _ _ h
@[simp] theorem modTen_ten_self (i : Nat) (f : Ten → Ten) : (s.modTen i f).ten i = f (s.ten i) :=
  tabGet_tabMod_self _ _ _ _
theorem modTen_ten_other (i j : Nat) (f : Ten → Ten) (h : j ≠ i) : (s.modTen i f).ten j = s.ten j :=
  tabGet_tabMod_other _ _ _ _ _ h
@[simp] theorem modRing_ring_self (i : Nat) (f : Ring → Ring) : (s.modRing i f).ring i = f (s.ring i) :=
  tabGet_tabMod_self _ _ _ _
theorem modRing_ring_other (i j : Nat) (f : Ring → Ring) (h : j ≠ i) : (s.modRing i f).ring j = s.ring j :=
  tabGet_tabMod_other _ _ _ _ _ h
@[simp] theorem modThr_thr_self (i : Nat) (f : Thread → Thread) : (s.modThr i f).thr i = f (s.thr i) :=
  tabGet_tabMod_self _ _ _ _
theorem modThr_thr_other (i j : Nat) (f : Thread → Thread) (h : j ≠ i) : (s.modThr i f).thr j = s.thr j :=
  tabGet_tabMod_other _ _ _ _ _ h
@[simp] theorem modPort_port_self (i : Nat) (f : Port → Port) : (s.modPort i f).port i = f (s.port i) :=
  tabGet_tabMod_self _ _ _ _
theorem modPort_port_other (i j : Nat) (f : Port → Port) (h : j ≠ i) : (s.modPort i f).port j = s.port j :=
  tabGet_tabMod_other _ _ _ _ _ h
@[simp] theorem modPartner_partner_self (i : Nat) (f : Partner → Partner) : (s.modPartner i f).partner i = f (s.partner i) :=
  tabGet_tabMod_self _ _ _ _
theorem modPartner_partner_other (i j : Nat) (f : Partner → Partner) (h : j ≠ i) : (s.modPartner i f).partner j = s.partner j :=
  tabGet_tabMod_other _ _ _ _ _ h
@[simp] theorem modPair_pair_self (i : Nat) (f : Pair → Pair) : (s.modPair i f).pair i = f (s.pair i) :=
  tabGet_tabMod_self _ _ _ _
theorem modPair_pair_other (i j : Nat) (f : Pair → Pair) (h : j ≠ i) : (s.modPair i f).pair j = s.pair j :=
  tabGet_tabMod_other _ _ _ _ _ h
@[simp] theorem modView_view_self (i : Nat) (f : LogView → LogView) : (s.modView i f).view i = f (s.view i) :=
  tabGet_tabMod_self _ _ _ _
theorem modView_view_other (i j : Nat) (f : LogView → LogView) (h : j ≠ i) : (s.modView i f).view j = s.view j :=
  tabGet_tabMod_other _ _ _ _ _ h

end Sys2Proof.Machine.State
end

