-- ==== Sys2Proof/Laws/Ends.lean ====
section
/-! SUPPORT. What events, messages and the end of a step may change: nothing that `State.beside`
keeps. -/

namespace Sys2Proof.Machine

variable (s : State)

/-! ## Loops -/

/-- A property that each step of a loop carries on holds at its end. -/
theorem overList_keeps {α : Type} (P : State → Prop) (l : List α) (f : α → State → State)
    (h : ∀ x s, P s → P (f x s)) : ∀ s, P s → P (overList l f s) := by
  induction l with
  | nil => exact fun _ hs => hs
  | cons x l ih => exact fun s hs => ih (f x s) (h x s hs)

theorem overAll_keeps (P : State → Prop) (n : Nat) (f : Nat → State → State)
    (h : ∀ k s, P s → P (f k s)) (s : State) (hs : P s) : P (overAll n f s) :=
  overList_keeps P (List.range n) f h s hs

/-! ## Updates and `State.beside` -/

namespace State

@[simp] theorem modIsl_beside (i f) : (s.modIsl i f).beside = s.beside.modIsl i f := rfl
@[simp] theorem setFrame_beside (n f) : (s.setFrame n f).beside = s.beside.setFrame n f := rfl
@[simp] theorem modBank_beside (i f) : (s.modBank i f).beside = s.beside.modBank i f := rfl
@[simp] theorem modFn_beside (i f) : (s.modFn i f).beside = s.beside.modFn i f := rfl
@[simp] theorem modWin_beside (i j f) : (s.modWin i j f).beside = s.beside.modWin i j f := rfl
@[simp] theorem modMsx_beside (i j f) : (s.modMsx i j f).beside = s.beside := rfl
@[simp] theorem modTen_beside (i f) : (s.modTen i f).beside = s.beside.modTen i f := rfl
@[simp] theorem modRing_beside (i f) : (s.modRing i f).beside = s.beside.modRing i f := rfl
@[simp] theorem modThr_beside (i f) : (s.modThr i f).beside = s.beside.modThr i f := rfl
@[simp] theorem modPair_beside (i f) : (s.modPair i f).beside = s.beside.modPair i f := rfl
@[simp] theorem modPort_beside (i f) : (s.modPort i f).beside = s.beside.modPort i f := rfl
@[simp] theorem modPartner_beside (i f) : (s.modPartner i f).beside = s.beside.modPartner i f := rfl
@[simp] theorem modView_beside (i f) : (s.modView i f).beside = s.beside.modView i f := rfl
@[simp] theorem modLdr_beside (f) : (s.modLdr f).beside = s.beside.modLdr f := rfl
@[simp] theorem modFlash_beside (f) : (s.modFlash f).beside = s.beside.modFlash f := rfl
@[simp] theorem modChain_beside (f) : (s.modChain f).beside = s.beside.modChain f := rfl
@[simp] theorem modJtag_beside (f) : (s.modJtag f).beside = s.beside.modJtag f := rfl
@[simp] theorem modTide_beside (f) : (s.modTide f).beside = s.beside.modTide f := rfl
@[simp] theorem modClocks_beside (f) : (s.modClocks f).beside = s.beside.modClocks f := rfl
@[simp] theorem modFerry_beside (f) : (s.modFerry f).beside = s.beside.modFerry f := rfl
@[simp] theorem modCharter_beside (f) : (s.modCharter f).beside = s.beside.modCharter f := rfl
@[simp] theorem modTb_beside (f) : (s.modTb f).beside = s.beside.modTb f := rfl
@[simp] theorem modLeave_beside (f) : (s.modLeave f).beside = s.beside.modLeave f := rfl
@[simp] theorem modPtu_beside (f) : (s.modPtu f).beside = s.beside.modPtu f := rfl
@[simp] theorem modHeld_beside (f) : (s.modHeld f).beside = s.beside.modHeld f := rfl
@[simp] theorem event_beside (c v t p) : (s.event c v t p).beside = s.beside := rfl
@[simp] theorem meter_beside (n) : (s.meter n).beside = s.beside := rfl
@[simp] theorem emit_beside (m) : (s.emit m).beside = s.beside := rfl
@[simp] theorem sendVector_beside (t v) : (s.sendVector t v).beside = s.beside := rfl

end State

/-! ## Events -/

/-- The state without what MSI-X events and the logbook's entries change of it. -/
def State.offLog (s : State) : State :=
  { s with
    out := [], msix := [], link := { s.link with l1 := false }, dma := s.dma.beside
    log := s.log.beside }

theorem beside_of_offLog {s t : State} (h : t.offLog = s.offLog) : t.beside = s.beside := by
  have f := congrArg (fun o : State =>
    { o with mode := { o.mode with faultShown := false, mirror := 0 } }) h
  exact f

namespace State

theorem noteCap_offLog : s.noteCap.offLog = s.offLog := by
  unfold noteCap
  split <;> rfl

@[simp] theorem noteCap_mode : s.noteCap.mode = s.mode := by
  unfold noteCap
  split <;> rfl

@[simp] theorem noteCap_log : s.noteCap.log = s.log := by
  unfold noteCap
  split <;> rfl

/-- An MSI-X event sets a pending bit, or queues a message behind X2 (R27), or puts one out (R281). -/
theorem raise_cases (t v : Nat) : s.raise t v = s ∨
    (s.raise t v = s.modMsx t v (fun m => { m with pend := true }) ∨
      s.raise t v = (s.modDma (fun d => { d with msgs := d.msgs ++ [(t, v)] })).noteCap) ∨
    s.raise t v = s.sendVector t v := by
  unfold raise
  split
  · exact .inl rfl
  · split
    · split
      · exact .inr (.inl (.inl rfl))
      · split
        · exact .inr (.inl (.inr rfl))
        · exact .inr (.inr rfl)
    · exact .inl rfl

theorem raise_offLog (t v : Nat) : (s.raise t v).offLog = s.offLog := by
  rcases s.raise_cases t v with h | (h | h) | h <;> rw [h]
  · rfl
  · exact noteCap_offLog _
  · rfl

@[simp] theorem raise_beside (t v : Nat) : (s.raise t v).beside = s.beside :=
  beside_of_offLog (s.raise_offLog t v)

@[simp] theorem raise_log (t v : Nat) : (s.raise t v).log = s.log := by
  rcases s.raise_cases t v with h | (h | h) | h <;> rw [h]
  · rfl
  · exact noteCap_log _
  · rfl

@[simp] theorem raiseAll_beside (v : Nat) : (s.raiseAll v).beside = s.beside :=
  overAll_keeps (fun t => t.beside = s.beside) 8 _ (fun k t h => (t.raise_beside k v).trans h) s rfl

theorem logNotice_offLog (v t : Nat) : (s.logNotice v t).offLog = s.offLog :=
  overAll_keeps (fun x => x.offLog = s.offLog) 8 _
    (fun k x h => by split <;> simp [h, raise_offLog]) s rfl

@[simp] theorem logNotice_log (v t : Nat) : (s.logNotice v t).log = s.log :=
  overAll_keeps (fun x => x.log = s.log) 8 _ (fun k x h => by split <;> simp [h]) s rfl

/-- Bit 11 of SUP_FAULT_STATUS. -/
theorem bit11_masked (x : BitVec 12) : (x ||| BitVec.ofNat 12 (2 ^ 11)) &&& 0x7FF = x &&& 0x7FF := by
  rw [BitVec.and_or_distrib_right]
  simp

theorem faultBit11_offLog : (s.faultBit 11).offLog = s.offLog := by
  simp only [offLog, faultBit, Log.beside, modLog, bit11_masked]

/-! ## The logbook -/

theorem modLog_offLog (f : Log → Log) (h : (f s.log).beside = s.log.beside) :
    (s.modLog f).offLog = s.offLog := by
  simp only [offLog, modLog, h]

theorem noteLogFull_offLog : s.noteLogFull.offLog = s.offLog := by
  unfold noteLogFull
  split
  · rw [raise_offLog, faultBit11_offLog]
  · rfl

theorem logEntry_offLog (e : Event) : (s.logEntry e).offLog = s.offLog := by
  rw [logEntry, noteLogFull_offLog, logNotice_offLog]
  rfl

theorem logLose_offLog : s.logLose.offLog = s.offLog := rfl

theorem reportLost_offLog : s.reportLost.offLog = s.offLog := by
  unfold reportLost
  split
  · rfl
  · rw [modLog_offLog _ _ rfl, logEntry_offLog]

theorem logRoom_offLog (e : Event) : (s.logRoom e).offLog = s.offLog := by
  unfold logRoom
  split
  · rfl
  · exact logEntry_offLog s e

theorem logOne_offLog (e : Event) : (s.logOne e).offLog = s.offLog := by
  unfold logOne
  split
  · exact modLog_offLog s _ rfl
  · split
    · rfl
    · rw [logRoom_offLog, reportLost_offLog]

theorem logAll_offLog (es : List Event) : ∀ s : State, (es.foldl logOne s).offLog = s.offLog := by
  induction es with
  | nil => exact fun _ => rfl
  | cons e es ih => exact fun s => (ih _).trans (logOne_offLog s e)

/-- Writing a step's events changes nothing but the logbook and what its notices put out. -/
theorem flushLog_offLog : s.flushLog.offLog = s.offLog := by
  unfold flushLog
  dsimp only
  split
  · exact modLog_offLog s _ rfl
  · exact (logAll_offLog _ _).trans (modLog_offLog s _ rfl)

theorem flushLog_mode : s.flushLog.mode = s.mode := by
  have h := congrArg (fun o : State => o.mode) s.flushLog_offLog
  exact h

/-! ## The end of a step -/

theorem settleFault_beside : s.settleFault.beside = s.beside := by
  unfold settleFault
  split <;> rfl

theorem settle_beside : s.settle.beside = s.beside := by
  simp only [settle, beside_of_offLog (flushLog_offLog _), settleFault_beside]

theorem settleMirror_beside : s.settleMirror.beside = s.beside := by
  unfold settleMirror
  split
  · rfl
  · simp only [beside, modMode]

/-- The leave queue is not evaluated where nothing has come that it is evaluated at (R480). -/
theorem evaluateLeave_fresh (h : s.leave.stale = false) : s.evaluateLeave = s := by
  unfold evaluateLeave
  rw [if_neg (by simp [h])]

/-- An empty queue gives nothing out. -/
theorem evaluateLeave_empty (h : s.leave.queue = []) :
    s.evaluateLeave = s.modLeave (fun l => { l with stale := false }) := by
  unfold evaluateLeave
  split
  · simp only [h, List.length_nil, grantHeads]
  · next hs =>
    have hf : s.leave.stale = false := by simpa using hs
    obtain ⟨⟩ := s
    simp only [modLeave] at *
    congr
    rw [← hf]

/-- The end of a step changes nothing that `State.beside` keeps. -/
theorem finish_beside (h : s.leave.stale = false) : s.finish.beside = s.beside := by
  rw [finish, settle_beside, settleMirror_beside, evaluateLeave_fresh s h]

theorem finish_beside_empty (h : s.leave.queue = []) :
    s.finish.beside = (s.modLeave (fun l => { l with stale := false })).beside := by
  rw [finish, settle_beside, settleMirror_beside, evaluateLeave_empty s h]

@[simp] theorem beside_threads : s.beside.threads = s.threads := rfl
@[simp] theorem beside_leave : s.beside.leave = s.leave := rfl

end State

end Sys2Proof.Machine
end

