-- ==== Sys2Proof/Laws/Instructions.lean ====
section
/-! SUPPORT. What the end of an instruction may change (`onlyEnds`): each operation it is made of, and
the whole. -/

namespace Sys2Proof.Machine

variable {s t u : State}

/-! ## The relation -/

theorem onlyEnds_refl (s : State) : onlyEnds s s := ⟨rfl, fun _ => rfl, id, fun _ => ⟨rfl, rfl⟩⟩

theorem onlyEnds_trans (h : onlyEnds s t) (h' : onlyEnds t u) : onlyEnds s u := by
  obtain ⟨h1, h2, h3, h4⟩ := h
  obtain ⟨k1, k2, k3, k4⟩ := h'
  refine ⟨?_, fun q => (k2 q).trans (h2 q), fun n => k3 (h3 n), fun n => ?_⟩
  · have e := k1
    rw [h1] at e
    exact e
  · have nt : t.dma.atcRetired = 0 := Decidable.byContradiction fun hn => k3 hn n
    exact ⟨(k4 n).1.trans (h4 nt).1, (k4 n).2.trans (h4 nt).2⟩

/-- A change of what the end of an instruction may change, but for threads, the ATC's ways and the mode. -/
theorem onlyEnds_of (h : onlyEnds s t) (hu : u = t.endedAs u) (ht : u.threads = t.threads)
    (hr : u.dma.atcRetired = t.dma.atcRetired) (hm : u.mode = t.mode) : onlyEnds s u := by
  refine onlyEnds_trans h ⟨hu, fun q => ?_, fun n => ?_, fun _ => ?_⟩
  · simp only [State.thr, ht]
  · rw [hr]; exact n
  · rw [hm]; exact ⟨rfl, rfl⟩

/-- A loop of steps that each change only this. -/
theorem overList_onlyEnds {α : Type} (l : List α) (f : α → State → State)
    (h : ∀ x s, onlyEnds s (f x s)) (s : State) : onlyEnds s (overList l f s) :=
  overList_keeps (onlyEnds s) l f (fun x _ hs => onlyEnds_trans hs (h x _)) s (onlyEnds_refl s)

theorem overAll_onlyEnds (n : Nat) (f : Nat → State → State) (h : ∀ k s, onlyEnds s (f k s))
    (s : State) : onlyEnds s (overAll n f s) := overList_onlyEnds (List.range n) f h s

/-! ## Updates -/

theorem onlyEnds_modRing (h : onlyEnds s t) (r f) : onlyEnds s (t.modRing r f) :=
  onlyEnds_of h rfl rfl rfl rfl
theorem onlyEnds_modTen (h : onlyEnds s t) (r f) : onlyEnds s (t.modTen r f) :=
  onlyEnds_of h rfl rfl rfl rfl
theorem onlyEnds_modDma (h : onlyEnds s t) (f) (hf : (f t.dma).atcRetired = t.dma.atcRetired) :
    onlyEnds s (t.modDma f) := onlyEnds_of h rfl rfl hf rfl
theorem onlyEnds_modMsx (h : onlyEnds s t) (i j f) : onlyEnds s (t.modMsx i j f) :=
  onlyEnds_of h rfl rfl rfl rfl
theorem onlyEnds_modPair (h : onlyEnds s t) (p f) : onlyEnds s (t.modPair p f) :=
  onlyEnds_of h rfl rfl rfl rfl
theorem onlyEnds_emit (h : onlyEnds s t) (m) : onlyEnds s (t.emit m) :=
  onlyEnds_of h rfl rfl rfl rfl
theorem onlyEnds_event (h : onlyEnds s t) (c v n p) : onlyEnds s (t.event c v n p) :=
  onlyEnds_of h rfl rfl rfl rfl
theorem onlyEnds_draw (h : onlyEnds s t) : onlyEnds s t.draw.2 :=
  onlyEnds_of h rfl rfl rfl rfl

/-- A change of a thread that leaves its registers, flags, return stack and pending bits alone. -/
theorem onlyEnds_modThr (h : onlyEnds s t) (r : Nat) (f : Thread → Thread)
    (hf : ∀ x, (f x).program = x.program) : onlyEnds s (t.modThr r f) := by
  refine onlyEnds_trans h ⟨rfl, fun q => ?_, id, fun _ => ⟨rfl, rfl⟩⟩
  by_cases hq : q = r
  · subst hq; rw [State.modThr_thr_self, hf]
  · rw [State.modThr_thr_other _ _ _ _ hq]

theorem onlyEnds_noteCap (h : onlyEnds s t) : onlyEnds s t.noteCap := by
  unfold State.noteCap
  split
  · exact h
  · exact onlyEnds_modDma h _ rfl

theorem onlyEnds_raise (h : onlyEnds s t) (n v : Nat) : onlyEnds s (t.raise n v) := by
  unfold State.raise
  split
  · exact h
  · split
    · split
      · exact onlyEnds_modMsx h _ _ _
      · split
        · exact onlyEnds_noteCap (onlyEnds_modDma h _ rfl)
        · exact onlyEnds_emit (onlyEnds_modDma h _ rfl) _
    · exact h

theorem onlyEnds_tenFault (h : onlyEnds s t) (n b l st : Nat) : onlyEnds s (t.tenFault n b l st) := by
  unfold State.tenFault
  exact onlyEnds_raise (onlyEnds_modTen h _ _) _ _

/-! ## Threads -/

theorem onlyEnds_dropPair (h : onlyEnds s t) (r : Nat) : onlyEnds s (t.dropPair r) := by
  unfold State.dropPair
  split
  · exact h
  · refine onlyEnds_modPair (onlyEnds_modThr h r _ ?_) _ _
    exact fun _ => rfl

theorem onlyEnds_waitFor (h : onlyEnds s t) (r : Nat) (w : Wait) : onlyEnds s (t.waitFor r w) := by
  refine onlyEnds_modThr (onlyEnds_dropPair h r) r _ ?_
  exact fun _ => rfl

theorem onlyEnds_wakeThread (h : onlyEnds s t) (r st v : Nat) : onlyEnds s (t.wakeThread r st v) := by
  unfold State.wakeThread
  split
  · refine onlyEnds_modThr h r _ ?_
    exact fun _ => rfl
  · exact h

theorem onlyEnds_wakeAll (h : onlyEnds s t) (p : Wait → Bool) : onlyEnds s (t.wakeAll p) :=
  overAll_keeps (onlyEnds s) 32 _ (fun r u hu => by
    split
    · refine onlyEnds_modThr hu r _ ?_
      exact fun _ => rfl
    · exact hu) t h

theorem onlyEnds_recordRetry (h : onlyEnds s t) (r : Nat) : onlyEnds s (t.recordRetry r) :=
  onlyEnds_wakeAll h _

/-! ## Rings -/

theorem onlyEnds_waterline (h : onlyEnds s t) (r : Nat) : onlyEnds s (t.waterline r) := by
  unfold State.waterline
  dsimp only
  split
  · exact onlyEnds_modRing h r _
  · split
    · split
      · exact onlyEnds_raise (onlyEnds_modRing h r _) _ _
      · exact onlyEnds_modRing h r _
    · split
      · exact onlyEnds_modRing h r _
      · exact h

theorem onlyEnds_setHead (h : onlyEnds s t) (r v : Nat) : onlyEnds s (t.setHead r v) := by
  unfold State.setHead
  exact onlyEnds_waterline (onlyEnds_modRing h r _) r

theorem onlyEnds_setTail (h : onlyEnds s t) (r v : Nat) : onlyEnds s (t.setTail r v) := by
  unfold State.setTail
  exact onlyEnds_waterline (onlyEnds_modRing h r _) r

theorem onlyEnds_ringFault (h : onlyEnds s t) (r c st : Nat) : onlyEnds s (t.ringFault r c st) := by
  unfold State.ringFault
  exact onlyEnds_recordRetry (onlyEnds_event (onlyEnds_tenFault (onlyEnds_modRing h r _) _ _ _ _) _ _ _ _) r

theorem onlyEnds_recordLost (h : onlyEnds s t) (dst : Nat) (x : Rec) : onlyEnds s (t.recordLost dst x) := by
  unfold State.recordLost
  exact onlyEnds_event (onlyEnds_modRing h dst _) _ _ _ _

/-! ## Records -/

theorem onlyEnds_touch (h : onlyEnds s t) (p r a : Nat) : onlyEnds s (t.touch p r a) := by
  unfold State.touch
  exact onlyEnds_modDma (onlyEnds_modRing h r _) _ rfl

theorem onlyEnds_askPage (h : onlyEnds s t) (r a : Nat) (n w : Bool) : onlyEnds s (t.askPage r a n w) := by
  unfold State.askPage
  dsimp only
  split
  · exact onlyEnds_modDma h _ rfl
  · split
    · exact onlyEnds_emit (onlyEnds_modDma h _ rfl) _
    · exact onlyEnds_noteCap (onlyEnds_modDma h _ rfl)

/-- A way of the ATC goes: its bit is set, and none is cleared. -/
theorem onlyEnds_retireWay (h : onlyEnds s t) (atc : Dma → Tab (Option AtcEntry)) (b : BitVec 4) :
    onlyEnds s (t.modDma (fun d => { d with atc := atc d, atcRetired := d.atcRetired ||| b })) := by
  refine onlyEnds_trans h ⟨rfl, fun _ => rfl, fun n e => n ?_, fun _ => ⟨rfl, rfl⟩⟩
  have e' : t.dma.atcRetired ||| b = 0 := e
  refine BitVec.eq_of_getLsbD_eq fun i _ => ?_
  have := congrArg (fun v => BitVec.getLsbD v i) e'
  simp only [BitVec.getLsbD_or] at this
  simp_all

theorem onlyEnds_faultBit (h : onlyEnds s t) (k : Nat) : onlyEnds s (t.faultBit k) :=
  onlyEnds_of h rfl rfl rfl rfl

/-- A degradation starts, or waits, once a way of the ATC is retired. -/
theorem onlyEnds_degradeCause (h : onlyEnds s t) (hr : t.dma.atcRetired ≠ 0) :
    onlyEnds s t.degradeCause := by
  refine onlyEnds_trans h ?_
  unfold State.degradeCause State.startTrans
  split
  · exact ⟨rfl, fun _ => rfl, id, fun n => absurd n hr⟩
  · split
    · exact ⟨rfl, fun _ => rfl, id, fun n => absurd n hr⟩
    · exact onlyEnds_refl t

/-- The bit of a way, set, is not lost among the others. -/
theorem way_retired (x : BitVec 4) (w : Nat) (h : w < 4) : x ||| BitVec.ofNat 4 (2 ^ w) ≠ 0 := by
  intro e
  have b := congrArg (fun v => BitVec.getLsbD v w) e
  simp only [BitVec.getLsbD_or, BitVec.getLsbD_ofNat, Nat.testBit_two_pow_self, h, decide_true, Bool.and_self,
    Bool.or_true] at b
  simp at b

theorem onlyEnds_atcParityError (h : onlyEnds s t) (k : Nat) (e : AtcEntry) (bad : Bool) :
    onlyEnds s (t.atcParityError k e bad) := by
  have h1 := onlyEnds_event (onlyEnds_modDma h (fun d => { d with
    atc := tabSet (fun _ => none) d.atc k none, atcParity := min 255 (d.atcParity + 1) }) rfl)
    0x0414 1 scopeS [(1, e.fn), (1, k / 4), (1, k % 4)]
  unfold State.atcParityError
  dsimp only
  split
  · refine onlyEnds_raise (onlyEnds_degradeCause (onlyEnds_faultBit (onlyEnds_event
      (onlyEnds_retireWay h1 _ _) _ _ _ _) _) ?_) _ _
    exact way_retired _ _ (Nat.mod_lt _ (by decide))
  · exact h1

/-- A lookup for a slot, a parity error among what it may meet. -/
theorem onlyEnds_slotLookup (h : onlyEnds s t) (r a : Nat) : onlyEnds s (t.slotLookup r a).2 := by
  unfold State.slotLookup
  dsimp only
  split
  · split
    · exact onlyEnds_atcParityError (onlyEnds_draw (onlyEnds_draw h)) _ _ _
    · exact onlyEnds_draw h
  · exact h

theorem onlyEnds_slotPages (cs : List Nat) : ∀ {t : State} (_ : onlyEnds s t) (dst : Nat),
    onlyEnds s (State.slotPages cs t dst).2 := by
  induction cs with
  | nil => exact fun h _ => h
  | cons c cs ih =>
    intro t h dst
    have := ih (onlyEnds_slotLookup h dst ((t.ring dst).slotAddr c)) dst
    unfold State.slotPages
    dsimp only
    split <;> exact this

theorem onlyEnds_issueWrites (n : Nat) : ∀ {t : State} (_ : onlyEnds s t) (r a : Nat) (b : List Byte)
    (x ro : Option Nat), onlyEnds s (State.issueWrites n t r a b x ro).2 := by
  induction n with
  | zero => exact fun h _ _ _ _ _ => h
  | succ n ih =>
    intro t h r a b x ro
    unfold State.issueWrites
    dsimp only
    split
    · exact h
    · split
      · exact onlyEnds_noteCap h
      · refine ih ?_ _ _ _ _ _
        split
        · exact onlyEnds_modRing (onlyEnds_emit (onlyEnds_modDma (onlyEnds_modTen h _ _) _ rfl) _) _ _
        · exact onlyEnds_emit (onlyEnds_modDma (onlyEnds_modTen h _ _) _ rfl) _

theorem onlyEnds_askSlots (h : onlyEnds s t) (dst : Nat) (cs : List Nat) : onlyEnds s (t.askSlots dst cs) :=
  overList_keeps (onlyEnds s) cs _ (fun c u hu => by
    dsimp only
    split
    · exact onlyEnds_askPage hu _ _ _ _
    · exact hu) t h

theorem onlyEnds_touchSlots (h : onlyEnds s t) (dst : Nat) (cs : List Nat) :
    onlyEnds s (t.touchSlots dst cs) :=
  overList_keeps (onlyEnds s) cs _ (fun c u hu => by
    split
    · exact onlyEnds_touch hu _ _ _
    · exact hu) t h

theorem onlyEnds_writeBody (n : Nat) : ∀ {t : State} (_ : onlyEnds s t) (dst : Nat) (ws : List Word)
    (pages : List (Option Nat)) (done stop : Nat) (ro : Option Nat),
    onlyEnds s (State.writeBody n t dst ws pages done stop ro).2 := by
  induction n with
  | zero => exact fun h _ _ _ _ _ _ => h
  | succ n ih =>
    intro t h dst ws pages done stop ro
    unfold State.writeBody
    dsimp only
    split
    · exact h
    · split
      · exact onlyEnds_noteCap h
      · exact ih (onlyEnds_issueWrites _ h _ _ _ _ _) _ _ _ _ _ _

theorem onlyEnds_keepPart (h : onlyEnds s t) (dst : Nat) (x : Rec) (pages : List (Option Nat)) (k : Nat) :
    onlyEnds s (t.keepPart dst x pages k) := by
  unfold State.keepPart
  split
  · exact h
  · exact onlyEnds_modRing h _ _

theorem onlyEnds_recordEnds (h : onlyEnds s t) (dst n : Nat) : onlyEnds s (t.recordEnds dst n) := by
  unfold State.recordEnds
  exact onlyEnds_recordRetry (onlyEnds_setTail (onlyEnds_modRing h dst _) _ _) dst

theorem onlyEnds_putRecord (h : onlyEnds s t) (dst : Nat) (x : Rec) (pages : List (Option Nat)) (first : Nat)
    (ro : Option Nat) : onlyEnds s (t.putRecord dst x pages first ro).2 := by
  have w := onlyEnds_writeBody 9 h dst x.body pages first x.body.length ro
  unfold State.putRecord
  generalize State.writeBody 9 t dst x.body pages first x.body.length ro = a at w
  dsimp only
  split
  · exact onlyEnds_noteCap (onlyEnds_keepPart w _ _ _ _)
  · dsimp only
    exact onlyEnds_recordEnds (onlyEnds_issueWrites _ w _ _ _ _ _) _ _

/-- The test unit's registers are put back after what was done without them. -/
theorem onlyEnds_unpressed (h : onlyEnds t.unpressed u) : onlyEnds t { u with ptu := t.ptu } := by
  refine ⟨?_, h.2⟩
  calc { u with ptu := t.ptu } = { t.unpressed.endedAs u with ptu := t.ptu } := by rw [← h.1]
    _ = t.endedAs { u with ptu := t.ptu } := rfl

theorem onlyEnds_cutRecord (h : onlyEnds s t) (dst : Nat) (x : Rec) (pages : List (Option Nat))
    (ro : Option Nat) : onlyEnds s (t.cutRecord dst x pages ro) := by
  refine onlyEnds_trans (onlyEnds_draw h) ?_
  unfold State.cutRecord
  dsimp only
  refine onlyEnds_keepPart (onlyEnds_unpressed ?_) _ _ _ _
  exact onlyEnds_writeBody 9 (onlyEnds_refl _) _ _ _ _ _ _

/-- A slot of a record that nobody ends is written with the phase the consumer does not expect. -/
theorem onlyEnds_mendAbandoned (n : Nat) : ∀ {t : State} (_ : onlyEnds s t) (r : Nat),
    onlyEnds s (State.mendAbandoned n t r) := by
  induction n with
  | zero => exact fun h _ => h
  | succ n ih =>
    intro t h r
    unfold State.mendAbandoned
    dsimp only
    split
    · exact h
    · next p k _ =>
      split
      · exact onlyEnds_modRing h _ _
      · split
        · exact onlyEnds_noteCap h
        · have hl := onlyEnds_slotLookup h r ((t.ring r).slotAddr ((t.ring r).tail + k / 4))
          split
          · next hq => rw [hq] at hl; exact onlyEnds_askPage hl _ _ _ _
          · next hq => rw [hq] at hl; exact ih (onlyEnds_modRing (onlyEnds_issueWrites _ hl _ _ _ _ _) _ _) _
          · next hq =>
            rw [hq] at hl
            exact ih (onlyEnds_modRing (onlyEnds_issueWrites _ (onlyEnds_touch hl _ _ _) _ _ _ _ _) _ _) _

theorem onlyEnds_mendOrphan (h : onlyEnds s t) (dst : Nat) : onlyEnds s (t.mendOrphan dst) := by
  unfold State.mendOrphan
  split
  · exact onlyEnds_mendAbandoned _ h _
  · exact h

theorem onlyEnds_tryRecord (h : onlyEnds s t) (dst : Nat) (x : Rec) (ro : Option Nat) :
    onlyEnds s (t.tryRecord dst x ro).2 := by
  unfold State.tryRecord
  split
  · exact onlyEnds_recordLost h dst x
  · have hm := onlyEnds_mendOrphan h dst
    revert hm
    generalize t.mendOrphan dst = u
    intro hm
    have hp := onlyEnds_slotPages ((List.range x.slots).map ((u.ring dst).tail + ·)) hm dst
    dsimp only
    split
    · split
      · exact onlyEnds_putRecord hm _ _ _ _ _
      · exact onlyEnds_noteCap hm
    · split
      · split
        · next hq => rw [hq] at hp; exact onlyEnds_putRecord (onlyEnds_touchSlots hp _ _) _ _ _ _ _
        · next hq => rw [hq] at hp; exact onlyEnds_askSlots hp _ _
      · split
        · split
          · next hq => rw [hq] at hp; exact onlyEnds_cutRecord (onlyEnds_touchSlots hp _ _) _ _ _ _
          · next hq => rw [hq] at hp; exact hp
        · split
          · exact onlyEnds_noteCap hm
          · exact hm

theorem onlyEnds_finishPart (h : onlyEnds s t) (dst : Nat) (ro : Option Nat) :
    onlyEnds s (t.finishPart dst ro).2 := by
  unfold State.finishPart
  split
  · exact onlyEnds_tryRecord h _ _ _
  · exact h

theorem onlyEnds_waitRecord (h : onlyEnds s t) (r dst k : Nat) : onlyEnds s (t.waitRecord r dst k) := by
  refine onlyEnds_modThr (onlyEnds_waitFor h r _) r _ ?_
  exact fun _ => rfl

/-! ## The end of an instruction -/

/-- Only a FRAME_LOAD that does not end OK ends a load of frames (R363). -/
theorem endFrameLoad_other (s : State) (r : Nat) (c : Cur) (st : Nat)
    (h : c.opcode ≠ 0x42 ∨ st = 0) : s.endFrameLoad r c st = s := by
  unfold State.endFrameLoad
  rw [if_pos h.symm]

theorem onlyEnds_retireThread (h : onlyEnds s t) (r : Nat) (c : Cur) (st : Nat) :
    onlyEnds s (t.retireThread r c st) := by
  refine onlyEnds_modThr h r _ ?_
  exact fun _ => rfl

theorem onlyEnds_retireRing (h : onlyEnds s t) (r : Nat) (c : Cur) : onlyEnds s (t.retireRing r c) := by
  unfold State.retireRing
  split
  · unfold State.retireItem
    exact onlyEnds_modRing (onlyEnds_setHead (onlyEnds_modRing h _ _) _ _) _ _
  · split
    · exact onlyEnds_modRing h _ _
    · exact h

theorem onlyEnds_retireNotice (h : onlyEnds s t) (r : Nat) (c : Cur) : onlyEnds s (t.retireNotice r c) := by
  unfold State.retireNotice
  split
  · exact onlyEnds_raise h _ _
  · exact h

theorem onlyEnds_retireFlushed (h : onlyEnds s t) (r st : Nat) : onlyEnds s (t.retireFlushed r st) := by
  unfold State.retireFlushed
  split
  · exact onlyEnds_modRing h _ _
  · exact h

theorem onlyEnds_retireState (h : onlyEnds s t) (r : Nat) (c : Cur) (st : Nat) :
    onlyEnds s (t.retireState r c st) := by
  unfold State.retireState
  dsimp only
  split
  · exact onlyEnds_ringFault h _ _ _
  · split
    · exact onlyEnds_modRing h _ _
    · exact h

theorem onlyEnds_retire (h : onlyEnds s t) (r : Nat) (c : Cur) (st : Nat)
    (hc : c.opcode ≠ 0x42 ∨ st = 0) : onlyEnds s (t.retire r c st) := by
  unfold State.retire
  rw [endFrameLoad_other t r c st hc]
  exact onlyEnds_retireState (onlyEnds_retireFlushed (onlyEnds_retireNotice (onlyEnds_retireRing
    (onlyEnds_retireThread h _ _ _) _ _) _ _) _ _) _ _ _

theorem onlyEnds_retireWith (h : onlyEnds s t) (r dst : Nat) (c : Cur) (st : Nat) (x : Rec)
    (hc : c.opcode ≠ 0x42 ∨ st = 0) : onlyEnds s (t.retireWith r dst c st x).2 := by
  unfold State.retireWith
  have hw := onlyEnds_tryRecord h dst x none
  dsimp only
  split
  · exact onlyEnds_waitRecord hw _ _ _
  · exact onlyEnds_retire hw _ _ _ hc

theorem onlyEnds_finishLeft (h : onlyEnds s t) (r : Nat) : onlyEnds s (t.finishLeft r).2 := by
  unfold State.finishLeft
  split
  · exact h
  · next d _ =>
    have hf := onlyEnds_finishPart h d none
    split
    · next hq =>
      rw [hq] at hf
      exact onlyEnds_waitFor hf r _
    · next hq =>
      rw [hq] at hf
      exact hf

/-- What ends is no FRAME_LOAD, or it is one that ends OK, its record at hand. -/
def quietEnd (c : Cur) (st : Nat) : Prop :=
  c.opcode ≠ 0x42 ∨ (c.reply ≠ some (0x44, 1) ∧ st = 0)

theorem onlyEnds_tryRetire (h : onlyEnds s t) (r : Nat)
    (hc : ∀ c st x, (t.thr r).cur = some c → c.fin = some (st, x) → quietEnd c st) :
    onlyEnds s (t.tryRetire r).2 := by
  unfold State.tryRetire
  split
  · next c hcur =>
    split
    · exact h
    · next st x hfin =>
      have hq := hc c st x hcur hfin
      have hr : c.opcode ≠ 0x42 ∨ st = 0 := hq.imp_right (·.2)
      have hl := onlyEnds_finishLeft h r
      dsimp only
      split
      · exact hl
      · split
        · next hrep =>
          have ho : c.opcode ≠ 0x42 := hq.elim id fun h' => (h'.1 hrep).elim
          dsimp only
          exact onlyEnds_retire (onlyEnds_recordLost hl _ _) r c _ (.inl ho)
        · split
          · exact onlyEnds_retire hl r c st hr
          · exact onlyEnds_retireWith hl r _ c st _ hr
  · exact h

/-! ## The next instruction -/

theorem onlyEnds_fetchProgram (h : onlyEnds s t) (r : Nat) : onlyEnds s (t.fetchProgram r).2 := by
  unfold State.fetchProgram
  dsimp only
  split
  · exact onlyEnds_draw h
  · exact h

theorem onlyEnds_loadProgram (h : onlyEnds s t) (r : Nat) : onlyEnds s (t.loadProgram r) := by
  have h1 : onlyEnds s ((t.fetchProgram r).2.modThr r (fun x => { x with cur := some (t.fetchProgram r).1 })) := by
    refine onlyEnds_modThr (onlyEnds_fetchProgram h r) r _ ?_
    exact fun _ => rfl
  unfold State.loadProgram
  dsimp only
  split
  · exact onlyEnds_dropPair h1 r
  · exact h1

theorem onlyEnds_loadItem (h : onlyEnds s t) (r : Nat) : onlyEnds s (t.loadItem r) := by
  unfold State.loadItem
  dsimp only
  refine onlyEnds_modThr (onlyEnds_modRing h _ _) r _ ?_
  exact fun _ => rfl

theorem onlyEnds_loadNext (h : onlyEnds s t) (r : Nat) : onlyEnds s (t.loadNext r) := by
  unfold State.loadNext
  dsimp only
  split
  · exact onlyEnds_dropPair h r
  · split
    · exact onlyEnds_loadProgram h r
    · split
      · exact onlyEnds_loadItem h r
      · split
        · exact onlyEnds_waitFor h r _
        · exact onlyEnds_dropPair (onlyEnds_modRing h _ _) r

theorem onlyEnds_boundary (h : onlyEnds s t) (r : Nat) : onlyEnds s (t.boundary r) := by
  unfold State.boundary
  split
  · refine onlyEnds_modThr (onlyEnds_dropPair h r) r _ ?_
    exact fun _ => rfl
  · split
    · exact onlyEnds_dropPair h r
    · split
      · exact h
      · split
        · exact h
        · exact onlyEnds_loadNext h r

theorem onlyEnds_modCur (h : onlyEnds s t) (r : Nat) (f : Cur → Cur) : onlyEnds s (t.modCur r f) := by
  refine onlyEnds_modThr h r _ ?_
  exact fun _ => rfl

/-- The end of an instruction: no FRAME_LOAD, or one that ends OK. -/
theorem onlyEnds_endInstr (h : onlyEnds s t) (r st x : Nat)
    (hc : ∀ c, (t.thr r).cur = some c → c.opcode ≠ 0x42 ∨ st = 0) :
    onlyEnds s (t.endInstr r st x) := by
  have h1 : onlyEnds s ((t.modCur r (fun c => { c with fin := some (st, x), reply := none, dest := none })).tryRetire r).2 := by
    refine onlyEnds_tryRetire (onlyEnds_modCur h r _) r fun c st' x' hcur hfin => ?_
    rw [State.modCur, State.modThr_thr_self] at hcur
    cases hcc : (t.thr r).cur with
    | none => rw [hcc] at hcur; cases hcur
    | some c0 =>
      rw [hcc] at hcur
      cases hcur
      cases hfin
      exact (hc c0 hcc).imp (fun h => h) fun h' => ⟨by simp, h'⟩
  unfold State.endInstr
  dsimp only
  split
  · exact onlyEnds_boundary h1 r
  · exact h1

/-! ## The end of a step -/

/-- Two states that agree beside what a step's end may change. -/
theorem onlyEnds_of_beside (h : t.beside = s.beside) : onlyEnds s t := by
  have e : t.beside.endedAs t = t := rfl
  have f := fun q => congrArg (fun b : State => (b.thr q).program) h
  have fd := congrArg (fun b : State => b.dma.atcRetired) h
  have ft := congrArg (fun b : State => b.mode.trans) h
  have fw := congrArg (fun b : State => b.mode.waitT8) h
  refine ⟨?_, fun q => f q, fun n e => n (Eq.trans (Eq.symm fd) e), fun _ => ⟨ft, fw⟩⟩
  calc t = t.beside.endedAs t := e.symm
    _ = s.beside.endedAs t := by rw [h]
    _ = s.endedAs t := rfl

theorem onlyEnds_finish (h : onlyEnds s t) (hl : t.leave.stale = false) : onlyEnds s t.finish :=
  onlyEnds_trans h (onlyEnds_of_beside (t.finish_beside hl))

end Sys2Proof.Machine
end

