-- ==== Sys2Proof/WellFormed.lean ====
section
/-! DEFINITION. Well-formed commands: the bounds of operands that their types do not carry. The meanings
are total and do not rest on these; they say which terms stand for something the outside world can do. -/

namespace Sys2Proof

/-- A requester's ring and function exist (R10). -/
def Requester.wellFormed : Requester → Bool
  | .keeper => true
  | .ring r | .dma r => r < 32
  | .window t => t < 8

/-- What asks for leave exists (R479). -/
def Asker.wellFormed : Asker → Bool
  | .wake | .burst | .dmaRate => true
  | .release i t => i < 48 && t.all (fun n => decide (n < 8))
  | .bank b => b < 48
  | .synth c => c < 4
  | .island i => i < 48
  | .program r => r < 32

/-- An access carries between 1 and 64 bytes, and a write as many as it says (R15, R235). -/
def accessWellFormed (write : Bool) (len : Nat) (data : List Byte) : Bool :=
  decide (1 ≤ len ∧ len ≤ 64) && (if write then data.length == len else data.isEmpty)

/-- A time is 64-bit nanoseconds (R426). -/
def stampWellFormed (stamp : Nat) : Bool := stamp < 2 ^ 64

/-- What a protocol's signals can carry: widths of fields, and at most 2,047 bytes (R415, R445 to R474). -/
def WireContent.wellFormed : WireContent → Bool
  | .can c => decide (c.id < 2 ^ 29 ∧ c.dlc < 16 ∧ c.data.length ≤ 64 ∧ c.error < 6)
  | .sent calibration _ => decide (0 < calibration)
  | .psi data bits check _ => decide (bits ≤ 64 ∧ data < 2 ^ bits ∧ check < 8)
  | .spi data | .i3c data _ | .t1s data _ => decide (data.length ≤ 2047)

/-- A frame at a port's pins (R415, R433). -/
def WireFrame.wellFormed (f : WireFrame) : Bool := f.content.wellFormed && stampWellFormed f.stamp

/-- Operands within their bounds: a DMA tag has at most 10 bits and stands beside the number of its
function (R262), the tag of an Invalidate Request 5
(R274; 32 stands for the discard of a cleared ATS Enable, R268), an I3C address 7 (R467). -/
def Instr.wellFormed : Instr → Bool
  | .diaAccess who write _ len data => who.wellFormed && accessWellFormed write len data
  | .windowAccess _ write off len data =>
    accessWellFormed write len data && decide (off + len ≤ 2 ^ 28)
  | .registerWrite _ _ _ len data => accessWellFormed true len data
  | .rcFieldRead who _ | .tbNowLoRead who | .tbTodSecLoRead who | .tbPpsInLoRead who => who.wellFormed
  | .partnerValidate who _ _ | .partnerInvalidate who _ _ | .clrTally who _ _ | .tallyLoRead who _ _ =>
    who.wellFormed
  | .leaveRequestTimeout who | .leaveDelayEnd who => who.wellFormed
  | .ppsInEdge stamp => stampWellFormed stamp
  | .i3cIbi _ da _ _ stamp => decide (da < 128 ∧ stamp < 2 ^ 80)
  | .portFrameEnd _ f => f.wellFormed
  | .portTxOutcome _ o => stampWellFormed o.stamp && o.errors.all (fun e => decide (1 ≤ e.kind ∧ e.kind < 6))
  | .checkWordReadback index => index < 8192
  | .fdataRecord _ _ words => decide (words.length ≤ 65)
  | .nopPacket _ payload | .manifest _ payload => decide (payload.length ≤ 65535)
  | .leaseTransientEnd handle | .leaseEnd handle => decide (1 ≤ handle ∧ handle < 65536)
  | .thermalSample sensors => sensors.length == 8
  | .reservedModeCmd cmd => decide (cmd.toNat = 0 ∨ 5 < cmd.toNat)
  | .dmaCompletion tag _ _ | .dmaCompletionTimeout tag | .dmaStretchEnd tag => tag < 8192
  | .invalidateRequest _ addr itag => decide (addr < 2 ^ 64 ∧ itag < 32)
  | .invalidationCompletion _ itag => itag < 32
  | .invalidateReadWaitEnd _ itag => itag ≤ 32
  | .i3cStartSequence _ scan =>
    scan.acks.all (fun a => decide (a < 128)) && scan.pids.all (fun a => decide (a < 2 ^ 48))
  | _ => true

end Sys2Proof
end

