-- ==== Sys2Proof/Tests/Slice0.lean ====
section
/-! SUPPORT. Tests: terms that WellFormed refuses, and for every statement with hypotheses a state and
operands that meet them. -/

open Sys2Proof Sys2Proof.Machine

namespace Sys2Proof.Tests

set_option Elab.async false
set_option linter.unusedVariables false
set_option linter.unusedSimpArgs false

/-! ## Well-formed commands: a term that each check refuses, and one beside it that passes -/

theorem test_wf_requester :
    (Instr.rcFieldRead (.ring 32) 0).wellFormed = false ∧ (Instr.rcFieldRead (.ring 31) 0).wellFormed = true ∧
    (Instr.tbNowLoRead (.window 8)).wellFormed = false ∧ (Instr.tbTodSecLoRead (.dma 32)).wellFormed = false ∧
    (Instr.tbPpsInLoRead (.window 8)).wellFormed = false ∧ (Instr.partnerValidate (.window 8) 0 0).wellFormed = false ∧
    (Instr.partnerInvalidate (.ring 32) 0 0).wellFormed = false ∧ (Instr.clrTally (.ring 32) 0 0).wellFormed = false ∧
    (Instr.tallyLoRead (.window 8) 0 true).wellFormed = false := by decide
theorem test_wf_asker :
    (Instr.leaveRequestTimeout (.bank 48)).wellFormed = false ∧ (Instr.leaveRequestTimeout (.bank 47)).wellFormed = true ∧
    (Instr.leaveDelayEnd (.release 47 (some 8))).wellFormed = false ∧ (Instr.leaveDelayEnd (.synth 4)).wellFormed = false ∧
    (Instr.leaveDelayEnd (.island 48)).wellFormed = false ∧ (Instr.leaveDelayEnd (.program 32)).wellFormed = false := by decide
theorem test_wf_access :
    (Instr.diaAccess .keeper true 0 4 [1, 2, 3]).wellFormed = false ∧
    (Instr.diaAccess .keeper true 0 4 [1, 2, 3, 4]).wellFormed = true ∧
    (Instr.diaAccess .keeper false 0 4 [1]).wellFormed = false ∧ (Instr.diaAccess .keeper false 0 0 []).wellFormed = false ∧
    (Instr.diaAccess .keeper false 0 65 []).wellFormed = false ∧ (Instr.registerWrite 0 false 0 4 []).wellFormed = false ∧
    (Instr.windowAccess 0 false (2 ^ 28 - 3) 4 []).wellFormed = false ∧
    (Instr.windowAccess 0 false (2 ^ 28 - 4) 4 []).wellFormed = true := by decide
theorem test_wf_stamps :
    (Instr.ppsInEdge (2 ^ 64)).wellFormed = false ∧ (Instr.ppsInEdge (2 ^ 64 - 1)).wellFormed = true ∧ (Instr.i3cIbi 0 128 0 [] 0).wellFormed = false ∧
    (Instr.i3cIbi 0 127 0 [] (2 ^ 80)).wellFormed = false ∧
    (Instr.portTxOutcome 0 { reason := 0, stamp := 2 ^ 64 }).wellFormed = false := by decide
theorem test_wf_frames :
    (Instr.portFrameEnd 0 { content := .spi [], stamp := 2 ^ 64 }).wellFormed = false ∧
    (Instr.portFrameEnd 0 { content := .spi [], stamp := 0 }).wellFormed = true ∧
    (Instr.portFrameEnd 0 { content := .can { id := 2 ^ 29, dlc := 0, data := [] }, stamp := 0 }).wellFormed = false ∧
    (Instr.portFrameEnd 0 { content := .can { id := 0, dlc := 16, data := [] }, stamp := 0 }).wellFormed = false ∧
    (Instr.portFrameEnd 0 { content := .sent 0 [], stamp := 0 }).wellFormed = false ∧
    (Instr.portFrameEnd 0 { content := .psi 4 2 0 false, stamp := 0 }).wellFormed = false ∧
    (Instr.portTxOutcome 0 { reason := 0, stamp := 0, errors := [{ kind := 6 }] }).wellFormed = false := by decide
theorem test_wf_long_frame :
    (Instr.portFrameEnd 0 { content := .t1s (List.replicate 2048 0) false, stamp := 0 }).wellFormed = false := by decide +kernel
theorem test_wf_words :
    (Instr.checkWordReadback 8192).wellFormed = false ∧ (Instr.checkWordReadback 8191).wellFormed = true ∧
    (Instr.leaseEnd 0).wellFormed = false ∧ (Instr.leaseTransientEnd 65536).wellFormed = false ∧
    (Instr.thermalSample [0]).wellFormed = false ∧ (Instr.reservedModeCmd 1).wellFormed = false ∧
    (Instr.reservedModeCmd 5).wellFormed = false ∧ (Instr.reservedModeCmd 0).wellFormed = true ∧
    (Instr.reservedModeCmd 6).wellFormed = true := by decide
theorem test_wf_dma :
    (Instr.dmaCompletion 8192 .ok []).wellFormed = false ∧ (Instr.dmaCompletionTimeout 8192).wellFormed = false ∧
    (Instr.dmaStretchEnd 8192).wellFormed = false ∧ (Instr.dmaStretchEnd 8191).wellFormed = true ∧
    (Instr.invalidateRequest 0 0 32).wellFormed = false ∧ (Instr.invalidateRequest 0 (2 ^ 64) 0).wellFormed = false ∧
    (Instr.invalidationCompletion 0 32).wellFormed = false ∧
    (Instr.invalidateReadWaitEnd 0 33).wellFormed = false ∧
    (Instr.i3cStartSequence 0 { acks := [128], pids := [] }).wellFormed = false ∧
    (Instr.i3cStartSequence 0 { acks := [], pids := [2 ^ 48] }).wellFormed = false := by decide
theorem test_wf_packets :
    (Instr.fdataRecord .host none (List.replicate 66 0)).wellFormed = false ∧
    (Instr.nopPacket .host (List.replicate 65536 0)).wellFormed = false ∧
    (Instr.manifest .host (List.replicate 65536 0)).wellFormed = false := by decide +kernel

/-- FIPS 180-4: the digest of "abc" begins with these bytes (R121). -/
theorem test_sha_abc : (shaFinal (shaMore {} [0x61, 0x62, 0x63])).take 4 = [0xba, 0x78, 0x16, 0xbf] := by
  decide +kernel

/-- The table gives no row any bits (Decode). -/
theorem test_decode_none : decodeTableWord 32 0 = none := rfl

/-! ## A state and operands that meet the hypotheses of each statement, clause by clause

A clause whose hypotheses are among another's has no line of its own. -/

theorem test_meets_StepSettles : ∃ s t : State, step s = .next t :=
  ⟨State.reset, State.reset.tick.finish, rfl⟩

/-- settled, nothing in progress, in mode m -/
def st (m : Mode) : State := { mode := { mode := m, trans := none, porActive := false } }
def allModes : List State := [.reset, .load, .wake, .run, .degraded, .service, .hold, .test].map st

/-- A word handed on as a numeral, so that the kernel evaluates it once. -/
def evaluated (w : Word) (k : Word → Word) : Word :=
  match w.toNat with
  | 0 => k 0
  | n + 1 => k (BitVec.ofNat 32 (n + 1))

theorem evaluated_eq (w : Word) (k : Word → Word) : evaluated w k = k w := by
  unfold evaluated
  split
  · next h => rw [BitVec.eq_of_toNat_eq (x := w) (y := 0#32) h]; rfl
  · next n h => exact congrArg k (BitVec.eq_of_toNat_eq (by rw [BitVec.toNat_ofNat, h]; have := w.isLt; omega))

/-- `crcMore` with each step evaluated. -/
def crcRun : List Byte → Word → Word
  | [] => id
  | b :: bs => fun c => evaluated (crcByte c b) (crcRun bs)

theorem crcMore_eq_run (c : Word) (bs : List Byte) : crcMore c bs = crcRun bs c := by
  unfold crcMore
  induction bs generalizing c with
  | nil => rfl
  | cons b bs ih => rw [List.foldl_cons, ih]; exact (evaluated_eq _ _).symm

/-- Bytes from an address on, as the flash lists them. -/
def cellsFrom (a : Nat) : List Byte → List (Nat × Byte)
  | [] => []
  | b :: bs => if b = 0xFF then cellsFrom (a + 1) bs else (a, b) :: cellsFrom (a + 1) bs
/-- An entry of the section directory. -/
def directory (type kil off : Nat) (b : List Byte) (crc : Word) : List Byte :=
  leBytes 1 type ++ leBytes 1 0 ++ leBytes 2 kil ++ leBytes 4 off ++ leBytes 4 b.length ++ wordBytes crc ++ leBytes 4 2 ++ List.replicate 12 0
def fw : List Byte := wordBytes 0x11
def mc : List Byte := wordBytes 0x22
def ps (s : Word) : List Byte := wordsBytes [syncWord, 0xC5010002, 0x014800, 0, 0xC5020004, s, 0xFFFF0000, 0, 0]
def header (s : Word) : List Byte :=
    leBytes 4 0x4E5A514B ++ leBytes 2 1 ++ leBytes 2 64 ++ leBytes 4 5 ++ leBytes 4 808 ++
    wordsBytes [s, 0xFFFF0000, 0, 0] ++ leBytes 2 3 ++ List.replicate 26 0
/-- A container with a firmware, a microcode and a personality section, whose stamp begins with `s`. -/
def cells (s crcPs crcHead crcAll : Word) : List (Nat × Byte) :=
  cellsFrom 0 (header s ++ wordBytes crcHead ++ directory 1 3 256 fw 2084982850 ++ directory 2 4 512 mc 539327693 ++ directory 3 0 768 (ps s) crcPs) ++
  cellsFrom 256 fw ++ cellsFrom 512 mc ++ cellsFrom 768 (ps s) ++ cellsFrom 804 (wordBytes crcAll)

/-- `memRead` of cells in rising order, in one pass. -/
def readRun (d : Byte) : List (Nat × Byte) → Nat → Nat → List Byte
  | _, _, 0 => []
  | [], a, n + 1 => d :: readRun d [] (a + 1) n
  | (j, v) :: t, a, n + 1 =>
    if j = a then v :: readRun d t (a + 1) n else d :: readRun d ((j, v) :: t) (a + 1) n

theorem memRead_skip (d : Byte) (j : Nat) (v : Byte) (t : List (Nat × Byte)) (n a : Nat) (h : j < a) :
    memRead d ((j, v) :: t) a n = memRead d t a n := by
  induction n generalizing a with
  | zero => rfl
  | succ n ih => simp [memRead, memByte, tabGet, ih (a + 1) (by omega), Nat.ne_of_lt h]

theorem memByte_below (d : Byte) (m : List (Nat × Byte)) (lo a : Nat) (h : rising lo m = true) (k : a < lo) :
    memByte d m a = d := by
  induction m generalizing lo with
  | nil => rfl
  | cons e t ih =>
    obtain ⟨j, v⟩ := e
    simp only [rising, Bool.and_eq_true, decide_eq_true_eq] at h
    have : j ≠ a := by omega
    simp only [memByte, tabGet, this, if_false]
    exact ih (j + 1) h.2 (by omega)

theorem memRead_eq_run (d : Byte) (n : Nat) : ∀ (m : List (Nat × Byte)) (a : Nat), rising a m = true →
    memRead d m a n = readRun d m a n := by
  induction n with
  | zero => intro m a _; cases m <;> rfl
  | succ n ih =>
    intro m a h
    rcases m with _ | ⟨⟨j, v⟩, t⟩
    · simp only [memRead, readRun, ih [] (a + 1) rfl]; rfl
    · have h' := h
      simp only [rising, Bool.and_eq_true, decide_eq_true_eq] at h
      by_cases k : j = a
      · subst k
        simp only [memRead, readRun, if_true, memRead_skip d j v t n (j + 1) (by omega), ih t (j + 1) h.2]
        simp [memByte, tabGet]
      · have r : rising (a + 1) ((j, v) :: t) = true := by
          simp only [rising, Bool.and_eq_true, decide_eq_true_eq]; exact ⟨by omega, h.2⟩
        simp only [memRead, readRun, if_neg k, ih _ (a + 1) r, memByte_below d _ (a + 1) a r (by omega)]

/-- `verify` of copy A, its bytes read in one pass. -/
theorem verify_eq (f : Flash) (h : rising 0 f.cells = true) (hl : f.lengthOf 1 = 808) : f.verify 1 = 
   (f.headerOk 1 && decide (3 ≤ f.sectionsOf 1 ∧ f.sectionsOf 1 ≤ 10) &&
    layoutOk 808 (64 + 32 * f.sectionsOf 1) (f.directory 1) && typesOk (f.directory 1) &&
    (f.directory 1).all (f.sectionOk 1) &&
    crcFinal (crcRun (readRun erased f.cells 0 804) crcInit) == f.word 804) := by
  rw [← memRead_eq_run _ _ _ _ h, ← crcMore_eq_run]
  simp [Flash.verify, hl, crc32c, Flash.bytes, copyBase]
/-- A good frame of the chain. -/
def chainFrame (type idx seq : Nat) (words : List Word) : List Word :=
  let head := reg32 [0xA5, place type 8 4, place idx 12 3, place words.length 16 8, place seq 24 8]
  head :: words ++ [crc32c (wordsBytes (head :: words))]

def head (op len : Nat) (flags : Nat := 0) : Word := BitVec.ofNat 32 (op * 2 ^ 24 + len * 2 ^ 19 + flags)
def insn (op : Nat) (ops : List Nat) (flags : Nat := 0) : Cur :=
  { words := head op ops.length flags :: ops.map (BitVec.ofNat 32), pos := 5, next := ops.length + 6 }
/-- ring 0's thread holds pair 0 and runs c -/
def runs (kind : Nat) (c : Cur) (f : Thread → Thread := id) (g : Ring → Ring := id) : State :=
  { st .run with
    rings := [(0, g { enable := true, state := .running, kind := kind, fetched := c.words, tail := 8 })]
    threads := [(0, f { regs := [(1, 2 ^ 63 + 5), (2, 7), (3, 64)], cur := some c, pair := some 0 })]
    ferry := { pairs := [(0, { held := some 0 })] } }
def src (xd a b : Nat) : Nat := xd + 16 * a + 512 * b
def immB : Nat := 2 ^ 14
def w32 : Nat := 2 ^ 15
def arith : List Cur :=
  [insn 0x10 [3, 0xFFFFFFFF], insn 0x10 [3 + 16, 0xFFFFFFFF], insn 0x10 [3, 1, 2]] ++
  ([0x11, 0x12, 0x13, 0x14, 0x15].flatMap fun op =>
    [insn op [src 4 1 2], insn op [src 4 2 1], insn op [src 0 1 0 + immB, 0x80000001], insn op [src 4 1 0 + immB + w32, 0x80000001], insn op [src 4 20 18 + w32]]) ++
  [insn 0x17 [src 0 1 2], insn 0x17 [src 0 2 0 + immB + w32, 9]] ++
  ([0, 1, 2, 3].flatMap fun k => [insn 0x16 [src 4 1 2 + k * 2 ^ 16], insn 0x16 [src 4 1 3 + k * 2 ^ 16], insn 0x16 [src 4 1 0 + k * 2 ^ 16 + immB + 63 * 2 ^ 18],
     insn 0x16 [src 4 1 0 + k * 2 ^ 16 + immB + w32 + 31 * 2 ^ 18], insn 0x16 [src 4 1 0 + k * 2 ^ 16 + immB + w32 + 2^18]])
def flow : List State :=
  [runs 2 (insn 0 []), runs 0 (insn 0 [1,2]), runs 0 (insn 1 []), runs 2 (insn 1 []), runs 2 (insn 2 [77]), runs 2 (insn 2 [2 ^ 24 + 2 * 2 ^ 17]), runs 2 (insn 5 [77]),
   runs 2 (insn 5 [77]) (fun t => {t with stack := List.range 8}), runs 2 (insn 5 [77]) (fun t => {t with stack := List.range 7}), runs 2 (insn 4 [77 + 2 ^ 17 * 2]), runs 2 (insn 4 [77 + 2 ^ 17 * 4]), runs 2 (insn 4 [77 + 2 ^ 17 * 5]) (fun t => {t with regs := [(5,1)]}),
   runs 2 (insn 6 []) (fun t => {t with stack := [4,5]}), runs 2 (insn 6 []), runs 2 (insn 9 []), runs 2 (insn 9 []) id (fun x => {x with cplEn := true})]
def cplTo (kind : Nat) (st : RingState) (c : Cur) : State :=
  let s := runs 0 c id (fun x => {x with cplEn := true, cpl := 1})
  { s with rings := s.rings ++ [(1, {kind := kind, state := st, base := 0x1000, tail := 3})], fns := [(0, {bme := true})] }
def ends : List State := [runs 0 (insn 0x0A []), runs 2 (insn 0xFF []), runs 0 (insn 0 [] 0x1000), runs 0 (insn 0x11 []), runs 0 (insn 0x11 [21 * 16]), runs 2 (insn 0x11 [1 * 2^16]), runs 0 (insn 0x11 [5] 0x4000),
   runs 0 (insn 2 [5]), runs 0 (insn 0 []), runs 0 (insn 0 [1,2,3,4]), cplTo 1 .running (insn 0 [] (2^18)), cplTo 1 .stopped (insn 0 [] (2^18)), cplTo 0 .running (insn 0 [] (2^18))]
def withWait (w : Wait) : State := runs 2 (insn 8 []) (fun t => {t with wait := w, pair := none})
def rep (c : Cur) (v : Nat × Nat) : Cur := {c with started := true, reply := some v}
def part (f : Partner → Partner) (s : State) : State := { s with partners := [(5, f {valid := true})] }
def waits : List State := [runs 2 (rep (insn 7 [0, 3]) (0,0)), runs 2 (rep (insn 8 [0, 3]) (0,0)) (fun t => {t with dbPend := true}), runs 2 (rep (insn 8 [0, 3]) (0x12,0)),
   runs 2 (insn 7 [0, 3]), runs 2 (insn 7 [1 + 16 * 2]), runs 2 (insn 7 [2 + 16 * 2]), runs 2 (insn 7 [2]),
   runs 2 (insn 8 [0, 3]), runs 2 (insn 8 [0, 3]) (fun t => {t with dbPend := true}), runs 2 (insn 8 [2, 3]), runs 2 (insn 8 [2, 3]) (fun t => {t with ppsPend := true}),
   part (fun x => {x with frames := [⟨0,1,1,0,0⟩]}) (runs 2 (insn 8 [1 + 5 * 2 ^ 16, 3])), part id (runs 2 (insn 8 [1 + 5 * 2 ^ 16, 3])),
   withWait (.delay 5), withWait (.deadline 5), withWait (.deadline 0), withWait (.event 0 0 5), withWait (.event 2 0 0)]

/-- pins 0 and 1 of bank 0 carry signals 0 and 1 of port 0, with its setup in I/O minor 6 -/
def pins (sigs : List Nat) (port : Nat := 0) : BitVec 2048 :=
  sigs.zipIdx.foldl (fun a e => a ||| (BitVec.ofNat 2048 (2 + port * 2 ^ 16 + e.1 * 2 ^ 17) <<< (64 * e.2))) 0
def pinFrames (sigs : List Nat) : Tab Frame := (List.range ((sigs.length + 7) / 8)).map fun k => (160 + k, { data := pins ((sigs.drop (8*k)).take 8)})
def portOn (sigs : List Nat) (setup : List Nat) (p : Port) (i : Partner) (m : Mode := .run) (g : State → State := id) : State :=
  let s := st m
  g { s with
    frames := pinFrames sigs ++ [(165, { data := 1 }), (166, { data := BitVec.ofNat 2048 (wordsNat (setup.map (BitVec.ofNat 32))) })]
    banks := [(0, { enabled := true, present := true, valid := true })], ports := [(0, { p with run := true, seen := if p.retired then 5 else 4 })], partners := [(5, { i with valid := true })]
    charter := { eff := [(8, 8), (32, 8), (1024, 8 * 2 ^ 20)] } , mode := {s.mode with firstWake := true}}
def canSetup : List Nat := [1 + 1 * 2 ^ 6, 4 + 12 * 2 ^ 9 + 1 * 2 ^ 17 + 1 * 2 ^ 24, 0, 8]
def sentSetup (spc : Nat) : List Nat := [2, 90 + 6 * 2 ^ 10 + spc * 2 ^ 17]
def psiSetup (sync : Nat) : List Nat := [3, sync * 2 + 10 * 4 + 1 * 2 ^ 8 + 1000 * 2 ^ 11]
def spiSetup : List Nat := [4, 9]
def i3cSetup : List Nat := [5, 20 + 40 * 2 ^ 6 + 200 * 2 ^ 14]
def t1sSetup : List Nat := [6, 0x44332210, 0x6655]

/-- ring 0's thread runs c beside the port -/
def with_ (c : Cur) (s : State) (g : Ring → Ring := id) : State :=
  let r := runs 0 c
  { s with rings := (r.rings.map fun e => (e.1, g e.2)) ++ [(1, {kind := 1, state := .running, base := 0x1000})], threads := r.threads, ferry := r.ferry, fns := [(0, {bme := true})] }
def canP (x : Port := {}) (i : Partner := {}) := portOn [0,1] canSetup x {i with areaSize := 4}
def xmit (n : Nat) : Cur := insn 0x50 [5, 0x100, n] -- length 3
def canBytes (id : Nat) (d : List Byte) : List Byte := leBytes 4 id ++ leBytes 4 d.length ++ d
def behind_ (s : State) : State := { s with behind := [{ who := .ring 0, write := false, addr := 8, len := 4 }] }
def portInstr : List State :=
  [ { with_ (xmit 10) (canP {} {addr0 := 3, addr1 := 2^29 - 1}) with harbour := memWrite 0 [] 0x100 (canBytes 3 [1,2]) },
    { with_ (xmit 10) (canP {} {addr0 := 4, addr1 := 2^29 - 1}) with harbour := memWrite 0 [] 0x100 (canBytes 3 [1,2]) },
    with_ (xmit 10) (canP {retired := true}), with_ (xmit 10) ((canP) |>.modMode fun m => m |> fun m => {m with frozen := false}) |> (fun s => {s with banks := []}),
    with_ {rep (xmit 10) (0, 99) with a0 := 0x100} canP, with_ {rep (xmit 10) (0x13, 4) with a0 := 0x100} canP,
    with_ (insn 0x51 [5, 0]) (canP {} {arm := 1}), with_ (insn 0x51 [5, 0]) (canP {due := [6, 5]} {arm := 1}), with_ (insn 0x51 [5 + 2 ^ 12, 0]) canP, with_ (insn 0x51 [5 + 2 * 2 ^ 12, 0]) canP,
    with_ (insn 0x52 [5 + 2 ^ 12 + 4 * 2 ^ 24]) canP, with_ (insn 0x52 [5 + 2 ^ 12 + 4 * 2 ^ 24]) (canP {} {frames := [⟨0,1,3,9,0⟩, ⟨1,1,5,9,0⟩], ring := 1}),
    behind_ (with_ (insn 0x51 [5, 0]) (canP {} {arm := 1})), behind_ (with_ (insn 0x52 [5 + 2 ^ 12 + 4 * 2 ^ 24]) canP),
    runs 0 (insn 0x53 [src 4 5 0 , 0x100]), runs 2 (insn 0x53 [src 4 5 0 + 2^13, 0x100]),
    { runs 2 (insn 0x53 [src 4 5 0 + 2^13, 0x100]) with behind := [{ who := .ring 0, write := false, addr := 8, len := 4 }] }]

/-- nibbles as the pulses of a SENT frame of 90 hundreds of ns a tick, behind the status nibble, with their CRC -/
def nibs (st : Nat) (l : List Nat) : List Nat := (st :: l ++ [sentCrc false l]).map (fun v => 9000 * (12 + v))
def t1sBody : List Byte := List.replicate 60 255
def can (id : Nat) (fdf : Bool) (error : Nat) : CanFrame := { id := id, fdf := fdf, dlc := 2, data := [1, 2], error := error, eights := 1 }
def wires : List WireContent := [.can (can 3 false 0), .sent 504000 (nibs 4 [1, 2, 3, 4, 5, 6]), .psi 0 10 0 false, .spi [1, 2, 3], .i3c [1] false,
  .t1s (t1sBody ++ wordBytes (fcs t1sBody)) false]
def canFrames : List CanFrame := [can 3 false 0, can 3 true 0, can 3 false 2]
def nibPulses : List (List Nat) := [nibs 4 [1, 2, 3, 4, 5, 6], [5]]
def nibbles : List (List Nat) := [[4, 1, 2, 3, 4, 5, 6, sentCrc false [1, 2, 3, 4, 5, 6]]]
def t1sBytes : List (List Byte) := [t1sBody ++ wordBytes (fcs t1sBody), t1sBody, List.replicate 64 0, [1, 2, 3], [1]]
def fullQ : List RxFrame := List.replicate 64 {payload := [1], stamp := 0, epoch := 0}
def rxs (x : Port) : List State := [portOn [0,1] canSetup x {}, portOn [0,1] (sentSetup 0) x {}, portOn [0,1] (psiSetup 0) x {}, portOn [0,1,2,3] spiSetup x {}, portOn [0,1] i3cSetup x {}, portOn (List.range 16) t1sSetup x {}]
def frm (p : List Byte) : RxFrame := {payload := p, stamp := 7, epoch := 3}
def received : List State := [canP {rxq := [frm (canBytes 5 [1])]} {addr0 := 4, addr1 := 2^29 - 1}, canP {rxq := [frm (canBytes 4 [1]), frm []]} {addr0 := 4, addr1 := 2^29 - 1},
   canP {rxq := [frm (canBytes 4 [1])]} {addr0 := 4, addr1 := 2^29 - 1, arm := 1}, canP {rxq := [frm (canBytes 4 (List.range 56 |>.map (BitVec.ofNat 8)))]} {addr0 := 4, addr1 := 2^29 - 1, arm := 2, pos := 3, schedEn := true, schedRing := 2}, canP {rxq := [frm (canBytes 4 [1])]} {addr0 := 4, addr1 := 2^29 - 1, arm := 2, frames := [⟨0,4,9,0,0⟩]}]

def txf (r : Nat) : TxFrame := {ring := r, partner := 5, bytes := [1,2]}
def waitTx (s : State) : State := { s with threads := [(0, {cur := some (xmit 10), wait := .tx 0})] }
def sends : List State := (rxs {txq := [txf 0, txf 3], txFailed := 2^32-2}).map waitTx ++ [waitTx (canP {txq := [txf 0], tec := 248}), waitTx (portOn [0,1] [1 + 1 * 2 ^ 6, 4 + 12 * 2 ^ 9 + 1 * 2 ^ 17 + 1 * 2 ^ 24, 0, 8 + 3 * 2 ^ 7] {txq := [txf 0, txf 32]} {}),
   {canP with ports := [(0, {seen := 2})]}, {canP {txq := [txf 0]} with banks := [], ports := [(0, {seen := 3, run := true, txq := [txf 0]})]}, { portOn [0,1] i3cSetup {} {} with ports := [(0, {seen := 2, tec := 4})]}]

namespace A
def unlocked : List State := allModes.map fun s => s.modMode fun m => { m with wakeDone := true, frozen := true, unlock := true }
def busy : List State := allModes.map fun s => s.modMode fun m => { m with trans := some { id := 10, target := .service, cmd := true, freeze := true } }

theorem test_meets_StepRunsFront :
    ∃ (s : State), s.pending = [] :=
  ⟨allModes[0]'(by decide), by decide +kernel⟩

def marked : State := ({ st .service with ldr := { marks := BitVec.allOnes 8192 } }).modMode fun m => { m with globalWritten := true }
/-- Every strait and global frame of `marked` is clean. -/
theorem marked_clean : ∀ k < 128, marked.ldr.marks.getLsbD (8064 + k) = true ∧
    (marked.findingOf (8064 + k)).2 = .clean := by
  have h : secHc 0 = (0, false) := by decide +kernel
  have f : ∀ n, marked.frame n = { data := 0, check := checkWord (faddrOf n) 0 } := fun n => rfl
  simp only [State.findingOf, f, checkWord, secCheck, h]
  decide +kernel

theorem test_meets_ResetInputs :
    (∃ (s : State), s.mode.mode ≠ Mode.reset) ∧
    (∃ (s : State), s.settled = true ∧ s.mode.mode = Mode.reset) :=
  ⟨⟨allModes[1]'(by decide), by decide +kernel⟩,
   ⟨allModes[0]'(by decide), by decide +kernel⟩⟩

theorem test_meets_ReleaseAndResume :
    (∃ (s : State), s.mode.mode = Mode.reset ∧ (∀ (x : Machine.Trans), s.mode.trans = some x → x.id ≠ 3) ∧
      s.settled = true) ∧
    (∃ (s : State), s.settled = true ∧ s.x1Holds = false ∧ s.mode.mode = Mode.service ∧ s.mode.trans = none ∧
      (s.mode.wakeDone = false ∨ s.mode.globalWritten = true) ∧
      (∀ k < 128, s.ldr.marks.getLsbD (8064 + k) = true ∧ (s.findingOf (8064 + k)).2.passes = true)) ∧
    (∃ (s : State), s.settled = true ∧ s.x1Holds = false ∧ s.mode.mode = Mode.service ∧ s.mode.trans = none ∧
      (s.mode.wakeDone = false ∨ s.mode.globalWritten = true) ∧
      (∀ k < 128, s.ldr.marks.getLsbD (8064 + k) = true ∧ (s.findingOf (8064 + k)).2 = Finding.clean) ∧
      (∀ p ∈ s.frames, p.1 < 8192)) ∧
    (∃ (s : State) (k : Nat), s.settled = true ∧ s.x1Holds = false ∧ s.mode.mode = Mode.service ∧ s.mode.trans = none ∧
      (s.mode.wakeDone = false ∨ s.mode.globalWritten = true) ∧ k < 128 ∧
      (s.ldr.marks.getLsbD (8064 + k) = false ∨ (s.findingOf (8064 + k)).2.passes = false)) :=
  ⟨⟨allModes[0]'(by decide), by decide +kernel, (by intro _ h; cases h), by decide +kernel⟩,
   ⟨marked, by decide, by decide, by decide, by decide, by decide, (fun k h => ⟨(marked_clean k h).1, by rw [(marked_clean k h).2]; rfl⟩)⟩,
   ⟨marked, by decide, by decide, by decide, by decide, by decide, marked_clean, by decide⟩,
   ⟨allModes[5]'(by decide), (3 : Nat), by decide +kernel⟩⟩

theorem test_meets_ModeCommands :
    (∃ (s : State), s.settled = true ∧ (s.mode.mode = Mode.reset ∨ s.x1Holds = true)) ∧
    (∃ (s : State), s.settled = true ∧ s.mode.mode ≠ Mode.reset ∧ s.x1Holds = false ∧ s.mode.trans ≠ none) ∧
    (∃ (s : State) (c : BitVec 4), s.settled = true ∧ s.mode.mode ≠ Mode.reset ∧ s.x1Holds = false ∧ s.mode.trans ≠ none ∧
      (c = 0 ∨ 5 < c)) ∧
    (∃ (s : State), s.settled = true ∧ s.mode.mode ≠ Mode.reset ∧ s.x1Holds = false ∧ s.mode.trans = none) ∧
    (∃ (s : State), s.settled = true ∧ s.mode.mode ≠ Mode.reset ∧ s.x1Holds = false ∧ s.mode.trans = none ∧
      s.mode.mode = Mode.service ∧ s.mode.wakeDone = true ∧ s.mode.globalWritten = false) ∧
    (∃ (s : State), s.settled = true ∧ s.mode.mode ≠ Mode.reset ∧ s.x1Holds = false ∧ s.mode.trans = none ∧
      (s.mode.mode = Mode.service ∨ s.mode.mode = Mode.test) ∧
      (s.mode.frozen = true → ∀ (i : IslandId) (rel : Release), (s.isl ↑i).release = some rel → s.releaseGoes (↑i) rel = false)) ∧
    (∃ (s : State), s.settled = true ∧ s.mode.mode ≠ Mode.reset ∧ s.x1Holds = false ∧ s.mode.trans = none ∧
      s.mode.mode ≠ Mode.service ∧ s.mode.mode ≠ Mode.test) ∧
    (∃ (s : State) (c : BitVec 4), s.settled = true ∧ s.mode.mode ≠ Mode.reset ∧ s.x1Holds = false ∧ s.mode.trans = none ∧
      (c = 0 ∨ 5 < c)) :=
  ⟨⟨allModes[0]'(by decide), by decide +kernel⟩,
   ⟨busy[1]'(by decide), by decide +kernel⟩,
   ⟨busy[1]'(by decide), (0 : BitVec 4), by decide +kernel⟩,
   ⟨allModes[1]'(by decide), by decide +kernel⟩,
   ⟨unlocked[5]'(by decide), by decide +kernel⟩,
   ⟨allModes[5]'(by decide), by decide +kernel⟩,
   ⟨allModes[1]'(by decide), by decide +kernel⟩,
   ⟨allModes[1]'(by decide), (0 : BitVec 4), by decide +kernel⟩⟩

theorem test_meets_UnlockSequence :
    (∃ (s : State), s.settled = true ∧ s.mode.mode ≠ Mode.reset ∧ s.x1Holds = false ∧ s.mode.trans ≠ none) ∧
    (∃ (s : State), s.settled = true ∧ s.mode.mode ≠ Mode.reset ∧ s.x1Holds = false ∧ s.mode.trans = none ∧
      s.mode.mode ≠ Mode.service) ∧
    (∃ (v : Word) (s : State), s.settled = true ∧ s.mode.mode ≠ Mode.reset ∧ s.x1Holds = false ∧ s.mode.trans = none ∧
      s.mode.mode = Mode.service ∧ s.mode.unlock = false ∧ v = 2119630849#32) ∧
    (∃ (v : Word) (s : State), s.settled = true ∧ s.mode.mode ≠ Mode.reset ∧ s.x1Holds = false ∧ s.mode.trans = none ∧
      s.mode.mode = Mode.service ∧ s.mode.unlock = false ∧ v ≠ 2119630849#32) ∧
    (∃ (v : Word) (s : State), s.settled = true ∧ s.mode.mode ≠ Mode.reset ∧ s.x1Holds = false ∧ s.mode.trans = none ∧
      s.mode.mode = Mode.service ∧ s.mode.unlock = true ∧ v ≠ 2119631102#32) ∧
    (∃ (v : Word) (s : State), s.settled = true ∧ s.mode.mode ≠ Mode.reset ∧ s.x1Holds = false ∧ s.mode.trans = none ∧
      s.mode.mode = Mode.service ∧ s.mode.unlock = true ∧ v = 2119631102#32) :=
  ⟨⟨busy[1]'(by decide), by decide +kernel⟩,
   ⟨allModes[1]'(by decide), by decide +kernel⟩,
   ⟨(0x7E570001 : Word), allModes[5]'(by decide), by decide +kernel⟩,
   ⟨0x7E5700FE, allModes[5]'(by decide), by decide +kernel⟩,
   ⟨(0x7E570001 : Word), unlocked[5]'(by decide), by decide +kernel⟩,
   ⟨0x7E5700FE, unlocked[5]'(by decide), by decide +kernel⟩⟩

def trans (i : Nat) (m : Mode) : Trans := { id := i, target := m, cmd := true, freeze := true }
def going (f : Mode) (x : Trans) : State := (st f).modMode fun m => { m with trans := some x, changes := 255 }

theorem test_meets_TransitionCompletes :
    ∃ (x : Machine.Trans) (s : State), s.settled = true ∧ s.mode.trans = some x ∧ x.id ≠ 1 ∧ x.id ≠ 2 ∧ s.mode.waitT8 = false ∧
      s.mode.waitT9 = false ∧ (x.target = Mode.wake → 2 ≤ s.pairsInService) ∧
      (x.target = Mode.degraded → s.leave.queue = []) ∧
      (x.id = 15 ∨ x.id = 16 → x.target ≠ Mode.run ∧ x.target ≠ Mode.degraded) :=
  ⟨trans 10 .service, going .run (trans 10 .service), by decide +kernel⟩

def waking (n : Nat) (b : Bool) : State := { (st .wake).modMode (fun m => { m with wakeStep := n, wakeT12 := b }) with
  banks := [(3, { present := true }), (5, { enabled := true })]
  islands := [(1, { load := true, hold := true, loadState := .complete }), (2, { command := true }), (4, { quarantine := true, healed := true, quarantined := true })] }
def loaded : State := (st .load).modLdr fun l => { l with ownDone := true }
def told (s : State) : State := s.modChain fun c => { c with statusSent := true }
def doneHigh : State := (st .load).modMode fun m => { m with doneLow := false }

theorem test_meets_Wake :
    (∃ (s : State), s.settled = true ∧ s.mode.trans = none ∧ s.mode.mode = Mode.load ∧ s.mode.doneLow = true ∧
      s.ldr.ownDone = true ∧ s.clocks.waiting = 0 ∧ s.chain.stopped = false ∧
      (if s.mode.chainFirst = true then s.ldr.copy ≠ 0 else s.chain.statusSent = true)) ∧
    (∃ (s : State), s.settled = true ∧ s.mode.trans = none ∧ s.mode.mode = Mode.load ∧ s.mode.doneLow = false) ∧
    (∃ (s : State), s.settled = true ∧ s.mode.trans = none ∧ s.mode.mode = Mode.wake ∧ s.mode.wakeStep = 2 ∧
      s.mode.wakeT12 = false) ∧
    (∃ (s : State), s.settled = true ∧ s.mode.trans = none ∧ s.mode.mode = Mode.wake ∧ s.mode.wakeStep = 3) ∧
    (∃ (s : State), s.settled = true ∧ s.mode.trans = none ∧ s.mode.mode = Mode.wake ∧ s.mode.wakeStep = 4) ∧
    (∃ (s : State), s.settled = true ∧ s.mode.trans = none ∧ s.mode.mode = Mode.wake ∧ s.mode.wakeStep = 5) ∧
    (∃ (s : State), s.settled = true ∧ s.mode.mode = Mode.wake ∧ s.mode.trans = none ∧ s.mode.wakeStep = 2 ∧
      s.mode.wakeT12 = true) :=
  ⟨⟨told loaded, by decide +kernel⟩,
   ⟨doneHigh, by decide +kernel⟩,
   ⟨waking 2 false, by decide +kernel⟩,
   ⟨waking 3 false, by decide +kernel⟩,
   ⟨waking 4 false, by decide +kernel⟩,
   ⟨waking 5 false, by decide +kernel⟩,
   ⟨waking 2 true, by decide +kernel⟩⟩

end A

namespace B
def copyA : List (Nat × Byte) := cells 0xFFFF0000 137880187 3395945537 3177438042
/-- The same, for a KIL that the keeper does not have. -/
def otherKil : List (Nat × Byte) := cells 0xFFFF0009 1943978146 2793839253 4057373220
theorem copyA_verifies : ({ cells := copyA } : Flash).verify 1 = true := by
  rw [verify_eq _ (by decide +kernel) (by decide +kernel)]
  simp only [Flash.headerOk, crc32c, crcMore_eq_run]
  decide +kernel
theorem otherKil_verifies : ({ cells := otherKil } : Flash).verify 1 = true := by
  rw [verify_eq _ (by decide +kernel) (by decide +kernel)]
  simp only [Flash.headerOk, crc32c, crcMore_eq_run]
  decide +kernel
def choosing (p : SelPhase) (c : List (Nat × Byte)) (left : List Nat) : State :=
  { st .load with ldr := { phase := p, left := left, trying := 1 }, flash := { cells := c } }

theorem test_meets_FlashBoot :
    (∃ (sig : Bool) (erase64 : Bool) (density : Nat) (s : State), s.settled = true ∧ s.mode.mode = Mode.load ∧ s.ldr.phase = SelPhase.sfdp ∧ sig = true ∧
      33554432 ≤ density ∧ erase64 = true ∧ s.flash.copyOrder ≠ []) ∧
    (∃ (sig : Bool) (erase64 : Bool) (density : Nat) (s : State), s.settled = true ∧ s.mode.mode = Mode.load ∧ s.ldr.phase = SelPhase.sfdp ∧
      (sig = false ∨ density < 33554432 ∨ erase64 = false) ∧ s.mode.trans = none) ∧
    (∃ (c : Nat) (rest : List Nat) (s : State), s.settled = true ∧ s.mode.mode = Mode.load ∧ s.ldr.phase = SelPhase.verify ∧ s.ldr.left = c :: rest ∧
      s.chain.downPresent = false ∧ s.chain.credits = 0 ∧ s.flash.verify c = false ∧ rest ≠ []) ∧
    (∃ (c : Nat) (rest : List Nat) (s : State), s.settled = true ∧ s.mode.mode = Mode.load ∧ s.ldr.phase = SelPhase.verify ∧ s.ldr.left = c :: rest ∧
      s.chain.downPresent = false ∧ s.chain.credits = 0 ∧ s.flash.verify c = true ∧ s.flash.refusal c ≠ 0 ∧
      s.forceBootNow = false ∧ rest ≠ []) ∧
    (∃ (c : Nat) (rest : List Nat) (s : State), s.settled = true ∧ s.mode.mode = Mode.load ∧ s.ldr.phase = SelPhase.verify ∧ s.ldr.left = c :: rest ∧
      s.chain.downPresent = false ∧ s.chain.credits = 0 ∧ rest = [] ∧ s.mode.trans = none ∧
      (s.flash.verify c = false ∨ s.flash.refusal c ≠ 0 ∧ s.forceBootNow = false)) ∧
    (∃ (c : Nat) (rest : List Nat) (s : State), s.settled = true ∧ s.mode.mode = Mode.load ∧ s.ldr.phase = SelPhase.verify ∧ s.ldr.left = c :: rest ∧
      s.chain.downPresent = false ∧ s.chain.credits = 0 ∧ s.flash.verify c = true ∧
      (s.flash.refusal c = 0 ∨ s.forceBootNow = true)) :=
  ⟨⟨true, true, 0x2000000, choosing .sfdp copyA [], by simp only [Flash.copyOrder, Flash.verify, Flash.headerOk, Flash.directory, crc32c, crcMore_eq_run]; decide +kernel⟩,
   ⟨true, true, (0 : Nat), choosing .sfdp copyA [], by decide +kernel⟩,
   ⟨1, [2], choosing .verify [] [1, 2], by decide +kernel⟩,
   ⟨1, [2], choosing .verify otherKil [1, 2], by decide +kernel, by decide +kernel, by decide +kernel, by decide +kernel, by decide +kernel, by decide +kernel, otherKil_verifies, by decide +kernel, by decide +kernel, by decide +kernel⟩,
   ⟨1, ([] : List Nat), choosing .verify [] [1], by decide +kernel⟩,
   ⟨1, ([] : List Nat), choosing .verify copyA [1], by decide +kernel, by decide +kernel, by decide +kernel, by decide +kernel, by decide +kernel, by decide +kernel, copyA_verifies, by decide +kernel⟩⟩

theorem test_meets_LevelsAndChain :
    (∃ (s : State), s.settled = true ∧ s.mode.mode = Mode.load ∧ s.chain.downPresent = false ∧ s.chain.txq = [] ∧
      s.ldr.phase = SelPhase.firmware ∧
      crc32c (s.flash.bytes (copyBase s.ldr.trying + (s.flash.entry s.ldr.trying 0).off) (s.flash.entry s.ldr.trying 0).slen) = (s.flash.entry s.ldr.trying 0).scrc) ∧
    (∃ (s : State), s.settled = true ∧ s.mode.mode = Mode.load ∧ s.chain.downPresent = false ∧ s.chain.txq = [] ∧
      s.ldr.phase = SelPhase.microcode ∧
      crc32c (s.flash.bytes (copyBase s.ldr.trying + (s.flash.entry s.ldr.trying 1).off) (s.flash.entry s.ldr.trying 1).slen) = (s.flash.entry s.ldr.trying 1).scrc) ∧
    (∃ (s : State), s.settled = true ∧ s.mode.mode = Mode.load ∧ s.mode.trans = none ∧ s.mode.doneLow = true) :=
  ⟨⟨choosing .firmware copyA [], by decide +kernel⟩,
   ⟨choosing .microcode copyA [], by decide +kernel⟩,
   ⟨choosing .firmware copyA [], by decide +kernel⟩⟩

def linked (f : Chain → Chain) : State := (st .load).modChain f
def first (p : SelPhase) (m : Mode) : State := ((st m).modLdr fun l => { l with phase := p }).modMode fun m => { m with chainFirst := true }
def begin_ : List Word := chainFrame 1 3 0 ((List.range 17).map (BitVec.ofNat 32))
def section_ (type index level : Nat) : List Word := chainFrame 2 0 0 (bytesWords (leBytes 1 type ++ leBytes 1 index ++ leBytes 2 level ++ leBytes 28 0))
def partway (left : Nat) (sum : Word) : State := linked fun c => { c with section_ := some (2, 0, 7, left, sum, crcInit) }

theorem test_meets_ChainFrames :
    (∃ (frame : List Word) (s : State), s.settled = true ∧ s.mode.mode = Mode.load ∧ s.mode.chainFirst = false ∧ s.chain.stopped = false ∧
      s.chain.downPresent = false ∧ s.chain.credits = 0 ∧ s.ldr.ownDone = false ∧
      frameError true s.chain.rxUp frame false = none ∧ frameType frame = 1 ∧ s.chain.begun = false) ∧
    (∃ (frame : List Word) (s : State), s.settled = true ∧ s.mode.mode = Mode.load ∧ s.mode.chainFirst = false ∧ s.chain.stopped = false ∧
      s.chain.downPresent = false ∧ s.chain.credits = 0 ∧ s.ldr.ownDone = false ∧
      frameError true s.chain.rxUp frame false = none ∧ frameType frame = 2 ∧
      (sectionOf (wordsBytes (framePayload frame))).type = 3 ∧
      (sectionOf (wordsBytes (framePayload frame))).index = s.ldr.chainIndex) ∧
    (∃ (frame : List Word) (s : State), s.settled = true ∧ s.mode.mode = Mode.load ∧ s.mode.chainFirst = false ∧ s.chain.stopped = false ∧
      s.chain.downPresent = false ∧ s.chain.credits = 0 ∧ s.ldr.ownDone = false ∧
      frameError true s.chain.rxUp frame false = none ∧ frameType frame = 2 ∧
      (sectionOf (wordsBytes (framePayload frame))).type = 1) ∧
    (∃ (frame : List Word) (s : State) (type : Nat) (index : Nat) (level : Nat) (left : Nat) (scrc : Word) (crc : Word), s.settled = true ∧ s.mode.mode = Mode.load ∧ s.mode.chainFirst = false ∧ s.chain.stopped = false ∧
      s.chain.downPresent = false ∧ s.chain.credits = 0 ∧ s.ldr.ownDone = false ∧
      frameError true s.chain.rxUp frame false = none ∧ frameType frame = 3 ∧
      s.chain.section_ = some (type, index, level, left, scrc, crc) ∧ (type = 1 ∨ type = 2) ∧
      s.chain.streamEnd = false ∧ (framePayload frame).length ≤ left ∧ (framePayload frame).length < left) ∧
    (∃ (frame : List Word) (s : State) (type : Nat) (index : Nat) (level : Nat) (left : Nat) (scrc : Word) (crc : Word), s.settled = true ∧ s.mode.mode = Mode.load ∧ s.mode.chainFirst = false ∧ s.chain.stopped = false ∧
      s.chain.downPresent = false ∧ s.chain.credits = 0 ∧ s.ldr.ownDone = false ∧
      frameError true s.chain.rxUp frame false = none ∧ frameType frame = 3 ∧
      s.chain.section_ = some (type, index, level, left, scrc, crc) ∧ (type = 1 ∨ type = 2) ∧
      s.chain.streamEnd = false ∧ (framePayload frame).length ≤ left ∧ (framePayload frame).length = left ∧
      crcFinal (crcMore crc (wordsBytes (framePayload frame))) = scrc) ∧
    (∃ (frame : List Word) (s : State), s.settled = true ∧ s.mode.mode = Mode.load ∧ s.mode.chainFirst = false ∧ s.chain.stopped = false ∧
      s.chain.downPresent = false ∧ s.chain.credits = 0 ∧ s.ldr.ownDone = false ∧
      frameError true s.chain.rxUp frame false = none ∧ frameType frame = 4 ∧ s.chain.ownSeen = true) ∧
    (∃ (frame : List Word) (s : State), s.settled = true ∧ s.mode.mode = Mode.load ∧ s.mode.chainFirst = false ∧ s.chain.stopped = false ∧
      s.chain.downPresent = false ∧ s.chain.credits = 0 ∧ s.ldr.ownDone = false ∧
      frameError true s.chain.rxUp frame false = none ∧ frameType frame = 4 ∧ s.chain.ownSeen = false) ∧
    (∃ (frame : List Word) (s : State), s.settled = true ∧ s.mode.mode = Mode.load ∧ s.mode.chainFirst = false ∧ s.chain.stopped = false ∧
      s.chain.downPresent = false ∧ s.chain.credits = 0 ∧ s.ldr.ownDone = false ∧
      frameError true s.chain.rxUp frame false = none ∧ frameType frame = 5 ∧ s.mode.firstWake = false) ∧
    (∃ (frame : List Word) (s : State), s.settled = true ∧ s.mode.mode ≠ Mode.reset ∧ s.chain.txq = [] ∧ s.chain.streamEnd = false ∧
      s.ldr.phase ≠ SelPhase.done ∧ frameError false s.chain.rxDown frame false = none ∧ frameType frame = 8) ∧
    (∃ (frame : List Word) (s : State), s.settled = true ∧ s.mode.mode ≠ Mode.reset ∧ s.chain.txq = [] ∧ s.chain.streamEnd = false ∧
      s.ldr.phase ≠ SelPhase.done ∧ frameError false s.chain.rxDown frame false = none ∧
      frameType frame = 9 ∧ s.mode.chainFirst = false) ∧
    (∃ (frame : List Word) (s : State), s.settled = true ∧ s.mode.mode ≠ Mode.reset ∧ s.chain.txq = [] ∧ s.chain.streamEnd = false ∧
      s.ldr.phase ≠ SelPhase.done ∧ frameError false s.chain.rxDown frame false = none ∧
      frameType frame = 9 ∧ s.mode.chainFirst = true ∧ s.mode.mode = Mode.load ∧
      s.ldr.phase = SelPhase.ownSection ∧ field (wordAt (framePayload frame) 0) 4 4 = 1) ∧
    (∃ (frame : List Word) (s : State), s.settled = true ∧ s.mode.mode ≠ Mode.reset ∧ s.chain.txq = [] ∧ s.chain.streamEnd = false ∧
      s.ldr.phase ≠ SelPhase.done ∧ frameError false s.chain.rxDown frame false = none ∧
      frameType frame = 10 ∧ s.mode.mode ≠ Mode.load ∧ s.mode.chainFirst = false) ∧
    (∃ (frame : List Word) (s : State) (n : Nat), s.settled = true ∧ s.mode.mode ≠ Mode.reset ∧ s.chain.txq = [] ∧ s.chain.streamEnd = false ∧
      s.ldr.phase ≠ SelPhase.done ∧ frameError false s.chain.rxDown frame false = none ∧
      frameType frame = 10 ∧ s.mode.mode ≠ Mode.load ∧ s.mode.chainFirst = true ∧
      denseOf (field (wordAt (framePayload frame) 0) 0 16) = some n) :=
  ⟨⟨begin_, linked id, by decide +kernel⟩,
   ⟨section_ 3 0 0, linked id, by decide +kernel⟩,
   ⟨section_ 1 0 9, linked id, by decide +kernel⟩,
   ⟨chainFrame 3 0 0 [9], partway 2 0, (2 : Nat), 0, 7, (2 : Nat), (0 : Word), crcInit, by decide +kernel⟩,
   ⟨chainFrame 3 0 0 [9], partway 1 (crc32c (wordsBytes [9])), (2 : Nat), 0, 7, 1, crc32c (wordsBytes [9]), crcInit, by decide +kernel⟩,
   ⟨chainFrame 4 0 0 [], linked fun c => { c with ownSeen := true }, by decide +kernel⟩,
   ⟨chainFrame 4 0 0 [], linked id, by decide +kernel⟩,
   ⟨chainFrame 5 0 0 [], linked id, by decide +kernel⟩,
   ⟨chainFrame 8 0 0 [], linked id, by decide +kernel⟩,
   ⟨chainFrame 9 0 0 [0x12], linked id, by decide +kernel⟩,
   ⟨chainFrame 9 0 0 [0x12], first .ownSection .load, by decide +kernel⟩,
   ⟨chainFrame 10 0 0 [0xF800], st .run, by decide +kernel⟩,
   ⟨chainFrame 10 0 0 [0xF800], first .sfdp .run, 8064, by decide +kernel⟩⟩

def keeperWaits : State := { st .run with islands := [(2, { ureg := { busy := some { write := true, addr := 4, who := .keeper } } })] }

theorem test_meets_MemoryAccesses :
    (∃ (a : Nat) (s : State), s.settled = true ∧ s.mode.mode ≠ Mode.reset ∧ a % 4 = 0 ∧ s.behind = [] ∧
      s.outstanding Requester.keeper = true) ∧
    (∃ (a : Nat) (s : State), s.settled = true ∧ s.mode.mode ≠ Mode.reset ∧ a % 4 = 0 ∧ s.behind = [] ∧
      s.outstanding Requester.keeper = false ∧ a < 8388608 ∧ s.harbourBad = [] ∧ s.harbourSoft = []) ∧
    (∃ (a : Nat) (s : State), s.settled = true ∧ s.mode.mode ≠ Mode.reset ∧ a % 4 = 0 ∧ s.behind = [] ∧
      s.outstanding Requester.keeper = false ∧ 51380224 ≤ a ∧ a < 51904512 ∧ s.progBad = []) ∧
    (∃ (a : Nat) (s : State), s.settled = true ∧ s.mode.mode ≠ Mode.reset ∧ a % 4 = 0 ∧ s.behind = [] ∧
      s.outstanding Requester.keeper = false ∧ regionOf a = Region.reserved) :=
  ⟨⟨(0 : Nat), keeperWaits, by decide +kernel⟩,
   ⟨(0 : Nat), st .run, by decide +kernel⟩,
   ⟨0x3100000, st .run, by decide +kernel⟩,
   ⟨0x9000000, st .run, by decide +kernel⟩⟩

def uregAt (a : FabAccess) (d : Option Word := none) (w : List FabAccess := []) : State :=
  { st .run with islands := [(2, { ureg := { busy := some a, ureq := true, shown := true, ack := d, waiting := w } })]
                 threads := [(3, { wait := .fabric 2, cur := some { words := [0], pos := 0 } })] }
def byRing (u : Option Word) : FabAccess := { write := false, addr := 4, who := .ring 3, upper := u }
def byWindow : FabAccess := { write := true, addr := 4, who := .window 3 }

theorem test_meets_FabricHandshake :
    (∃ (i : IslandId) (d : Word) (a : FabAccess) (s : State) (hi : Word), s.settled = true ∧ s.behind = [] ∧ (s.isl ↑i).ureg.busy = some a ∧ s.cplHeld a = false ∧
      (s.isl ↑i).ureg.ack = some d ∧ a.upper = some hi) ∧
    (∃ (i : IslandId) (d : Word) (a : FabAccess) (s : State) (q : Nat), s.settled = true ∧ s.behind = [] ∧ (s.isl ↑i).ureg.busy = some a ∧ s.cplHeld a = false ∧
      (s.isl ↑i).ureg.waiting = [] ∧ a.who = Requester.window q ∧ (s.isl ↑i).ureg.ack = some d ∧
      a.upper = none) ∧
    (∃ (i : IslandId) (a : FabAccess) (s : State) (q : Nat), s.settled = true ∧ s.behind = [] ∧ (s.isl ↑i).ureg.busy = some a ∧ s.cplHeld a = false ∧
      (s.isl ↑i).ureg.waiting = [] ∧ a.who = Requester.window q ∧ (s.isl ↑i).ureg.ack = none) ∧
    (∃ (i : IslandId) (d : Word) (a : FabAccess) (s : State) (r : Nat), s.settled = true ∧ s.behind = [] ∧ (s.isl ↑i).ureg.busy = some a ∧ s.cplHeld a = false ∧
      (s.isl ↑i).ureg.waiting = [] ∧ a.who = Requester.ring r ∧ r < 32 ∧ (s.thr r).wait = Wait.fabric ↑i ∧
      (s.isl ↑i).ureg.ack = some d ∧ a.upper = none) ∧
    (∃ (i : IslandId) (a : FabAccess) (s : State) (r : Nat), s.settled = true ∧ s.behind = [] ∧ (s.isl ↑i).ureg.busy = some a ∧ s.cplHeld a = false ∧
      (s.isl ↑i).ureg.waiting = [] ∧ a.who = Requester.ring r ∧ r < 32 ∧ (s.thr r).wait = Wait.fabric ↑i ∧
      (s.isl ↑i).ureg.ack = none) ∧
    (∃ (i : IslandId) (d : Word) (a : FabAccess) (s : State) (b : FabAccess) (rest : List FabAccess) (q : Nat), s.settled = true ∧ s.behind = [] ∧ (s.isl ↑i).ureg.busy = some a ∧ s.cplHeld a = false ∧
      (s.isl ↑i).ureg.waiting = b :: rest ∧ a.who = Requester.window q ∧ (s.isl ↑i).ureg.ack = some d ∧
      a.upper = none) ∧
    (∃ (i : IslandId) (a : FabAccess) (s : State) (b : FabAccess) (rest : List FabAccess) (q : Nat), s.settled = true ∧ s.behind = [] ∧ (s.isl ↑i).ureg.busy = some a ∧ s.cplHeld a = false ∧
      (s.isl ↑i).ureg.waiting = b :: rest ∧ a.who = Requester.window q ∧ (s.isl ↑i).ureg.ack = none) :=
  ⟨⟨(2 : IslandId), (5 : Word), byRing (some 5), uregAt (byRing (some 5)) (some 5), (5 : Word), by decide +kernel⟩,
   ⟨(2 : IslandId), (5 : Word), byWindow, uregAt byWindow (some 5), (3 : Nat), by decide +kernel⟩,
   ⟨(2 : IslandId), byWindow, uregAt byWindow, (3 : Nat), by decide +kernel⟩,
   ⟨(2 : IslandId), (5 : Word), byRing none, uregAt (byRing none) (some 5), (3 : Nat), by decide +kernel⟩,
   ⟨(2 : IslandId), byRing none, uregAt (byRing none), (3 : Nat), by decide +kernel⟩,
   ⟨(2 : IslandId), (5 : Word), byWindow, uregAt byWindow (some 5) [byRing none], byRing none, ([] : List FabAccess), (3 : Nat), by decide +kernel⟩,
   ⟨(2 : IslandId), byWindow, uregAt byWindow none [byRing none], byRing none, ([] : List FabAccess), (3 : Nat), by decide +kernel⟩⟩

def port (f : LeavePort → LeavePort) : State := ({ st .run with frames := [(2 * 168 + 164, { data := 16, check := 0 })], islands := [(2, { leave := f {} })] }).modMode fun m => { m with firstWake := true }

theorem test_meets_LeavePorts :
    (∃ (i : IslandId) (sel : Fin 4) (later : List (Option Nat)) (s : State), s.settled = true ∧ (s.isl ↑i).leave.edges = some ↑sel :: later) ∧
    (∃ (i : IslandId) (later : List (Option Nat)) (s : State), s.settled = true ∧ (s.isl ↑i).leave.edges = none :: later ∧ s.leave.queue = []) ∧
    (∃ (s : State) (x : LeavePort), s.settled = true ∧ x.seen = false ∧ x.lgrant = false ∧ x.ldeny = false) ∧
    (∃ (s : State) (x : LeavePort), s.settled = true ∧ x.seen = false ∧ (x.lgrant = true ∨ x.ldeny = true) ∧ x.asked = false) :=
  ⟨⟨(2 : IslandId), (1 : Fin 4), ([] : List (Option Nat)), port fun l => { l with edges := [some 1] }, by decide +kernel⟩,
   ⟨(2 : IslandId), ([] : List (Option Nat)), port fun l => { l with seen := true, asked := true, edges := [none] }, by decide +kernel⟩,
   ⟨port fun l => { l with edges := [some 1] }, ({} : LeavePort), by decide +kernel⟩,
   ⟨port fun l => { l with edges := [some 1] }, { lgrant := true }, by decide +kernel⟩⟩

end B

namespace D
def clocked (f : Clocks → Clocks) : State :=
  { (st .run).modClocks f with frames := [(8160, { data := 0x010001 }), (8162, { data := 0x800040001 }), (8165, { data := 0x10 ||| (0x12 <<< 160) })] }
def starting : State := (clocked fun k => { k with waiting := 2 }).modMode fun m => { m with wakeEntered := true }
def locked : State := (clocked fun k => { k with lock := 2, lineActive := 0xFFFF }).modMode fun m => { m with wakeEntered := true }

theorem test_meets_Clocks :
    (∃ (c : SynthId) (s : State), s.settled = true ∧ s.leave.queue = [] ∧ s.mode.mode ≠ Mode.reset ∧ s.synthEn ↑c = true ∧
      s.clocks.lock.getLsbD ↑c = false ∧ s.synthSetupOk ↑c = true) ∧
    (∃ (c : SynthId) (s : State), s.settled = true ∧ s.leave.queue = [] ∧ s.synthSetupOk ↑c = false) ∧
    (∃ (c : SynthId) (s : State), s.settled = true ∧ s.leave.queue = [] ∧ s.clocks.waiting.getLsbD ↑c = true) ∧
    (∃ (c : SynthId) (s : State), s.settled = true ∧ s.leave.queue = [] ∧ s.clocks.lock.getLsbD ↑c = true ∧ s.clocks.lineHigh = 0) ∧
    (∃ (l : LineId) (s : State), s.settled = true ∧ s.lineRuns ↑l = true) :=
  ⟨⟨(1 : SynthId), starting, by decide +kernel⟩,
   ⟨2, starting, by decide +kernel⟩,
   ⟨(1 : SynthId), starting, by decide +kernel⟩,
   ⟨(1 : SynthId), locked, by decide +kernel⟩,
   ⟨(0 : LineId), starting, by decide +kernel⟩⟩

def loading (l : Option Load) (m : Mode) (f : Loader → Loader := id) : State := (st m).modLdr fun x => f { x with load := l }
theorem brings_host {s : State} {p : Path} {ws : List Word} (hp : p = .host)
    (h : s.x1Holds = false ∧ s.mode.mode ≠ .reset ∧ s.ldr.hostDiscard = false) : s.brings p ws := by subst hp; exact h
theorem brings_chain {s : State} {p : Path} {ws : List Word} (hp : p = .chain)
    (h : s.mode.mode = .load ∧ s.chain.stopped = false ∧ s.ldr.ownDone = false ∧
      s.chain.section_.any (fun x =>
        x.1 == 3 && x.2.1 == s.ldr.chainIndex && decide (ws.length < x.2.2.2.1)) = true) : s.brings p ws := by
  subst hp; exact h
theorem failing_host {s : State} {l : Load} {ws : List Word} (hp : l.path = .host)
    (h : s.x1Holds = false ∧ s.mode.mode ≠ .reset ∧ s.ldr.hostDiscard = false) (hf : s.failedIslands = []) : s.failing l ws :=
  ⟨brings_host hp h, .inl hp, hf⟩
def hostLoad (p : LoadPhase) : Load := { path := .host, phase := p }
def locksAt (k : BitVec 7) : State := loading none .service fun l => { l with locks := k }
def bench : State := (st .service).modMode fun m => { m with benchEn := true }

theorem test_meets_HostLoads :
    (∃ (w : Word) (s : State), s.settled = true ∧ s.brings Path.host [w] ∧ s.ldr.locks.getLsbD 1 = true ∧ s.loadOn Path.host = false) ∧
    (∃ (w : Word) (s : State) (l : Load), s.settled = true ∧ s.brings Path.host [w] ∧ s.ldr.locks.getLsbD 1 = false ∧ s.ldr.load = some l ∧
      l.path ≠ Path.host) ∧
    (∃ (w : Word) (s : State), s.settled = true ∧ s.brings Path.host [w] ∧ s.ldr.locks.getLsbD 1 = false ∧ s.ldr.load = none ∧
      w ≠ 1847568338#32) ∧
    (∃ (p : Sys2Proof.Path) (s : State), s.settled = true ∧ s.brings p [1847568338#32] ∧ s.pathLocked p = false ∧ s.ldr.load = none) ∧
    (∃ (s : State), s.settled = true ∧ s.mode.mode ≠ Mode.reset ∧ s.mode.unlock = false ∧ s.x1Holds = false ∧
      s.mode.benchEn = true ∧ s.ldr.locks.getLsbD 5 = false ∧
      (s.mode.mode = Mode.service ∨ s.mode.mode = Mode.test)) ∧
    (∃ (s : State) (v : Word), s.settled = true ∧ s.mode.mode ≠ Mode.reset ∧ s.mode.unlock = false ∧ s.x1Holds = false ∧
      (s.mode.benchEn = false ∨ s.ldr.locks.getLsbD 5 = true ∨ s.mode.mode ≠ Mode.service ∧ s.mode.mode ≠ Mode.test) ∧
      s.ldr.forceHost = false ∧ bitAt (BitVec.toNat v) 0 = true) ∧
    (∃ (s : State), s.settled = true ∧ s.mode.mode ≠ Mode.reset ∧ s.mode.unlock = false ∧ s.x1Holds = false ∧
      s.ldr.hostDiscard = false ∧ s.ldr.locks.getLsbD 1 = false ∧ s.ldr.load = none) ∧
    (∃ (s : State), s.settled = true ∧ s.mode.mode ≠ Mode.reset ∧ s.mode.unlock = false ∧ s.x1Holds = false ∧
      s.loadOn Path.host = false) ∧
    (∃ (s : State) (l : Load), s.settled = true ∧ s.mode.mode ≠ Mode.reset ∧ s.mode.unlock = false ∧ s.x1Holds = false ∧
      s.failedIslands = [] ∧ s.ldr.load = some l ∧ l.path = Path.host) :=
  ⟨⟨(0 : Word), locksAt 2, by and_intros <;> first | decide +kernel | exact brings_host rfl (by decide +kernel)⟩,
   ⟨(0 : Word), loading (some { path := .jtag }) .service, ({ path := .jtag } : Load), by and_intros <;> first | decide +kernel | exact brings_host rfl (by decide +kernel)⟩,
   ⟨(0 : Word), st .run, by and_intros <;> first | decide +kernel | exact brings_host rfl (by decide +kernel)⟩,
   ⟨Sys2Proof.Path.host, st .run, by and_intros <;> first | decide +kernel | exact brings_host rfl (by decide +kernel)⟩,
   ⟨bench, by decide +kernel⟩,
   ⟨st .run, 1, by decide +kernel⟩,
   ⟨st .run, by decide +kernel⟩,
   ⟨st .run, by decide +kernel⟩,
   ⟨loading (some (hostLoad .afterSync)) .service, hostLoad .afterSync, by decide +kernel⟩⟩

def body : Load := { path := .host, phase := .body, off := 9, farSeen := true, far := 33, count := 1, digest := [], bitmap := 1 <<< 9, locks := 2 }
def ready (l : Loader) : Loader := { l with keeperUp := true, microUp := true }
def whole : List Word := [0, 1] ++ List.replicate 8 7 ++ [2] ++ List.replicate 255 0
def bodyOf (p : LoadPhase) : List Load := [hostLoad p]

theorem test_meets_PacketsTaken :
    (∃ (l : Load) (s : State) (w : Word), s.settled = true ∧ s.between l ∧ hdrMark w ≠ 197 ∧ s.failing l [w]) ∧
    (∃ (l : Load) (s : State) (w : Word), s.settled = true ∧ s.between l ∧ hdrMark w = 197 ∧ regOk (hdrReg w) = false ∧ s.failing l [w]) ∧
    (∃ (l : Load) (s : State) (w : Word), s.settled = true ∧ s.between l ∧ hdrMark w = 197 ∧ regOk (hdrReg w) = true ∧
      countOk (hdrReg w) (hdrCount w) = false ∧ s.failing l [w]) ∧
    (∃ (l : Load) (s : State) (ws : List Word), s.settled = true ∧ s.between l ∧ ws.length < 65536 ∧ s.brings l.path (packetHeader 0 ws.length :: ws)) ∧
    (∃ (l : Load) (s : State) (w0 : Word) (w1 : Word), s.settled = true ∧ s.between l ∧ l.phase = LoadPhase.afterSync ∧
      field (BitVec.toNat w0) 0 24 = 83968 ∧ field (BitVec.toNat w1) 0 3 = s.ldr.chainIndex ∧
      s.brings l.path [packetHeader 1 2, w0, w1]) ∧
    (∃ (l : Load) (s : State) (w0 : Word) (w1 : Word), s.settled = true ∧ s.between l ∧ l.phase = LoadPhase.afterSync ∧
      field (BitVec.toNat w0) 0 24 ≠ 83968 ∧ s.failing l [packetHeader 1 2, w0, w1]) ∧
    (∃ (l : Load) (s : State) (w0 : Word) (w1 : Word), s.settled = true ∧ s.between l ∧ l.phase = LoadPhase.afterSync ∧
      field (BitVec.toNat w0) 0 24 = 83968 ∧ field (BitVec.toNat w1) 0 3 ≠ s.ldr.chainIndex ∧
      s.failing l [packetHeader 1 2, w0, w1]) ∧
    (∃ (l : Load) (s : State) (w0 : Word) (w1 : Word) (w2 : Word) (w3 : Word), s.settled = true ∧ s.between l ∧ l.phase = LoadPhase.afterId ∧ stampOrdered [w0, w1, w2, w3] = true ∧
      stampRange [w0, w1, w2, w3] s.ldr.kil s.ldr.pml = true ∧ s.ldr.keeperUp = true ∧
      s.ldr.microUp = true ∧ s.ldr.override = false ∧ s.brings l.path [packetHeader 2 4, w0, w1, w2, w3]) ∧
    (∃ (l : Load) (s : State) (w0 : Word) (w1 : Word) (w2 : Word) (w3 : Word), s.settled = true ∧ s.between l ∧ l.phase = LoadPhase.afterId ∧
      stampRange [w0, w1, w2, w3] s.ldr.kil s.ldr.pml = false ∧ s.ldr.forceHost = false ∧
      s.failing l [packetHeader 2 4, w0, w1, w2, w3]) ∧
    (∃ (l : Load) (s : State) (ws : List Word), s.settled = true ∧ s.between l ∧ l.phase = LoadPhase.afterStamp ∧ (ws.length = 10 ∨ ws.length = 266) ∧
      manifestOk ws = true ∧ s.brings l.path (packetHeader 3 ws.length :: ws)) ∧
    (∃ (l : Load) (s : State) (ws : List Word), s.settled = true ∧ s.between l ∧ l.phase = LoadPhase.afterStamp ∧ (ws.length = 10 ∨ ws.length = 266) ∧
      manifestOk ws = false ∧ s.failing l (packetHeader 3 ws.length :: ws)) ∧
    (∃ (l : Load) (s : State) (rest : BitVec 28), s.settled = true ∧ s.between l ∧ s.failing l [packetHeader 4 1, cmdWord 3 rest]) ∧
    (∃ (l : Load) (s : State) (w : Word), s.settled = true ∧ s.between l ∧ (field (BitVec.toNat w) 0 4 = 0 ∨ 3 < field (BitVec.toNat w) 0 4) ∧
      s.failing l [packetHeader 4 1, w]) ∧
    (∃ (l : Load) (s : State) (w : Word), s.settled = true ∧ s.between l ∧ l.phase = LoadPhase.body ∧ l.lockSeen = false ∧
      s.brings l.path [packetHeader 5 1, w]) ∧
    (∃ (l : Load) (s : State) (w : Word), s.settled = true ∧ s.between l ∧ l.phase = LoadPhase.body ∧
      denseOf (field (BitVec.toNat w) 0 16) ≠ none ∧ s.brings l.path [packetHeader 6 1, w]) ∧
    (∃ (l : Load) (s : State) (w : Word), s.settled = true ∧ s.between l ∧ l.phase = LoadPhase.body ∧
      denseOf (field (BitVec.toNat w) 0 16) = none ∧ s.failing l [packetHeader 6 1, w]) :=
  ⟨⟨hostLoad .afterSync, loading (some (hostLoad .afterSync)) .service, (0 : Word), by and_intros <;> first | decide +kernel | exact failing_host rfl (by decide +kernel) (by decide +kernel) | (unfold State.between; decide +kernel)⟩,
   ⟨hostLoad .afterSync, loading (some (hostLoad .afterSync)) .service, 0xC5090000, by and_intros <;> first | decide +kernel | exact failing_host rfl (by decide +kernel) (by decide +kernel) | (unfold State.between; decide +kernel)⟩,
   ⟨hostLoad .afterSync, loading (some (hostLoad .afterSync)) .service, 0xC5010003, by and_intros <;> first | decide +kernel | exact failing_host rfl (by decide +kernel) (by decide +kernel) | (unfold State.between; decide +kernel)⟩,
   ⟨hostLoad .afterSync, loading (some (hostLoad .afterSync)) .service, ([] : List Word), by and_intros <;> first | decide +kernel | exact brings_host rfl (by decide +kernel) | (unfold State.between; decide +kernel)⟩,
   ⟨hostLoad .afterSync, loading (some (hostLoad .afterSync)) .service, 0x014800, (0 : Word), by and_intros <;> first | decide +kernel | exact brings_host rfl (by decide +kernel) | (unfold State.between; decide +kernel)⟩,
   ⟨hostLoad .afterSync, loading (some (hostLoad .afterSync)) .service, (0 : Word), (0 : Word), by and_intros <;> first | decide +kernel | exact failing_host rfl (by decide +kernel) (by decide +kernel) | (unfold State.between; decide +kernel)⟩,
   ⟨hostLoad .afterSync, loading (some (hostLoad .afterSync)) .service, 0x014800, 0xC5010003, by and_intros <;> first | decide +kernel | exact failing_host rfl (by decide +kernel) (by decide +kernel) | (unfold State.between; decide +kernel)⟩,
   ⟨hostLoad .afterId, loading (some (hostLoad .afterId)) .service ready, (0 : Word), (0 : Word), (0 : Word), (0 : Word), by and_intros <;> first | decide +kernel | exact brings_host rfl (by decide +kernel) | (unfold State.between; decide +kernel)⟩,
   ⟨hostLoad .afterId, loading (some (hostLoad .afterId)) .service ready, (0 : Word), 0xC5010003, (0 : Word), (0 : Word), by and_intros <;> first | decide +kernel | exact failing_host rfl (by decide +kernel) (by decide +kernel) | (unfold State.between; decide +kernel)⟩,
   ⟨hostLoad .afterStamp, loading (some (hostLoad .afterStamp)) .service, [1, 8192, 0, 0, 0, 0, 0, 0, 0, 0], by and_intros <;> first | decide +kernel | exact brings_host rfl (by decide +kernel) | (unfold State.between; decide +kernel)⟩,
   ⟨hostLoad .afterStamp, loading (some (hostLoad .afterStamp)) .service, [0, 8192, 0, 0, 0, 0, 0, 0, 0, 1], by and_intros <;> first | decide +kernel | exact failing_host rfl (by decide +kernel) (by decide +kernel) | (unfold State.between; decide +kernel)⟩,
   ⟨hostLoad .afterSync, loading (some (hostLoad .afterSync)) .service, (0 : BitVec 28), by and_intros <;> first | decide +kernel | exact failing_host rfl (by decide +kernel) (by decide +kernel) | (unfold State.between; decide +kernel)⟩,
   ⟨hostLoad .afterSync, loading (some (hostLoad .afterSync)) .service, (0 : Word), by and_intros <;> first | decide +kernel | exact failing_host rfl (by decide +kernel) (by decide +kernel) | (unfold State.between; decide +kernel)⟩,
   ⟨body, loading (some body) .service, (0 : Word), by and_intros <;> first | decide +kernel | exact brings_host rfl (by decide +kernel) | (unfold State.between; decide +kernel)⟩,
   ⟨body, loading (some body) .service, (0 : Word), by and_intros <;> first | decide +kernel | exact brings_host rfl (by decide +kernel) | (unfold State.between; decide +kernel)⟩,
   ⟨body, loading (some body) .service, 0xF81F, by and_intros <;> first | decide +kernel | exact failing_host rfl (by decide +kernel) (by decide +kernel) | (unfold State.between; decide +kernel)⟩⟩

def declared : Load := { hostLoad .afterManifest with bitmap := 1 <<< 9 }
def chained : Load := { declared with path := .chain }
def inLoad : State := (loading (some chained) .load).modChain fun c => { c with section_ := some (3, 0, 0, 100, 0, crcInit) }

theorem test_meets_LoadStarts :
    (∃ (l : Load) (rest : BitVec 28) (s : State), s.settled = true ∧ s.between l ∧ l.phase = LoadPhase.afterManifest ∧
      s.brings l.path [packetHeader 4 1, cmdWord 1 rest] ∧ startMode l.path true s.mode.mode = true ∧
      s.mode.mode = Mode.load) ∧
    (∃ (l : Load) (rest : BitVec 28) (s : State), s.settled = true ∧ s.between l ∧ l.phase = LoadPhase.afterManifest ∧
      s.brings l.path [packetHeader 4 1, cmdWord 1 rest] ∧ startMode l.path true s.mode.mode = true ∧
      s.mode.mode ≠ Mode.load ∧
      (∀ (i : IslandId), (∃ k : Fin 168, l.declares (168 * ↑i + ↑k) = true) → s.loadBusy ↑i = false)) ∧
    (∃ (l : Load) (rest : BitVec 28) (s : State), s.settled = true ∧ s.between l ∧ l.phase = LoadPhase.afterManifest ∧
      s.brings l.path [packetHeader 4 1, cmdWord 2 rest] ∧ startMode l.path false s.mode.mode = true ∧
      l.all = false ∧ s.mode.mode ≠ Mode.load ∧
      (∀ (i : IslandId), (∃ k : Fin 168, l.declares (168 * ↑i + ↑k) = true) → s.loadBusy ↑i = false)) :=
  ⟨⟨chained, (5 : BitVec 28), inLoad, by and_intros <;> first | decide +kernel | exact brings_chain rfl (by decide +kernel) | (unfold State.between; decide +kernel)⟩,
   ⟨declared, (5 : BitVec 28), loading (some declared) .service, by and_intros <;> first | decide +kernel | exact brings_host rfl (by decide +kernel) | (unfold State.between; decide +kernel)⟩,
   ⟨declared, (5 : BitVec 28), loading (some declared) .service, by and_intros <;> first | decide +kernel | exact brings_host rfl (by decide +kernel) | (unfold State.between; decide +kernel)⟩⟩

def record_ (crc : Word) : List Word := (List.range 64).map (BitVec.ofNat 32) ++ [crc]
def bodyAfter (k : Nat) : Load := { body with last := some k }
def bodyOther : Load := { body with bitmap := 1 }
def partOf (l : Load) : Load := { l with part := [packetHeader 7 130], records := 2 }

theorem test_meets_FrameRecords :
    (∃ (l : Load) (ws : List Word) (s : State) (n : Nat) (k : Nat), s.settled = true ∧ s.ldr.load = some l ∧ l.phase = LoadPhase.body ∧ l.farSeen = true ∧
      l.farEnd = false ∧ ws.length = 65 ∧ s.forcedFull 11 = false ∧ denseOf l.far = some n ∧ l.part = [] ∧
      1 ≤ k ∧ k ≤ 1008 ∧ s.brings l.path (packetHeader 7 (65 * k) :: ws) ∧
      (∀ (k : Nat), l.last = some k → k < n) ∧ l.declares n = true ∧
      recordCrc l.far (List.take 64 ws) = ws.getD 64 0) ∧
    (∃ (l : Load) (ws : List Word) (s : State) (n : Nat) (k : Nat), s.settled = true ∧ s.ldr.load = some l ∧ l.phase = LoadPhase.body ∧ l.farSeen = true ∧
      l.farEnd = false ∧ ws.length = 65 ∧ s.forcedFull 11 = false ∧ denseOf l.far = some n ∧ l.part = [] ∧
      1 ≤ k ∧ k ≤ 1008 ∧ s.brings l.path (packetHeader 7 (65 * k) :: ws) ∧
      (l.path = Path.host ∨ l.path = Path.jtag) ∧ (∃ k, l.last = some k ∧ n ≤ k)) ∧
    (∃ (l : Load) (ws : List Word) (s : State) (n : Nat) (k : Nat), s.settled = true ∧ s.ldr.load = some l ∧ l.phase = LoadPhase.body ∧ l.farSeen = true ∧
      l.farEnd = false ∧ ws.length = 65 ∧ s.forcedFull 11 = false ∧ denseOf l.far = some n ∧ l.part = [] ∧
      1 ≤ k ∧ k ≤ 1008 ∧ s.brings l.path (packetHeader 7 (65 * k) :: ws) ∧
      (l.path = Path.host ∨ l.path = Path.jtag) ∧ (∀ (k : Nat), l.last = some k → k < n) ∧
      l.declares n = false) ∧
    (∃ (l : Load) (ws : List Word) (s : State) (n : Nat) (k : Nat), s.settled = true ∧ s.ldr.load = some l ∧ l.phase = LoadPhase.body ∧ l.farSeen = true ∧
      l.farEnd = false ∧ ws.length = 65 ∧ s.forcedFull 11 = false ∧ denseOf l.far = some n ∧ l.part = [] ∧
      1 ≤ k ∧ k ≤ 1008 ∧ s.brings l.path (packetHeader 7 (65 * k) :: ws) ∧
      (l.path = Path.host ∨ l.path = Path.jtag) ∧ (∀ (k : Nat), l.last = some k → k < n) ∧
      l.declares n = true ∧ recordCrc l.far (List.take 64 ws) ≠ ws.getD 64 0) ∧
    (∃ (l : Load) (ws : List Word) (s : State) (n : Nat) (h : Word), s.settled = true ∧ s.ldr.load = some l ∧ l.phase = LoadPhase.body ∧ l.farSeen = true ∧
      l.farEnd = false ∧ ws.length = 65 ∧ s.forcedFull 11 = false ∧ denseOf l.far = some n ∧ l.part = [h] ∧
      hdrReg h = 7 ∧ s.brings l.path ws ∧ (∀ (k : Nat), l.last = some k → k < n) ∧ l.declares n = true ∧
      recordCrc l.far (List.take 64 ws) = ws.getD 64 0) ∧
    (∃ (l : Load) (ws : List Word) (s : State) (n : Nat) (h : Word), s.settled = true ∧ s.ldr.load = some l ∧ l.phase = LoadPhase.body ∧ l.farSeen = true ∧
      l.farEnd = false ∧ ws.length = 65 ∧ s.forcedFull 11 = false ∧ denseOf l.far = some n ∧ l.part = [h] ∧
      hdrReg h = 7 ∧ s.brings l.path ws ∧ (l.path = Path.host ∨ l.path = Path.jtag) ∧
      (∃ k, l.last = some k ∧ n ≤ k)) ∧
    (∃ (l : Load) (ws : List Word) (s : State) (n : Nat) (h : Word), s.settled = true ∧ s.ldr.load = some l ∧ l.phase = LoadPhase.body ∧ l.farSeen = true ∧
      l.farEnd = false ∧ ws.length = 65 ∧ s.forcedFull 11 = false ∧ denseOf l.far = some n ∧ l.part = [h] ∧
      hdrReg h = 7 ∧ s.brings l.path ws ∧ (l.path = Path.host ∨ l.path = Path.jtag) ∧
      (∀ (k : Nat), l.last = some k → k < n) ∧ l.declares n = false) ∧
    (∃ (l : Load) (ws : List Word) (s : State) (n : Nat) (h : Word), s.settled = true ∧ s.ldr.load = some l ∧ l.phase = LoadPhase.body ∧ l.farSeen = true ∧
      l.farEnd = false ∧ ws.length = 65 ∧ s.forcedFull 11 = false ∧ denseOf l.far = some n ∧ l.part = [h] ∧
      hdrReg h = 7 ∧ s.brings l.path ws ∧ (l.path = Path.host ∨ l.path = Path.jtag) ∧
      (∀ (k : Nat), l.last = some k → k < n) ∧ l.declares n = true ∧
      recordCrc l.far (List.take 64 ws) ≠ ws.getD 64 0) :=
  ⟨⟨body, record_ 0xD7BC9148, loading (some body) .service, (9 : Nat), (9 : Nat), by and_intros <;> first | (intro _ h; cases h <;> decide +kernel) | (simp only [recordCrc, crc32c, crcMore_eq_run]; decide +kernel) | decide +kernel | exact brings_host rfl (by decide +kernel)⟩,
   ⟨bodyAfter 9, record_ 0xD7BC9148, loading (some (bodyAfter 9)) .service, (9 : Nat), (9 : Nat), by and_intros <;> first | decide +kernel | exact brings_host rfl (by decide +kernel)⟩,
   ⟨bodyOther, record_ 0xD7BC9148, loading (some bodyOther) .service, (9 : Nat), (9 : Nat), by and_intros <;> first | (intro _ h; cases h <;> decide +kernel) | decide +kernel | exact brings_host rfl (by decide +kernel)⟩,
   ⟨body, record_ 3, loading (some body) .service, (9 : Nat), (9 : Nat), by and_intros <;> first | (intro _ h; cases h <;> decide +kernel) | (simp only [recordCrc, crc32c, crcMore_eq_run]; decide +kernel) | decide +kernel | exact brings_host rfl (by decide +kernel)⟩,
   ⟨partOf body, record_ 0xD7BC9148, loading (some (partOf body)) .service, (9 : Nat), packetHeader 7 130, by and_intros <;> first | (intro _ h; cases h <;> decide +kernel) | (simp only [recordCrc, crc32c, crcMore_eq_run]; decide +kernel) | decide +kernel | exact brings_host rfl (by decide +kernel)⟩,
   ⟨partOf (bodyAfter 9), record_ 0xD7BC9148, loading (some (partOf (bodyAfter 9))) .service, (9 : Nat), packetHeader 7 130, by and_intros <;> first | decide +kernel | exact brings_host rfl (by decide +kernel)⟩,
   ⟨partOf bodyOther, record_ 0xD7BC9148, loading (some (partOf bodyOther)) .service, (9 : Nat), packetHeader 7 130, by and_intros <;> first | (intro _ h; cases h <;> decide +kernel) | decide +kernel | exact brings_host rfl (by decide +kernel)⟩,
   ⟨partOf body, record_ 3, loading (some (partOf body)) .service, (9 : Nat), packetHeader 7 130, by and_intros <;> first | (intro _ h; cases h <;> decide +kernel) | (simp only [recordCrc, crc32c, crcMore_eq_run]; decide +kernel) | decide +kernel | exact brings_host rfl (by decide +kernel)⟩⟩

def endWord (l : Load) : Word := crcFinal (crcMore l.crc (wordsBytes [packetHeader 0x0F 1]))
def done : Load := { body with written := 1, digest := shaFinal {} }
def wrongDigest : Load := { body with written := 1 }

theorem test_meets_LoadEnds :
    (∃ (l : Load) (crc : Word) (s : State), s.settled = true ∧ s.between l ∧ l.phase = LoadPhase.body ∧ s.brings l.path [packetHeader 15 1, crc] ∧
      crc = crcFinal (crcMore l.crc (wordsBytes [packetHeader 15 1])) ∧ l.written = l.count ∧
      shaFinal l.sha = l.digest) ∧
    (∃ (l : Load) (crc : Word) (s : State), s.settled = true ∧ s.between l ∧ l.phase = LoadPhase.body ∧ s.brings l.path [packetHeader 15 1, crc] ∧
      (l.path = Path.host ∨ l.path = Path.jtag) ∧
      crc ≠ crcFinal (crcMore l.crc (wordsBytes [packetHeader 15 1]))) ∧
    (∃ (l : Load) (crc : Word) (s : State), s.settled = true ∧ s.between l ∧ l.phase = LoadPhase.body ∧ s.brings l.path [packetHeader 15 1, crc] ∧
      (l.path = Path.host ∨ l.path = Path.jtag) ∧
      crc = crcFinal (crcMore l.crc (wordsBytes [packetHeader 15 1])) ∧ l.written ≠ l.count) ∧
    (∃ (l : Load) (crc : Word) (s : State), s.settled = true ∧ s.between l ∧ l.phase = LoadPhase.body ∧ s.brings l.path [packetHeader 15 1, crc] ∧
      (l.path = Path.host ∨ l.path = Path.jtag) ∧
      crc = crcFinal (crcMore l.crc (wordsBytes [packetHeader 15 1])) ∧ l.written = l.count ∧
      shaFinal l.sha ≠ l.digest) ∧
    (∃ (s : State), s.settled = true ∧ s.mode.mode ≠ Mode.reset ∧ s.mode.unlock = false ∧ s.x1Holds = false) :=
  ⟨⟨done, endWord body, loading (some done) .service, by and_intros <;> first | decide +kernel | exact brings_host rfl (by decide +kernel) | (unfold State.between; decide +kernel)⟩,
   ⟨done, (0 : Word), loading (some done) .service, by and_intros <;> first | decide +kernel | exact brings_host rfl (by decide +kernel) | (unfold State.between; decide +kernel)⟩,
   ⟨body, endWord body, loading (some body) .service, by and_intros <;> first | decide +kernel | exact brings_host rfl (by decide +kernel) | (unfold State.between; decide +kernel)⟩,
   ⟨wrongDigest, endWord body, loading (some wrongDigest) .service, by and_intros <;> first | decide +kernel | exact brings_host rfl (by decide +kernel) | (unfold State.between; decide +kernel)⟩,
   ⟨loading (some done) .service, by decide +kernel⟩⟩

def inUse (a n : Nat) (c : Nat := 0) : State := { st .service with flash := { addr := a, len := n }, ldr := { copy := c } }
def job (o : FlashOp) : FlashJob := { op := o, addr := 0x10000, len := 1, data := [0x0F] }
def flashing (o : Option FlashJob) (m : Mode) (k : BitVec 7 := 0) (first : Bool := true) : State :=
  { (st m).modMode (fun m => { m with chainFirst := first }) with flash := { cells := [(0x10000, 0x3F), (0x20000, 3)], addr := 0x10000, len := 1, busy := o, buffer := [(0, 0x0F)] }, ldr := { locks := k } }

theorem test_meets_FlashCommands :
    (∃ (s : State), s.settled = true ∧ s.mode.mode ≠ Mode.reset ∧ s.mode.unlock = false ∧ s.x1Holds = false ∧
      s.flash.busy = none ∧ s.mode.mode ≠ Mode.service ∧ s.mode.mode ≠ Mode.test) ∧
    (∃ (s : State), s.settled = true ∧ s.mode.mode ≠ Mode.reset ∧ s.mode.unlock = false ∧ s.x1Holds = false ∧
      s.flash.busy = none ∧ (s.mode.mode = Mode.service ∨ s.mode.mode = Mode.test) ∧
      s.ldr.locks.getLsbD 2 = true) ∧
    (∃ (s : State), s.settled = true ∧ s.mode.mode ≠ Mode.reset ∧ s.mode.unlock = false ∧ s.x1Holds = false ∧
      s.flash.busy = none ∧ (s.mode.mode = Mode.service ∨ s.mode.mode = Mode.test) ∧
      s.ldr.locks.getLsbD 2 = false ∧ s.ldr.copy ≠ 0 ∧ s.flash.addr < copyBase s.ldr.copy + 16777216 ∧
      copyBase s.ldr.copy < s.flash.addr + s.flash.len) ∧
    (∃ (s : State), s.settled = true ∧ s.mode.mode ≠ Mode.reset ∧ s.mode.unlock = false ∧ s.x1Holds = false ∧
      s.flash.busy = none ∧ (s.mode.mode = Mode.service ∨ s.mode.mode = Mode.test) ∧
      s.ldr.locks.getLsbD 2 = false ∧ s.ldr.copy ≠ 0 ∧ s.flash.addr < copyBase s.ldr.copy + 16777216 ∧
      copyBase s.ldr.copy < s.flash.addr + 65536) ∧
    (∃ (s : State), s.settled = true ∧ s.mode.mode ≠ Mode.reset ∧ s.mode.unlock = false ∧ s.x1Holds = false ∧
      s.flash.busy = none ∧ (s.mode.mode = Mode.service ∨ s.mode.mode = Mode.test) ∧
      s.ldr.locks.getLsbD 2 = false ∧
      (¬(fun n ↦ s.ldr.copy ≠ 0 ∧ s.flash.addr < copyBase s.ldr.copy + 16777216 ∧ copyBase s.ldr.copy < s.flash.addr + n) s.flash.len) ∧
      1 ≤ s.flash.len ∧
      (33554432 < s.flash.addr + s.flash.len ∨ s.flash.addr / 65536 ≠ (s.flash.addr + s.flash.len - 1) / 65536)) ∧
    (∃ (s : State), s.settled = true ∧ s.mode.mode ≠ Mode.reset ∧ s.mode.unlock = false ∧ s.x1Holds = false ∧
      s.flash.busy = none ∧ (s.mode.mode = Mode.service ∨ s.mode.mode = Mode.test) ∧
      s.ldr.locks.getLsbD 2 = false ∧
      (¬(fun n ↦ s.ldr.copy ≠ 0 ∧ s.flash.addr < copyBase s.ldr.copy + 16777216 ∧ copyBase s.ldr.copy < s.flash.addr + n) 65536) ∧
      (33554432 < s.flash.addr + 65536 ∨ s.flash.addr % 65536 ≠ 0)) ∧
    (∃ (s : State), s.settled = true ∧ s.mode.mode ≠ Mode.reset ∧ s.mode.unlock = false ∧ s.x1Holds = false ∧
      s.flash.busy = none ∧ (s.mode.mode = Mode.service ∨ s.mode.mode = Mode.test) ∧
      s.ldr.locks.getLsbD 2 = false ∧ s.ldr.copy = 0 ∧ 1 ≤ s.flash.len ∧
      s.flash.addr + s.flash.len ≤ 33554432 ∧
      s.flash.addr / 65536 = (s.flash.addr + s.flash.len - 1) / 65536) ∧
    (∃ (s : State), s.settled = true ∧ s.mode.mode ≠ Mode.reset ∧ s.mode.unlock = false ∧ s.x1Holds = false ∧
      s.flash.busy = none ∧ (s.mode.mode = Mode.service ∨ s.mode.mode = Mode.test) ∧
      s.ldr.locks.getLsbD 2 = false ∧ s.ldr.copy = 0 ∧ s.flash.addr % 65536 = 0 ∧ s.flash.addr < 33554432) ∧
    (∃ (j : FlashJob) (s : State) (c : Instr), s.settled = true ∧ s.flash.busy = some j ∧ s.mode.chainFirst = false ∧
      (c = Instr.flashBusyTimeout ∨ ∃ e, c = Instr.flashCmdDone e)) ∧
    (∃ (j : FlashJob) (s : State), s.settled = true ∧ s.flash.busy = some j ∧ s.mode.chainFirst = true ∧ j.op = FlashOp.read) ∧
    (∃ (j : FlashJob) (s : State), s.settled = true ∧ s.flash.busy = some j ∧ s.mode.chainFirst = true ∧ j.op = FlashOp.erase) ∧
    (∃ (j : FlashJob) (s : State), s.settled = true ∧ s.flash.busy = some j ∧ s.mode.chainFirst = true ∧ j.op = FlashOp.program) ∧
    (∃ (j : FlashJob) (s : State), s.settled = true ∧ s.flash.busy = some j ∧ s.mode.chainFirst = true ∧ j.op = FlashOp.verifyA) ∧
    (∃ (j : FlashJob) (s : State), s.settled = true ∧ s.flash.busy = some j ∧ s.mode.chainFirst = true ∧ j.op = FlashOp.verifyB) ∧
    (∃ (j : FlashJob) (s : State) (c : Instr), s.settled = true ∧ s.flash.busy = some j ∧ s.mode.chainFirst = true ∧
      (c = Instr.flashCmdDone true ∨ c = Instr.flashBusyTimeout)) :=
  ⟨⟨flashing none .run, by decide +kernel⟩,
   ⟨flashing none .service 4, by decide +kernel⟩,
   ⟨inUse 0x10000 1 1, by decide +kernel⟩,
   ⟨inUse 0x10000 1 1, by decide +kernel⟩,
   ⟨inUse 0x1FFFF 2, by decide +kernel⟩,
   ⟨inUse 0x1FFFF 2, by decide +kernel⟩,
   ⟨flashing none .service, by decide +kernel⟩,
   ⟨flashing none .service, by decide +kernel⟩,
   ⟨job .read, flashing (some (job .read)) .service 0 false, Instr.flashBusyTimeout, by decide +kernel⟩,
   ⟨job .read, flashing (some (job .read)) .service, by decide +kernel⟩,
   ⟨job .erase, flashing (some (job .erase)) .service, by decide +kernel⟩,
   ⟨job .program, flashing (some (job .program)) .service, by decide +kernel⟩,
   ⟨job .verifyA, flashing (some (job .verifyA)) .service, by decide +kernel⟩,
   ⟨job .verifyB, flashing (some (job .verifyB)) .service, by decide +kernel⟩,
   ⟨job .read, flashing (some (job .read)) .service, Instr.flashBusyTimeout, by decide +kernel⟩⟩

def inReset : State := (st .service).modJtag fun j => { j with trstLow := true }
def tapLoad : State := loading (some { path := .jtag }) .service
/-- TEST, with X11 forced full and a JTAG load at a frame boundary. -/
def tapHeld : State := (loading (some { path := .jtag, phase := .body, part := [0x5C070000] }) .test).modJtag (fun j => { j with isc := true }) |> fun s => { s with ptu := { qQueue := 11, qCycles := 9 } }
def tapOn : State := (st .service).modJtag fun j => { j with isc := true }
def tapWords (n : Nat) : State := tapHeld.modJtag fun j => { j with x17 := List.replicate n 3 }
def tapFull : State := { loading none .test with ptu := { qQueue := 17, qCycles := 9 }, jtag := { isc := true } }

theorem test_meets_TapInstructions :
    (∃ (s : State), s.settled = true ∧ s.loadOn Path.jtag = false) ∧
    (∃ (s : State), s.settled = true ∧ s.loadOn Path.jtag = true ∧ s.failedIslands = []) ∧
    (∃ (s : State) (c : Instr), s.settled = true ∧ s.jtag.trstLow = true ∧
      (c = Instr.jtagIdcode ∨ c = Instr.jtagClamp ∨ c = Instr.jtagHighz ∨ c = Instr.iscEnable ∨ c = Instr.iscDisable ∨ c = Instr.iscNoop ∨ c = Instr.jtagLoadStatus ∨ (∃ w, c = Instr.iscProgram w) ∨ (∃ x, c = Instr.jtagSamplePreload x) ∨ (∃ x, c = Instr.jtagExtest x) ∨ ∃ op, c = Instr.jtagBypass op)) ∧
    (∃ (s : State), s.settled = true ∧ s.jtag.trstLow = false) ∧
    (∃ (s : State) (op : BitVec 8), s.settled = true ∧ s.jtag.trstLow = false ∧ (op = 0 ∨ 5 < op ∧ op < 16 ∨ 19 < op ∧ op < 32 ∨ 32 < op)) ∧
    (∃ (s : State), s.settled = true ∧ s.jtag.trstLow = false ∧
      (s.mode.mode = Mode.service ∨ s.mode.mode = Mode.test ∨ s.mode.mode = Mode.hold) ∧
      s.ldr.locks.getLsbD 0 = false ∧ s.jtag.isc = false) ∧
    (∃ (s : State), s.settled = true ∧ s.jtag.trstLow = false ∧ (s.ldr.locks.getLsbD 0 = true ∨ s.jtag.isc = true)) ∧
    (∃ (s : State), s.settled = true ∧ s.jtag.trstLow = false ∧ s.loadOn Path.jtag = false) ∧
    (∃ (s : State), s.settled = true ∧ s.jtag.trstLow = false ∧ s.jtag.isc = true ∧ s.ldr.locks.getLsbD 0 = false ∧
      s.ldr.jtagDiscard = false ∧ s.ldr.load = none ∧ s.forcedFull 17 = true) ∧
    (∃ (s : State), s.settled = true ∧ s.jtag.trstLow = false ∧ s.jtag.isc = true ∧ s.ldr.locks.getLsbD 0 = false ∧
      s.ldr.jtagDiscard = false ∧ s.loadOn Path.jtag = true ∧ s.failedIslands = [] ∧
      (s.forcedFull 17 = true ∨ 8 ≤ s.jtag.x17.length)) ∧
    (∃ (s : State), s.settled = true ∧ s.jtag.trstLow = false ∧ s.jtag.isc = true ∧ s.ldr.locks.getLsbD 0 = false ∧
      s.ldr.jtagDiscard = false ∧ s.forcedFull 17 = false ∧ s.ldr.load = none ∧ s.jtag.x17 = []) ∧
    (∃ (s : State), s.settled = true ∧ s.jtag.trstLow = false ∧ s.jtag.isc = true ∧ s.ldr.locks.getLsbD 0 = false ∧
      s.ldr.jtagDiscard = false ∧ s.forcedFull 17 = false ∧ s.loaderHeld Path.jtag = true ∧
      s.jtag.x17.length < 8) :=
  ⟨⟨st .service, by decide +kernel⟩,
   ⟨tapLoad, by decide +kernel⟩,
   ⟨inReset, Instr.jtagIdcode, by decide +kernel, by decide +kernel, .inl rfl⟩,
   ⟨st .service, by decide +kernel⟩,
   ⟨st .service, (0 : BitVec 8), by decide +kernel⟩,
   ⟨st .service, by decide +kernel⟩,
   ⟨locksAt 1, by decide +kernel⟩,
   ⟨st .service, by decide +kernel⟩,
   ⟨tapFull, by decide +kernel⟩,
   ⟨tapWords 8, by decide +kernel⟩,
   ⟨tapOn, by decide +kernel⟩,
   ⟨tapHeld, by decide +kernel⟩⟩

end D

namespace E
/-- frame n with its check word, but with other data than it was written with -/
def upset (n : Nat) (d : BitVec 2048) : Tab Frame := [(n, { data := d, check := checkWord (faddrOf n) 5 })]
def sweeping (p : Nat) (fr : Tab Frame := []) (isl : Tab Isl := []) (m : Mode := .run) : State :=
  { st m with tide := { enabled := true, position := p }, frames := fr, islands := isl }
def openIsl : Tab Isl := [(1, { loadState := .open })]
def checking : State := (st .run).modTide fun t => { t with checkAsked := true }
def testing : State := { st .test with ptu := { injIndex := 168 } }

theorem test_meets_Tide :
    (∃ (s : State) (i : Nat), s.settled = true ∧ s.tide.enabled = true ∧ s.inRun = true ∧ s.mode.trans = none ∧ s.tide.now = none ∧
      s.tide.burst = false ∧ s.tide.position < 8192 ∧ frameIsland s.tide.position = some i ∧
      (s.isl i).loadState = LoadState.open) ∧
    (∃ (s : State), s.settled = true ∧ s.tide.enabled = true ∧ s.inRun = true ∧ s.mode.trans = none ∧ s.tide.now = none ∧
      s.tide.burst = false ∧ s.tide.position < 8192 ∧ (s.findingOf s.tide.position).2 = Finding.clean) ∧
    (∃ (s : State), s.settled = true ∧ s.tide.enabled = true ∧ s.inRun = true ∧ s.mode.trans = none ∧ s.tide.now = none ∧
      s.tide.burst = false ∧ s.tide.position < 8192 ∧ (s.findingOf s.tide.position).2 ≠ Finding.clean ∧
      (s.findingOf s.tide.position).2.passes = true ∧
      (∀ (i : Nat), frameIsland s.tide.position = some i → (s.isl i).loadState ≠ LoadState.open) ∧
      (s.tide.position < 8064 → s.tide.position % 168 < 160) ∧
      (s.tide.position < 8160 ∨ ∀ (c : SynthId), (((s.modTide fun t ↦ { enabled := t.enabled, burst := t.burst, burstWait := t.burstWait, burstLeft := t.burstLeft, burstFirst := t.burstFirst, burstCycles := t.burstCycles, burstDenied := t.burstDenied, sweeps := if s.tide.position = 8191 then (t.sweeps + 1) % 65536 else t.sweeps, position := if s.tide.position = 8191 then 0 else s.tide.position + 1, period := t.period, corrected := t.corrected, uncorrectable := t.uncorrectable, mismatch := t.mismatch, lastFind := t.lastFind, checkAddr := t.checkAddr, checkValid := t.checkValid, checkAsked := t.checkAsked, checkWord := t.checkWord, queue := t.queue, now := t.now, rechecks := t.rechecks }).modTide fun t ↦ { enabled := t.enabled, burst := t.burst, burstWait := t.burstWait, burstLeft := t.burstLeft, burstFirst := t.burstFirst, burstCycles := t.burstCycles, burstDenied := t.burstDenied, sweeps := t.sweeps, position := t.position, period := t.period, corrected := min 4294967295 (t.corrected + 1), uncorrectable := t.uncorrectable, mismatch := t.mismatch, lastFind := lastFindOf s.tide.position (s.findingOf s.tide.position).1 (s.findingOf s.tide.position).2, checkAddr := t.checkAddr, checkValid := t.checkValid, checkAsked := t.checkAsked, checkWord := t.checkWord, queue := t.queue, now := t.now, rechecks := t.rechecks }).setFrame s.tide.position (have __src := s.frame s.tide.position; { data := secCorrect (s.findingOf s.tide.position).2 (s.frame s.tide.position).data, check := checkWord (faddrOf s.tide.position) (secCorrect (s.findingOf s.tide.position).2 (s.frame s.tide.position).data), logic := __src.logic })).synthSetup ↑c = s.synthSetup ↑c)) ∧
    (∃ (s : State), s.settled = true ∧ s.tide.enabled = true ∧ s.inRun = true ∧ s.mode.trans = none ∧ s.tide.now = none ∧
      s.tide.burst = false ∧ s.tide.position < 8192 ∧ (s.findingOf s.tide.position).2.passes = false ∧
      8064 ≤ s.tide.position ∧ s.forcedFull 13 = false) ∧
    (∃ (s : State), s.settled = true ∧ s.mode.mode ≠ Mode.reset ∧ s.mode.unlock = false ∧ s.x1Holds = false ∧
      s.tide.enabled = true ∧ s.tide.burst = false ∧ s.tide.burstWait = false) ∧
    (∃ (s : State), s.settled = true ∧ s.mode.mode ≠ Mode.reset ∧ s.mode.unlock = false ∧ s.x1Holds = false) ∧
    (∃ (s : State), s.settled = true ∧ s.mode.mode ≠ Mode.reset ∧ s.mode.unlock = false ∧ s.x1Holds = false ∧
      s.tide.checkAsked = true ∧ s.forcedFull 12 = false) ∧
    (∃ (s : State), s.settled = true ∧ s.mode.mode ≠ Mode.reset ∧ s.mode.unlock = false ∧ s.x1Holds = false ∧
      s.behind = [] ∧ s.outstanding Requester.keeper = false) ∧
    (∃ (s : State) (v : Word), s.settled = true ∧ s.mode.mode ≠ Mode.reset ∧ s.mode.unlock = false ∧ s.x1Holds = false ∧
      s.mode.mode = Mode.test ∧ s.ptu.injIndex < 8064 ∧ bitAt (BitVec.toNat v) 5 = false ∧
      (∀ (i : Nat), frameIsland s.ptu.injIndex = some i → (s.isl i).loadState ≠ LoadState.open ∧ s.repairOn i = false)) :=
  ⟨⟨sweeping 170 [] openIsl, (1 : Nat), by decide +kernel⟩,
   ⟨sweeping 170 [] openIsl, by decide +kernel⟩,
   ⟨sweeping 170 (upset 170 4), by and_intros <;> first | (intro _ h; cases h <;> decide +kernel) | decide +kernel⟩,
   ⟨sweeping 8100 (upset 8100 3), by decide +kernel⟩,
   ⟨sweeping 170 [] openIsl, by decide +kernel⟩,
   ⟨sweeping 170 [] openIsl, by decide +kernel⟩,
   ⟨checking, by decide +kernel⟩,
   ⟨sweeping 170 [] openIsl, by decide +kernel⟩,
   ⟨testing, (0 : Word), by and_intros <;> first | (intro _ h; cases h <;> decide +kernel) | decide +kernel⟩⟩

theorem test_meets_Quarantines :
    ∃ (i : Nat) (s : State), s.settled = true ∧ s.leave.queue = [] ∧ s.tide.enabled = true ∧ s.mode.mode = Mode.run ∧
      s.mode.trans = none ∧ s.tide.now = none ∧ s.tide.burst = false ∧
      frameIsland s.tide.position = some i ∧ (s.isl i).quarantined = false ∧
      (s.isl i).loadState ≠ LoadState.open ∧ (s.findingOf s.tide.position).2.passes = false :=
  ⟨(1 : Nat), sweeping 170 (upset 170 3), by decide +kernel⟩

def queued (isl : Tab Isl := []) (f : Bool := false) : State :=
  ({ st .run with islands := isl }.modTide fun t => { t with queue := [(.island 1, 170)] }).modMode fun m => { m with chainFirst := f }
def golden : State := { st .run with
  ldr := { copy := 1, golden := [(8, some { off := 0x100, faddr := 1024, words := 65 })] }
  flash := { cells := [(136, 1), (137, 0), (138, 0), (139, 0), (0x200, 15), (0x201, 114), (0x202, 48), (0x203, 151)] } }
def mending (r : Repair) (s : State) : State := s.modTide fun t => { t with now := some r }
def repair : Repair := { job := .island 1, frame := 168, first := 168 }
def answer : Repair := { repair with phase := .answer }
def recheck : Repair := { repair with phase := .recheck }
def inCopy : State := (st .run).modLdr fun l => { l with copy := 1 }
def quarantined (k : Bool) : State := { st .service with islands := [(1, { quarantine := true, quarantined := true, keep := k })] }
/-- In DEGRADED, the last quarantine with another seal reason. -/
def still : State := { st .degraded with islands := [(1, { quarantine := true, quarantined := true, flr := true })] }
theorem golden_record : (mending repair golden).goldenFrame 0 168 = .record (BitVec.allOnes 2048) := by
  unfold State.goldenFrame Flash.goldenWalk
  simp only [crc32c, crcMore_eq_run]
  decide +kernel
/-- Every frame of an island reads clean where none was written. -/
theorem cleared_clean (s : State) (h : s.frames = []) : ∀ k < 168, (s.findingOf (168 * 1 + k)).2 = .clean := by
  have c : secHc 0 = (0, false) := by decide +kernel
  have f : ∀ n, s.frame n = { data := 0, check := checkWord (faddrOf n) 0 } := fun n => by
    simp only [State.frame, h]; rfl
  simp only [State.findingOf, f, checkWord, secCheck, c]
  decide +kernel

theorem test_meets_Repairs :
    (∃ (i : IslandId) (n : Nat) (s : State) (rest : List (RepairJob × Nat)) (last : Nat) (middle : Nat) (first : Nat) (more : List Nat), s.settled = true ∧ s.inRun = true ∧ s.mode.trans = none ∧ s.tide.now = none ∧ s.tide.rechecks = [] ∧
      s.tide.queue = (RepairJob.island ↑i, n) :: rest ∧
      (s.isl ↑i).qtimes = last :: middle :: first :: more ∧ last - first < 60000000000) ∧
    (∃ (i : IslandId) (n : Nat) (s : State) (rest : List (RepairJob × Nat)), s.settled = true ∧ s.inRun = true ∧ s.mode.trans = none ∧ s.tide.now = none ∧ s.tide.rechecks = [] ∧
      s.tide.queue = (RepairJob.island ↑i, n) :: rest ∧ (s.isl ↑i).repeats = false ∧
      (s.isl ↑i).replaced = false ∧ s.mode.chainFirst = true) ∧
    (∃ (i : IslandId) (n : Nat) (s : State) (rest : List (RepairJob × Nat)), s.settled = true ∧ s.inRun = true ∧ s.mode.trans = none ∧ s.tide.now = none ∧ s.tide.rechecks = [] ∧
      s.tide.queue = (RepairJob.island ↑i, n) :: rest ∧ (s.isl ↑i).repeats = false ∧
      (s.isl ↑i).replaced = false ∧ s.mode.chainFirst = false) ∧
    (∃ (i : IslandId) (n : Nat) (s : State) (rest : List (RepairJob × Nat)), s.settled = true ∧ s.inRun = true ∧ s.mode.trans = none ∧ s.tide.now = none ∧ s.tide.rechecks = [] ∧
      s.tide.queue = (RepairJob.island ↑i, n) :: rest ∧ (s.isl ↑i).repeats = false ∧
      (s.isl ↑i).replaced = true) ∧
    (∃ (i : IslandId) (s : State) (r : Repair), s.settled = true ∧ s.tide.now = some r ∧ r.job = RepairJob.island ↑i ∧
      (s.flash.holdsRead = true ∨ s.mode.mode = Mode.wake)) ∧
    (∃ (i : IslandId) (s : State) (r : Repair), s.settled = true ∧ s.tide.now = some r ∧ r.job = RepairJob.island ↑i ∧ r.phase = RepairPhase.golden ∧
      s.mode.mode.executes = true ∧ s.flash.holdsRead = false ∧ s.forcedFull 11 = false ∧
      s.forcedFull 14 = false ∧
      (s.goldenFrame s.ldr.chainIndex r.frame = GoldenResult.lost ∨ ∃ d c, s.goldenFrame s.ldr.chainIndex r.frame = GoldenResult.corrupt d c)) ∧
    (∃ (i : IslandId) (s : State) (r : Repair), s.settled = true ∧ s.tide.now = some r ∧ r.job = RepairJob.island ↑i ∧ r.phase = RepairPhase.golden ∧
      s.mode.mode.executes = true ∧ s.flash.holdsRead = false ∧ s.forcedFull 11 = false ∧
      s.forcedFull 14 = false ∧ s.goldenFrame s.ldr.chainIndex r.frame = GoldenResult.absent) ∧
    (∃ (i : IslandId) (s : State) (r : Repair) (data : BitVec 2048), s.settled = true ∧ s.tide.now = some r ∧ r.job = RepairJob.island ↑i ∧ r.phase = RepairPhase.golden ∧
      s.mode.mode.executes = true ∧ s.flash.holdsRead = false ∧ s.forcedFull 11 = false ∧
      s.forcedFull 14 = false ∧ s.goldenFrame s.ldr.chainIndex r.frame = GoldenResult.record data) ∧
    (∃ (i : IslandId) (s : State) (r : Repair), s.settled = true ∧ s.tide.now = some r ∧ r.job = RepairJob.island ↑i ∧ r.phase = RepairPhase.answer) ∧
    (∃ (i : IslandId) (r : Repair) (s : State), s.settled = true ∧ s.mode.mode.executes = true ∧ s.mode.trans = none ∧ s.tide.now = some r ∧
      r.job = RepairJob.island ↑i ∧ r.phase = RepairPhase.recheck ∧ r.afterLoad = false ∧ r.place ≤ 167 ∧
      (∀ (k : Nat), r.place ≤ k → k < 168 → (s.findingOf (168 * ↑i + k)).2 = Finding.clean) ∧
      (s.isl ↑i).keep = true) ∧
    (∃ (i : IslandId) (r : Repair) (s : State), s.settled = true ∧ s.mode.mode.executes = true ∧ s.mode.trans = none ∧ s.tide.now = some r ∧
      r.job = RepairJob.island ↑i ∧ r.phase = RepairPhase.recheck ∧ r.afterLoad = false ∧ r.place ≤ 167 ∧
      (∀ (k : Nat), r.place ≤ k → k < 168 → (s.findingOf (168 * ↑i + k)).2 = Finding.clean) ∧
      (s.isl ↑i).keep = false ∧ (s.isl ↑i).quarantine = true ∧ (s.isl ↑i).quarantined = true ∧
      ((s.isl ↑i).command = true ∨ (s.isl ↑i).load = true ∨ (s.isl ↑i).flr = true ∨ (s.isl ↑i).hold = true)) ∧
    (∃ (i : IslandId) (r : Repair) (s : State), s.settled = true ∧ s.mode.mode.executes = true ∧ s.mode.trans = none ∧ s.tide.now = some r ∧
      r.job = RepairJob.island ↑i ∧ r.phase = RepairPhase.recheck ∧ r.afterLoad = false ∧ r.place ≤ 167 ∧
      (∀ (k : Nat), r.place ≤ k → k < 168 → (s.findingOf (168 * ↑i + k)).2 = Finding.clean) ∧
      (s.isl ↑i).keep = false ∧ (s.isl ↑i).quarantine = true ∧ (s.isl ↑i).command = false ∧
      (s.isl ↑i).load = false ∧ (s.isl ↑i).flr = false ∧ (s.isl ↑i).hold = false ∧ (s.isl ↑i).release = none) :=
  ⟨⟨(1 : IslandId), (170 : Nat), queued [(1, { qtimes := [3, 2, 1] })], ([] : List (RepairJob × Nat)), 3, 2, 1, ([] : List Nat), by decide +kernel⟩,
   ⟨(1 : IslandId), (170 : Nat), queued [] true, ([] : List (RepairJob × Nat)), by decide +kernel⟩,
   ⟨(1 : IslandId), (170 : Nat), queued, ([] : List (RepairJob × Nat)), by decide +kernel⟩,
   ⟨(1 : IslandId), (170 : Nat), queued [(1, { replaced := true })], ([] : List (RepairJob × Nat)), by decide +kernel⟩,
   ⟨(1 : IslandId), mending repair { inCopy with flash := { busy := some { op := .read, addr := 0, len := 1 } } }, repair, by decide +kernel⟩,
   ⟨(1 : IslandId), mending repair (st .run), repair, by decide +kernel⟩,
   ⟨(1 : IslandId), mending repair inCopy, repair, by decide +kernel⟩,
   ⟨(1 : IslandId), mending repair golden, repair, BitVec.allOnes 2048, by decide +kernel, by decide +kernel, by decide +kernel, by decide +kernel, by decide +kernel, by decide +kernel, by decide +kernel, by decide +kernel, golden_record⟩,
   ⟨(1 : IslandId), mending answer (st .run), answer, by decide +kernel⟩,
   ⟨(1 : IslandId), recheck, mending recheck (quarantined true), by decide +kernel, by decide +kernel, by decide +kernel, by decide +kernel, by decide +kernel, by decide +kernel, by decide +kernel, by decide +kernel, (fun k _ hk => cleared_clean _ rfl k hk), by decide +kernel⟩,
   ⟨(1 : IslandId), recheck, mending recheck still, by decide +kernel, by decide +kernel, by decide +kernel, by decide +kernel, by decide +kernel, by decide +kernel, by decide +kernel, by decide +kernel, (fun k _ hk => cleared_clean _ rfl k hk), by decide +kernel, by decide +kernel, by decide +kernel, by decide +kernel⟩,
   ⟨(1 : IslandId), recheck, mending recheck (quarantined false), by decide +kernel, by decide +kernel, by decide +kernel, by decide +kernel, by decide +kernel, by decide +kernel, by decide +kernel, by decide +kernel, (fun k _ hk => cleared_clean _ rfl k hk), by decide +kernel, by decide +kernel, by decide +kernel, by decide +kernel, by decide +kernel, by decide +kernel, by decide +kernel⟩⟩

def chainJob (k : Nat) : Repair := { repair with job := .chain 1024 k }
/-- The golden record with another CRC. -/
def spoilt : State := { golden with flash := { cells := (136, 1) :: (golden.flash.cells.drop 1).filter (·.1 != 0x200) } }
theorem golden_spoilt : (mending (chainJob 0) spoilt).goldenFrame 0 168 = .corrupt (BitVec.allOnes 2048) 0x973072FF := by
  unfold State.goldenFrame Flash.goldenWalk
  simp only [crc32c, crcMore_eq_run]
  decide +kernel
def sent : State := (mending (chainJob 0) { golden with mode := { golden.mode with chainFirst := true } }).modChain fun c => { c with credits := 1 }
theorem golden_chain : (mending (chainJob 0) golden).goldenFrame 0 168 = .record (BitVec.allOnes 2048) := by
  unfold State.goldenFrame Flash.goldenWalk
  simp only [crc32c, crcMore_eq_run]
  decide +kernel
theorem golden_sent : sent.goldenFrame 0 168 = .record (BitVec.allOnes 2048) := by
  unfold State.goldenFrame Flash.goldenWalk
  simp only [crc32c, crcMore_eq_run]
  decide +kernel
/-- REPAIR_DATA for frame 1024 with a record of ones, and its CRC or another. -/
def ones (crc sum : Word) : List Word := [4327077, 1024] ++ List.replicate 64 1 ++ [crc, sum]
def goodOnes : List Word := ones 808720033 3327251887
def badOnes : List Word := ones 3 1669831401
def zeros : List Word := [4327077, 525312] ++ List.replicate 65 0 ++ [2543103804]

theorem test_meets_RepairTraffic :
    (∃ (r : Repair) (s : State) (a : Nat) (k : Nat), s.settled = true ∧ s.tide.now = some r ∧ r.job = RepairJob.chain a k ∧ s.flash.holdsRead = false ∧
      s.forcedFull 14 = false ∧ s.goldenFrame k r.frame = GoldenResult.lost) ∧
    (∃ (r : Repair) (s : State) (a : Nat) (k : Nat) (data : BitVec 2048) (crc : Word), s.settled = true ∧ s.tide.now = some r ∧ r.job = RepairJob.chain a k ∧ s.flash.holdsRead = false ∧
      s.forcedFull 14 = false ∧ s.goldenFrame k r.frame = GoldenResult.corrupt data crc ∧
      s.chain.credits = 0) ∧
    (∃ (r : Repair) (s : State) (a : Nat) (k : Nat) (data : BitVec 2048), s.settled = true ∧ s.tide.now = some r ∧ r.job = RepairJob.chain a k ∧ s.flash.holdsRead = false ∧
      s.forcedFull 14 = false ∧ s.goldenFrame k r.frame = GoldenResult.record data ∧ s.chain.credits = 0) ∧
    (∃ (r : Repair) (s : State) (a : Nat) (k : Nat) (data : BitVec 2048), s.settled = true ∧ s.tide.now = some r ∧ r.job = RepairJob.chain a k ∧ s.flash.holdsRead = false ∧
      s.forcedFull 14 = false ∧ s.goldenFrame k r.frame = GoldenResult.record data ∧
      s.mode.chainFirst = true ∧ s.chain.credits ≠ 0 ∧ s.chain.txq = []) ∧
    (∃ (r : Repair) (s : State) (a : Nat) (k : Nat), s.settled = true ∧ s.tide.now = some r ∧ r.job = RepairJob.chain a k ∧ s.flash.holdsRead = false ∧
      s.forcedFull 14 = false ∧ s.goldenFrame k r.frame = GoldenResult.absent ∧ s.chain.credits = 0) ∧
    (∃ (frame : List Word) (r : Repair) (s : State) (i : IslandId), s.settled = true ∧ s.tide.now = some r ∧ r.job = RepairJob.island ↑i ∧ r.phase = RepairPhase.answer ∧
      s.inRun = true ∧ s.mode.chainFirst = false ∧
      field (wordAt (framePayload frame) 0) 0 16 = faddrOf r.frame ∧
      field (wordAt (framePayload frame) 0) 16 3 = s.ldr.chainIndex ∧ frameType frame = 6 ∧
      frameError true s.chain.rxUp frame false = none ∧ bitAt (wordAt (framePayload frame) 0) 19 = true) ∧
    (∃ (frame : List Word) (r : Repair) (s : State) (i : IslandId), s.settled = true ∧ s.tide.now = some r ∧ r.job = RepairJob.island ↑i ∧ r.phase = RepairPhase.answer ∧
      s.inRun = true ∧ s.mode.chainFirst = false ∧
      field (wordAt (framePayload frame) 0) 0 16 = faddrOf r.frame ∧
      field (wordAt (framePayload frame) 0) 16 3 = s.ldr.chainIndex ∧ frameType frame = 6 ∧
      frameError true s.chain.rxUp frame false = none ∧ bitAt (wordAt (framePayload frame) 0) 19 = false ∧
      recordCrc (field (wordAt (framePayload frame) 0) 0 16) (List.take 64 (List.drop 1 (framePayload frame))) = (framePayload frame).getD 65 0) ∧
    (∃ (frame : List Word) (r : Repair) (s : State) (i : IslandId), s.settled = true ∧ s.tide.now = some r ∧ r.job = RepairJob.island ↑i ∧ r.phase = RepairPhase.answer ∧
      s.inRun = true ∧ s.mode.chainFirst = false ∧
      field (wordAt (framePayload frame) 0) 0 16 = faddrOf r.frame ∧
      field (wordAt (framePayload frame) 0) 16 3 = s.ldr.chainIndex ∧ frameType frame = 6 ∧
      frameError true s.chain.rxUp frame false = none ∧ bitAt (wordAt (framePayload frame) 0) 19 = false ∧
      recordCrc (field (wordAt (framePayload frame) 0) 0 16) (List.take 64 (List.drop 1 (framePayload frame))) ≠ (framePayload frame).getD 65 0) ∧
    (∃ (frame : List Word) (r : Repair) (s : State) (i : IslandId) (overflow : Bool), s.settled = true ∧ s.tide.now = some r ∧ r.job = RepairJob.island ↑i ∧ r.phase = RepairPhase.answer ∧
      s.inRun = true ∧ s.mode.chainFirst = false ∧
      (frameError true s.chain.rxUp frame overflow).isSome = true) :=
  ⟨⟨chainJob 0, mending (chainJob 0) (st .run), (1024 : Nat), 0, by decide +kernel⟩,
   ⟨chainJob 0, mending (chainJob 0) spoilt, (1024 : Nat), 0, BitVec.allOnes 2048, (0x973072FF : Word), by decide +kernel, by decide +kernel, by decide +kernel, by decide +kernel, by decide +kernel, golden_spoilt, by decide +kernel⟩,
   ⟨chainJob 0, mending (chainJob 0) golden, (1024 : Nat), 0, BitVec.allOnes 2048, by decide +kernel, by decide +kernel, by decide +kernel, by decide +kernel, by decide +kernel, golden_chain, by decide +kernel⟩,
   ⟨chainJob 0, sent, (1024 : Nat), 0, BitVec.allOnes 2048, by decide +kernel, by decide +kernel, by decide +kernel, by decide +kernel, by decide +kernel, golden_sent, by decide +kernel, by decide +kernel, by decide +kernel⟩,
   ⟨chainJob 3, mending (chainJob 3) golden, (1024 : Nat), 3, by decide +kernel⟩,
   ⟨zeros, answer, mending answer (st .run), (1 : IslandId), by simp only [frameError, recordCrc, crc32c, crcMore_eq_run]; decide +kernel⟩,
   ⟨goodOnes, answer, mending answer (st .run), (1 : IslandId), by simp only [frameError, recordCrc, crc32c, crcMore_eq_run]; decide +kernel⟩,
   ⟨badOnes, answer, mending answer (st .run), (1 : IslandId), by simp only [frameError, recordCrc, crc32c, crcMore_eq_run]; decide +kernel⟩,
   ⟨zeros, answer, mending answer (st .run), (1 : IslandId), true, by simp only [frameError, recordCrc, crc32c, crcMore_eq_run]; decide +kernel⟩⟩

def release : Release := { mech := .loadDone, granted := true }
def byOwner : Release := { mech := .instruction, granted := true, rings := [2] }
def byRepair : Release := { release with mech := .repairEnd }
def owned (rel : Release) (x : Isl) : State := { st .degraded with
  islands := [(1, { x with release := some rel })], threads := [(2, { wait := .release 1, cur := some { words := [0], pos := 0 } })] }
def releasing (f : Bool) : State := ({ st .run with islands := [(1, { load := true, loadState := .complete, release := some release })], banks := [(1, { present := true })] }).modMode fun m => { m with frozen := f }
theorem test_releases : ∃ (i : IslandId) (a b : Release) (s u : State),
    (s.settled = true ∧ s.inRun = true ∧ s.mode.trans = none ∧ (s.isl i).release = some a ∧ a.granted = true ∧
      (∀ r ∈ a.rings, ownedBy (s.islandOwner i) (ringTenant r) = true) ∧ a.mech = .instruction ∧ a.rings ≠ []) ∧
    (u.settled = true ∧ u.inRun = true ∧ u.mode.trans = none ∧ (u.isl i).release = some b ∧ b.granted = true ∧
      b.mech = .repairEnd ∧ (u.isl i).quarantine = true ∧ (u.isl i).healed = true ∧ (u.isl i).sealed = true) :=
  ⟨1, byOwner, byRepair, owned byOwner { command := true, hold := true },
    owned byRepair { quarantine := true, quarantined := true, healed := true }, by decide +kernel⟩

theorem test_meets_ReleaseEnds :
    (∃ (i : IslandId) (rel : Release) (s : State), s.settled = true ∧ s.leave.queue = [] ∧ s.inRun = true ∧ s.mode.trans = none ∧
      (s.isl ↑i).release = some rel ∧ rel.granted = true ∧ s.mode.frozen = true) ∧
    (∃ (i : IslandId) (rel : Release) (s : State), s.settled = true ∧ s.leave.queue = [] ∧ s.inRun = true ∧ s.mode.trans = none ∧
      (s.isl ↑i).release = some rel ∧ rel.granted = true ∧ s.mode.frozen = false ∧
      ((s.isl ↑i).loadState = LoadState.none ∨ (s.isl ↑i).loadState = LoadState.complete) ∧
      ((s.isl ↑i).load = true → s.fullLoading = false) ∧
      ((s.isl ↑i).quarantine = true → (s.isl ↑i).healed = true) ∧
      (∀ r ∈ rel.rings, ownedBy (s.islandOwner ↑i) (ringTenant r) = true) ∧
      (rel.mech = Mechanism.loadDone ∧ (s.isl ↑i).command = false ∧ (s.isl ↑i).flr = false ∧ (s.isl ↑i).hold = false ∧ (s.isl ↑i).quarantine = false ∨ rel.mech = Mechanism.repairEnd ∧ (s.isl ↑i).command = false ∧ (s.isl ↑i).flr = false ∧ (s.isl ↑i).hold = false ∧ (s.isl ↑i).load = false ∨ rel.mech = Mechanism.instruction ∧ rel.rings ≠ [])) :=
  ⟨⟨(1 : IslandId), release, releasing true, by decide +kernel⟩,
   ⟨(1 : IslandId), release, releasing false, by decide +kernel⟩⟩

def bankWith (b : Bank) (m : Mode) (v : Nat) : State := { st m with banks := [(1, b)], frames := [(168 + 165, { data := BitVec.ofNat 2048 v })] }
def leased (s : State) : State := s.modLeave fun l => { l with leases := [{ handle := 4, who := .bank 1, cost := 9 }, { handle := 5, who := .wake, cost := 9 }] }

theorem test_meets_BankSamples :
    (∃ (b : IslandId) (s : State), s.settled = true ∧ s.mode.mode ≠ Mode.reset ∧ (s.bankVcco ↑b = 0 ∨ 6 ≤ s.bankVcco ↑b) ∧
      s.leave.queue = []) ∧
    (∃ (b : IslandId) (c : Fin 7) (s : State), s.settled = true ∧ s.mode.mode ≠ Mode.reset ∧ 1 ≤ s.bankVcco ↑b ∧ s.bankVcco ↑b ≤ 5 ∧
      (s.bank ↑b).present = true ∧ s.bankVcco ↑b = ↑c) ∧
    (∃ (b : IslandId) (c : Fin 7) (s : State), s.settled = true ∧ s.mode.mode ≠ Mode.reset ∧ 1 ≤ s.bankVcco ↑b ∧ s.bankVcco ↑b ≤ 5 ∧
      (s.bank ↑b).present = true ∧ s.bankVcco ↑b ≠ ↑c ∧ (s.bank ↑b).outRow < 3) ∧
    (∃ (b : IslandId) (c : Fin 7) (s : State), s.settled = true ∧ s.mode.mode ≠ Mode.reset ∧ 1 ≤ s.bankVcco ↑b ∧ s.bankVcco ↑b ≤ 5 ∧
      (s.bank ↑b).present = true ∧ s.bankVcco ↑b ≠ ↑c ∧ 3 ≤ (s.bank ↑b).outRow ∧ s.leave.queue = []) ∧
    (∃ (b : IslandId) (c : Fin 7) (s : State), s.settled = true ∧ s.mode.mode ≠ Mode.reset ∧ 1 ≤ s.bankVcco ↑b ∧ s.bankVcco ↑b ≤ 5 ∧
      (s.bank ↑b).present = false ∧ s.bankVcco ↑b ≠ ↑c) ∧
    (∃ (b : IslandId) (c : Fin 7) (s : State), s.settled = true ∧ s.mode.mode ≠ Mode.reset ∧ 1 ≤ s.bankVcco ↑b ∧ s.bankVcco ↑b ≤ 5 ∧
      (s.bank ↑b).present = false ∧ s.bankVcco ↑b = ↑c ∧ (s.bank ↑b).inRow < 7) ∧
    (∃ (b : IslandId) (c : Fin 7) (s : State), s.settled = true ∧ s.mode.mode ≠ Mode.reset ∧ 1 ≤ s.bankVcco ↑b ∧ s.bankVcco ↑b ≤ 5 ∧
      (s.bank ↑b).present = false ∧ s.bankVcco ↑b = ↑c ∧ 7 ≤ (s.bank ↑b).inRow ∧
      s.mode.mode.executes = false) ∧
    (∃ (b : IslandId) (c : Fin 7) (s : State), s.settled = true ∧ s.mode.mode ≠ Mode.reset ∧ 1 ≤ s.bankVcco ↑b ∧ s.bankVcco ↑b ≤ 5 ∧
      (s.bank ↑b).present = false ∧ s.bankVcco ↑b = ↑c ∧ 7 ≤ (s.bank ↑b).inRow ∧
      s.mode.mode.executes = true ∧ (s.bank ↑b).enabled = false ∧ (s.bank ↑b).asking = false ∧
      s.bankLease ↑b = false) ∧
    (∃ (b : IslandId) (c : Fin 7) (s : State), s.settled = true ∧ s.mode.mode ≠ Mode.reset ∧ 1 ≤ s.bankVcco ↑b ∧ s.bankVcco ↑b ≤ 5 ∧
      (s.bank ↑b).present = false ∧ s.bankVcco ↑b = ↑c ∧ 7 ≤ (s.bank ↑b).inRow ∧
      s.mode.mode.executes = true ∧ (s.bank ↑b).enabled = false ∧ (s.bank ↑b).asking = false ∧
      s.bankLease ↑b = true ∧ s.executing = true) ∧
    (∃ (b : IslandId) (s : State), s.settled = true ∧ s.mode.mode ≠ Mode.reset ∧ (s.bank ↑b).retry = true ∧ s.bankPresent ↑b = true ∧
      (s.bank ↑b).enabled = false ∧ (s.bank ↑b).asking = false ∧ s.mode.mode.executes = true ∧
      s.bankLease ↑b = false) ∧
    (∃ (b : IslandId) (s : State), s.settled = true ∧ s.mode.mode ≠ Mode.reset ∧ (s.bank ↑b).retry = true ∧ s.bankPresent ↑b = true ∧
      (s.bank ↑b).enabled = false ∧ (s.bank ↑b).asking = false ∧ s.mode.mode.executes = true ∧
      s.bankLease ↑b = true ∧ s.executing = true) :=
  ⟨⟨(1 : IslandId), bankWith {} .run 0, by decide +kernel⟩,
   ⟨(1 : IslandId), 1, leased (bankWith { present := true, retry := true } .run 1), by decide +kernel⟩,
   ⟨(1 : IslandId), (0 : Fin 7), leased (bankWith { present := true, retry := true } .run 1), by decide +kernel⟩,
   ⟨(1 : IslandId), (0 : Fin 7), bankWith { present := true, outRow := 3 } .run 1, by decide +kernel⟩,
   ⟨(1 : IslandId), (0 : Fin 7), leased (bankWith { inRow := 7 } .run 1), by decide +kernel⟩,
   ⟨(1 : IslandId), 1, bankWith {} .run 1, by decide +kernel⟩,
   ⟨(1 : IslandId), 1, bankWith { inRow := 7 } .hold 1, by decide +kernel⟩,
   ⟨(1 : IslandId), 1, bankWith { inRow := 7 } .run 1, by decide +kernel⟩,
   ⟨(1 : IslandId), 1, leased (bankWith { inRow := 7 } .run 1), by decide +kernel⟩,
   ⟨(1 : IslandId), bankWith { present := true, retry := true } .run 1, by decide +kernel⟩,
   ⟨(1 : IslandId), leased (bankWith { present := true, retry := true } .run 1), by decide +kernel⟩⟩

def ask : LeaveReq := { who := .island 1, cost := 10, prio := 1, duration := 9, timeout := 8 }
def held : LeaveReq := { ask with held := true }
def leave (f : Leave → Leave) (m : Mode := .run) : State := (st m).modLeave f
def ending : State := leave fun l => { l with leases := [{ handle := 3, who := .wake, cost := 4, ending := true }] }

theorem test_meets_Leases :
    (∃ (i : IslandId) (q : LeaveReq) (s : State), s.settled = true ∧ s.inRun = true ∧ q.who = Asker.island ↑i ∧ q.cost ≠ 0 ∧ s.leave.queue = [] ∧
      s.leave.arriving = [q] ∧ s.leave.budget < s.leave.floor + q.cost) ∧
    (∃ (i : IslandId) (q : LeaveReq) (s : State), s.settled = true ∧ s.inRun = true ∧ q.who = Asker.island ↑i ∧ q.cost ≠ 0 ∧ s.leave.queue = [] ∧
      s.leave.arriving = [q] ∧ s.leave.floor + s.leave.reserved + q.cost ≤ s.leave.budget ∧
      s.leave.measured + s.leave.inTransient + q.cost ≤ s.leave.budget ∧ s.leave.overBudget = false ∧
      s.leave.leases.length < 256 ∧ s.leave.warnStop = false) ∧
    (∃ (i : IslandId) (q : LeaveReq) (s : State), s.settled = true ∧ s.inRun = true ∧ q.who = Asker.island ↑i ∧ q.cost ≠ 0 ∧ s.leave.queue = [] ∧
      s.leave.arriving = [q] ∧ s.leave.floor + q.cost ≤ s.leave.budget ∧ s.admits q.cost = false) ∧
    (∃ (i : IslandId) (q : LeaveReq) (s : State), s.settled = true ∧ s.inRun = true ∧ q.who = Asker.island ↑i ∧ q.cost ≠ 0 ∧ s.leave.queue = [q]) ∧
    (∃ (h : Nat) (s : State), s.settled = true ∧ s.mode.unlock = false ∧ s.leave.queue = [] ∧
      ((s.leave.leases.any fun x ↦ x.handle == h && x.ending) = true)) ∧
    (∃ (s : State), s.settled = true ∧ s.mode.unlock = false ∧ s.leave.queue = [] ∧
      (s.mode.mode ≠ Mode.wake ∨ 2 ≤ (List.filter (fun x ↦ x.who == Asker.wake) s.leave.leases).length)) ∧
    (∃ (s : State), s.settled = true ∧ s.mode.unlock = false ∧ s.leave.queue = [] ∧ s.mode.mode = Mode.wake ∧
      ((List.filter (fun x ↦ x.who == Asker.wake) s.leave.leases).length ≤ 1)) ∧
    (∃ (s : State), s.settled = true ∧ s.mode.unlock = false ∧ s.leave.queue = [] ∧ s.mode.mode ≠ Mode.reset ∧
      s.x1Holds = false) ∧
    (∃ (s : State) (q : LeaveReq), s.settled = true ∧ s.mode.unlock = false ∧ s.leave.queue = [q] ∧ q.held = true ∧ q.cost ≠ 0 ∧
      s.admits q.cost = false) :=
  ⟨⟨(1 : IslandId), ask, leave fun l => { l with arriving := [ask], floor := 2995 }, by decide +kernel⟩,
   ⟨(1 : IslandId), ask, leave fun l => { l with arriving := [ask] }, by decide +kernel⟩,
   ⟨(1 : IslandId), ask, leave fun l => { l with arriving := [ask], measured := 2995 }, by decide +kernel⟩,
   ⟨(1 : IslandId), ask, leave fun l => { l with queue := [ask] }, by decide +kernel⟩,
   ⟨(3 : Nat), ending, by decide +kernel⟩,
   ⟨leave fun l => { l with arriving := [ask], floor := 2995 }, by decide +kernel⟩,
   ⟨leave (fun l => { l with leases := [{ handle := 3, who := .wake, cost := 4 }] }) .wake, by decide +kernel⟩,
   ⟨leave fun l => { l with arriving := [ask], floor := 2995 }, by decide +kernel⟩,
   ⟨leave fun l => { l with queue := [held], measured := 2995 }, held, by decide +kernel⟩⟩

def overOn (f : Leave → Leave) : State := leave fun l => f { l with overBudget := true, overRun := 3 }
def warm (f : Thermal → Thermal) : State := leave fun l => { l with temp := f l.temp }

theorem test_meets_Monitors :
    (∃ (s : State) (units : Nat), s.settled = true ∧ s.mode.mode ≠ Mode.reset ∧ s.leave.queue = [] ∧ s.leave.overBudget = false ∧
      units ≤ s.leave.budget) ∧
    (∃ (s : State) (units : Nat), s.settled = true ∧ s.mode.mode ≠ Mode.reset ∧ s.leave.queue = [] ∧ s.leave.overBudget = false ∧
      s.leave.budget < units ∧ s.leave.overRun < 2) ∧
    (∃ (s : State) (units : Nat), s.settled = true ∧ s.mode.mode ≠ Mode.reset ∧ s.leave.queue = [] ∧ s.leave.overBudget = false ∧
      s.leave.budget < units ∧ 2 ≤ s.leave.overRun) ∧
    (∃ (s : State) (units : Nat), s.settled = true ∧ s.mode.mode ≠ Mode.reset ∧ s.leave.queue = [] ∧ s.leave.overBudget = true ∧
      s.leave.budget - 100 < units) ∧
    (∃ (s : State) (units : Nat), s.settled = true ∧ s.mode.mode ≠ Mode.reset ∧ s.leave.queue = [] ∧ s.leave.overBudget = true ∧
      units ≤ s.leave.budget - 100 ∧ s.leave.okRun < 99) ∧
    (∃ (s : State) (units : Nat), s.settled = true ∧ s.mode.mode ≠ Mode.reset ∧ s.leave.queue = [] ∧ s.leave.overBudget = true ∧
      units ≤ s.leave.budget - 100 ∧ 99 ≤ s.leave.okRun) ∧
    (∃ (s : State) (j : Int), s.settled = true ∧ s.mode.mode ≠ Mode.reset ∧ s.leave.queue = [] ∧ s.leave.temp.excluded = 0 ∧
      j < 4 * ↑s.leave.warnTh ∧ j < 500 ∧ s.leave.temp.warn = false) ∧
    (∃ (s : State) (j : Int), s.settled = true ∧ s.mode.mode ≠ Mode.reset ∧ s.leave.queue = [] ∧ s.leave.temp.excluded = 0 ∧
      4 * ↑s.leave.warnTh ≤ j ∧ j < 500 ∧ s.leave.temp.warn = false ∧ s.leave.temp.warnRun < 9) ∧
    (∃ (s : State) (j : Int), s.settled = true ∧ s.mode.mode ≠ Mode.reset ∧ s.leave.queue = [] ∧ s.leave.temp.excluded = 0 ∧
      j < 500 ∧ s.leave.temp.warn = true ∧ 4 * (↑s.leave.warnTh - 5) ≤ j) ∧
    (∃ (s : State) (j : Int), s.settled = true ∧ s.mode.mode ≠ Mode.reset ∧ s.leave.queue = [] ∧ s.leave.temp.excluded = 0 ∧
      j < 500 ∧ s.leave.temp.warn = true ∧ j < 4 * (↑s.leave.warnTh - 5) ∧ s.leave.temp.coolRun < 99) ∧
    (∃ (s : State) (j : Int), s.settled = true ∧ s.mode.mode ≠ Mode.reset ∧ s.leave.queue = [] ∧ s.leave.temp.excluded = 0 ∧
      j < 500 ∧ s.leave.temp.warn = true ∧ j < 4 * (↑s.leave.warnTh - 5) ∧ 99 ≤ s.leave.temp.coolRun) ∧
    (∃ (s : State) (j : Int), s.settled = true ∧ s.mode.mode ≠ Mode.reset ∧ s.leave.queue = [] ∧ s.leave.temp.excluded = 0 ∧
      500 ≤ j ∧ s.leave.temp.critRun ≠ 1) ∧
    (∃ (s : State) (j : Int), s.settled = true ∧ s.mode.mode ≠ Mode.reset ∧ s.leave.queue = [] ∧ s.leave.temp.excluded = 0 ∧
      4 * ↑s.leave.warnTh ≤ j ∧ j < 500 ∧ s.leave.temp.warn = false ∧ s.leave.temp.warnRun = 9) ∧
    (∃ (s : State) (j : Int), s.settled = true ∧ s.mode.mode ≠ Mode.reset ∧ s.leave.queue = [] ∧ s.leave.temp.excluded = 0 ∧
      500 ≤ j ∧ s.leave.temp.critRun = 1 ∧ s.mode.mode = Mode.run ∧ s.mode.trans = none) ∧
    (∃ (s : State), s.settled = true ∧ s.mode.mode ≠ Mode.reset ∧ s.leave.queue = [] ∧ s.leave.temp.excluded = 0) ∧
    (∃ (s : State), s.settled = true ∧ s.mode.mode ≠ Mode.reset ∧ s.leave.queue = [] ∧
      ((List.filter (fun k ↦ !s.leave.temp.excluded.getLsbD k) (List.range 8)).length < 4)) :=
  ⟨⟨leave id, (7 : Nat), by decide +kernel⟩,
   ⟨leave id, 3500, by decide +kernel⟩,
   ⟨leave fun l => { l with overRun := 2 }, 3500, by decide +kernel⟩,
   ⟨overOn id, 3500, by decide +kernel⟩,
   ⟨overOn id, (7 : Nat), by decide +kernel⟩,
   ⟨overOn fun l => { l with okRun := 99 }, (7 : Nat), by decide +kernel⟩,
   ⟨leave id, (0 : Int), by decide +kernel⟩,
   ⟨leave id, 496, by decide +kernel⟩,
   ⟨warm fun t => { t with warn := true }, 496, by decide +kernel⟩,
   ⟨warm fun t => { t with warn := true }, (0 : Int), by decide +kernel⟩,
   ⟨warm fun t => { t with warn := true, coolRun := 99 }, (0 : Int), by decide +kernel⟩,
   ⟨leave id, 500, by decide +kernel⟩,
   ⟨warm fun t => { t with warnRun := 9 }, 496, by decide +kernel⟩,
   ⟨warm fun t => { t with critRun := 1 }, 500, by decide +kernel⟩,
   ⟨leave id, by decide +kernel⟩,
   ⟨warm fun t => { t with excluded := 31 }, by decide +kernel⟩⟩

end E

namespace L
def shown (s : State) : State := s.modMode fun m => { m with mirror := s.supMode % 2 ^ 13 }
def entry (q t : Nat) : LogEntry := { time := 1, seq := q, code := 5, sev := 0, tenant := t, payload := [], epoch := 0, born := 0 }
def logWith (x : LogView) : State :=
  { st .run with link := { up := true }, fns := [(1, { mse := true })]
                 log := { slots := [(0, some (entry 0 2)), (1, some (entry 1 1))], next := 2, kept := 2, views := [(1, x)] } }
def search (n : Nat) : LogView := { searching := true, from_ := 0, span := n }
def degrading : State := (st .run).modMode fun m => { m with trans := some { id := 8, target := .degraded } }

theorem test_meets_Logbook :
    (∃ (x : Machine.Trans) (s : State), s.settled = true ∧ s.leave.queue = [] ∧ s.mode.trans = some x ∧
      (6 ≤ x.id ∧ x.id ≤ 11 ∨ x.id = 14 ∨ x.id = 16 ∧ s.mode.mode ≠ Mode.test) ∧ x.target ≠ Mode.reset ∧
      x.target ≠ Mode.load ∧ x.target ≠ Mode.wake ∧ s.log.policy = false ∧ s.log.lost = 0) ∧
    (∃ (s : State), s.settled = true ∧ s.shows = true ∧ s.mode.mode = Mode.run ∧ s.mode.trans = none ∧ s.x1Holds = false ∧
      s.mode.unlock = false ∧ s.log.policy = false ∧ s.log.recent = [] ∧ s.log.lost = 0) ∧
    (∃ (q : TenantId) (v : Word) (s : State), s.settled = true ∧ s.mode.mode ≠ Mode.reset ∧ s.mode.unlock = false ∧ s.reachable ↑q = true ∧
      2 ^ 31 ≤ dist32 (BitVec.toNat v) s.log.next ∧ dist32 s.log.next (BitVec.toNat v) ≤ s.log.kept) ∧
    (∃ (q : TenantId) (s : State) (k : Nat) (e : LogEntry), s.settled = true ∧ s.mode.mode ≠ Mode.reset ∧ s.mode.unlock = false ∧ (s.view ↑q).searching = true ∧
      k < (s.view ↑q).span ∧ s.log.at_ (((s.view ↑q).from_ + k) % 2 ^ 32) = some e ∧
      e.seq = ((s.view ↑q).from_ + k) % 2 ^ 32 ∧ e.shows ↑q = true ∧
      (∀ (j : Nat) (e' : LogEntry), j < k → ¬(s.log.at_ (((s.view ↑q).from_ + j) % 2 ^ 32) = some e' ∧ e'.seq = ((s.view ↑q).from_ + j) % 2 ^ 32 ∧ e'.shows ↑q = true))) ∧
    (∃ (q : TenantId) (s : State), s.settled = true ∧ s.mode.mode ≠ Mode.reset ∧ s.mode.unlock = false ∧ (s.view ↑q).searching = true ∧
      (∀ (k : Nat) (e : LogEntry), k < (s.view ↑q).span → ¬(s.log.at_ (((s.view ↑q).from_ + k) % 2 ^ 32) = some e ∧ e.seq = ((s.view ↑q).from_ + k) % 2 ^ 32 ∧ e.shows ↑q = true))) ∧
    (∃ (s : State), s.settled = true ∧ s.mode.mode ≠ Mode.reset ∧ s.mode.unlock = false ∧ s.x1Holds = false) :=
  ⟨⟨({ id := 8, target := .degraded } : Machine.Trans), degrading, by decide +kernel⟩,
   ⟨shown (st .run), by decide +kernel⟩,
   ⟨(1 : TenantId), (0 : Word), logWith {}, by decide +kernel⟩,
   ⟨(1 : TenantId), logWith (search 2), 1, entry 1 1, by decide +kernel, by decide +kernel, by decide +kernel, by decide +kernel, by decide +kernel, by decide +kernel, by decide +kernel, by decide +kernel, (fun j _ hj h => by obtain rfl : j = 0 := (Nat.lt_one_iff.mp hj); cases h.1; exact absurd h.2.2 (by decide +kernel))⟩,
   ⟨(1 : TenantId), logWith (search 1), by decide +kernel, by decide +kernel, by decide +kernel, by decide +kernel, (fun j _ hj h => by obtain rfl : j = 0 := (Nat.lt_one_iff.mp hj); cases h.1; exact absurd h.2.2 (by decide +kernel))⟩,
   ⟨degrading, by decide +kernel⟩⟩

def calm (f : Ptu → Ptu) : State := (st .test).modPtu f

theorem test_meets_TestControls :
    (∃ (s : State), s.settled = true ∧ s.mode.mode ≠ Mode.reset ∧ s.pending = [] ∧ s.behind = [] ∧
      (if s.mode.mode = Mode.test then s.ptu.tbSlow else 0) ≤ s.tb.addend ∧
      (((s.tb.sec * 1000000000 + s.tb.nsec) * 2 ^ 28 + s.tb.frac + s.tb.addend - if s.mode.mode = Mode.test then s.ptu.tbSlow else 0) < 2 ^ 48 * 1000000000 * 2 ^ 28)) ∧
    (∃ (s : State), s.settled = true ∧ s.mode.mode ≠ Mode.reset ∧ s.mode.unlock = false ∧ s.x1Holds = false ∧
      s.mode.mode ≠ Mode.test) ∧
    (∃ (s : State), s.settled = true ∧ s.mode.mode ≠ Mode.reset ∧ s.mode.unlock = false ∧ s.x1Holds = false ∧
      s.mode.mode = Mode.test ∧ (∀ (r : RingId), (s.thr ↑r).wait = Wait.none) ∧ s.dma.wanted = [] ∧
      s.link.cpls = [] ∧ s.jtag.x17 = []) ∧
    (∃ (s : State), s.settled = true ∧ s.mode.mode ≠ Mode.reset ∧ s.mode.unlock = false ∧ s.x1Holds = false ∧
      s.mode.mode = Mode.test ∧ s.ptu.pfGo = false) ∧
    (∃ (v : Word) (s : State), s.settled = true ∧ s.mode.mode ≠ Mode.reset ∧ s.mode.unlock = false ∧ s.x1Holds = false ∧
      s.mode.mode = Mode.test ∧ BitVec.toNat v % 2 ^ 21 ≤ 1073742) :=
  ⟨⟨st .run, by decide +kernel⟩,
   ⟨st .run, by decide +kernel⟩,
   ⟨st .test, by decide +kernel⟩,
   ⟨st .test, by decide +kernel⟩,
   ⟨(0 : Word), st .test, by decide +kernel⟩⟩

def tb (f : Timebase → Timebase) : State := (st .run).modTb f

theorem test_meets_Timebase :
    (∃ (s : State), s.settled = true ∧ s.mode.mode ≠ Mode.reset ∧ s.mode.unlock = false ∧ s.x1Holds = false ∧
      0 ≤ ↑(s.tb.sec * 1000000000 + s.tb.nsec) + signed 64 s.tb.offset ∧
      ↑(s.tb.sec * 1000000000 + s.tb.nsec) + signed 64 s.tb.offset < 2 ^ 48 * 1000000000) ∧
    (∃ (s : State), s.settled = true ∧ s.mode.mode ≠ Mode.reset ∧ s.mode.unlock = false ∧ s.x1Holds = false ∧
      (↑(s.tb.sec * 1000000000 + s.tb.nsec) + signed 64 s.tb.offset < 0 ∨ 2 ^ 48 * 1000000000 ≤ ↑(s.tb.sec * 1000000000 + s.tb.nsec) + signed 64 s.tb.offset)) ∧
    (∃ (s : State), s.settled = true ∧ s.mode.mode ≠ Mode.reset ∧ s.mode.unlock = false ∧ s.x1Holds = false ∧
      s.tb.setNsec ≤ 999999999) ∧
    (∃ (s : State), s.settled = true ∧ s.mode.mode ≠ Mode.reset ∧ s.mode.unlock = false ∧ s.x1Holds = false ∧
      999999999 < s.tb.setNsec) ∧
    (∃ (s : State), s.settled = true ∧ s.mode.mode ≠ Mode.reset ∧ s.tb.holdover = false ∧ 1 ≤ s.tb.sec ∧
      s.tb.sec < 2 ^ 47 ∧ s.tb.nsec < 1000000000 ∧ s.tb.frac < 2 ^ 28) ∧
    (∃ (s : State), s.settled = true ∧ s.mode.mode ≠ Mode.reset ∧ s.tb.holdover = true ∧ s.tb.ref ≠ 0) ∧
    (∃ (s : State), s.settled = true ∧ s.mode.mode ≠ Mode.reset ∧ s.tb.ppsEn = true ∧ s.tb.ppsWidth ≠ 0) ∧
    (∃ (s : State) (x : Nat), s.settled = true ∧ s.mode.mode ≠ Mode.reset ∧ x < 2 ^ 64) ∧
    (∃ (s : State) (r : RingId), s.settled = true ∧ s.mode.mode ≠ Mode.reset ∧ s.behind = [] ∧
      s.outstanding (Requester.ring ↑r) = false) :=
  ⟨⟨tb id, by decide +kernel⟩,
   ⟨tb fun t => { t with offset := BitVec.allOnes 64 |>.toNat }, by decide +kernel⟩,
   ⟨tb id, by decide +kernel⟩,
   ⟨tb fun t => { t with setNsec := 1000000000 }, by decide +kernel⟩,
   ⟨tb fun t => { t with sec := 5, holdover := false }, by decide +kernel⟩,
   ⟨tb fun t => { t with holdover := true, ref := 1 }, by decide +kernel⟩,
   ⟨tb fun t => { t with ppsEn := true, ppsWidth := 4 }, by decide +kernel⟩,
   ⟨tb id, (1 : Nat), by decide +kernel⟩,
   ⟨tb id, (2 : RingId), by decide +kernel⟩⟩

def mapped (p : Nat) (x : WinState) : Win := { pages := p, rd := true, wr := true, base := 1, state := x }
/-- The owner of entry 5 moves from tenant 0 to tenant 1; that of port 5 goes. -/
def move_ : Machine.CharterWrite := { off := 0x1000, old := 0x800000, new := 0x900000 }
def loses : Machine.CharterWrite := { off := 0x20, old := 0x900000, new := 0 }
def charter (f : Charter → Charter) (k : BitVec 7 := 0) : State := ((st .run).modCharter f).modLdr fun l => { l with locks := k }
def write_ : Machine.CharterWrite := { off := 4, old := 0, new := 8 }
def moving (w : Machine.CharterWrite) : State := { charter fun c => { c with eff := [(8, 0x900000), (1024, if w.off = 0x20 then 0x900000 else 0x800000), (32, 0x9)], waiting := [w] } with
  partners := [(5, { valid := true, port := 5, areaSize := 4, arm := 2, rejected := 3, frames := [⟨0, 1, 3, 9, 0⟩] })]
  ports := [(5, { seen := 4, run := true })] }
theorem test_charter_moves : ∃ (w v : Machine.CharterWrite) (m : Fin 512) (n : Fin 8) (p : PortId) (s u : State),
    (s.settled = true ∧ s.charter.waiting = [w] ∧ w.off / 4 = 1024 + m.val ∧
      field w.old (4 * n) 4 ≠ field w.new (4 * n) 4 ∧ (s.partner (8 * m.val + n.val)).valid = true) ∧
    (u.settled = true ∧ u.charter.waiting = [v] ∧ (u.port p).seen = 4 ∧ u.portOwner p ≠ none ∧ v.new = 0) :=
  ⟨move_, loses, 0, 5, 5, moving move_, moving loses, by decide +kernel⟩

theorem test_meets_CharterWrites :
    (∃ (s : State), s.settled = true ∧ s.mode.mode ≠ Mode.reset ∧ s.mode.unlock = false ∧ s.ldr.locks.getLsbD 3 = true) ∧
    (∃ (s : State) (off : Nat), s.settled = true ∧ s.mode.mode ≠ Mode.reset ∧ s.mode.unlock = false ∧ off % 4 ≠ 0) ∧
    (∃ (k : Nat) (s : State), s.settled = true ∧ s.mode.mode ≠ Mode.reset ∧ s.mode.unlock = false ∧ s.ldr.locks.getLsbD 3 = false ∧
      s.x1Holds = false ∧ (k < 6 ∨ 8 ≤ k ∧ k < 20 ∨ 32 ≤ k ∧ k < 64 ∨ 1024 ≤ k ∧ k < 1536)) ∧
    (∃ (k : Nat) (s : State) (q : TenantId), s.settled = true ∧ s.mode.mode ≠ Mode.reset ∧ s.mode.unlock = false ∧ s.ldr.locks.getLsbD 3 = false ∧
      s.x1Holds = false ∧ k = 64 + 4 * ↑q) ∧
    (∃ (k : Nat) (s : State), s.settled = true ∧ s.mode.mode ≠ Mode.reset ∧ s.mode.unlock = false ∧ s.ldr.locks.getLsbD 3 = false ∧
      s.x1Holds = false ∧ 128 ≤ k ∧ k < 256) ∧
    (∃ (k : Nat) (s : State), s.settled = true ∧ s.mode.mode ≠ Mode.reset ∧ s.mode.unlock = false ∧ s.ldr.locks.getLsbD 3 = false ∧
      s.x1Holds = false ∧ (¬(k < 6 ∨ 8 ≤ k ∧ k < 20 ∨ 32 ≤ k ∧ k < 64 ∨ 1024 ≤ k ∧ k < 1536)) ∧
      (¬(128 ≤ k ∧ k < 256)) ∧ (∀ (q : TenantId), k ≠ 64 + 4 * ↑q)) ∧
    (∃ (s : State) (w : CharterWrite) (rest : List CharterWrite), s.settled = true ∧ s.mode.mode ≠ Mode.reset ∧ s.mode.unlock = false ∧ s.charter.waiting = w :: rest) :=
  ⟨⟨charter id 8, by decide +kernel⟩,
   ⟨charter id 8, (3 : Nat), by decide +kernel⟩,
   ⟨(3 : Nat), charter id, by decide +kernel⟩,
   ⟨68, charter id, (1 : TenantId), by decide +kernel⟩,
   ⟨130, charter id, by decide +kernel⟩,
   ⟨256, charter id, by decide +kernel⟩,
   ⟨charter fun c => { c with waiting := [write_] }, write_, ([] : List Machine.CharterWrite), by decide +kernel⟩⟩

def ready (s : State) : State := { s with ferry := { credit := [(0, 3)] }, threads := s.threads.map fun e => (e.1, { e.2 with pair := none }) }
def few (s : State) : State := s.modFerry fun f => { f with pairs := f.pairs ++ (List.range 6).map fun k => (k + 2, { retired := true }) }

theorem test_meets_Pairs :
    (∃ (p : PairId) (s : State), s.settled = true ∧ ((s.pair ↑p).retired = true ∨ (s.pair ↑p).held ≠ none)) ∧
    (∃ (p : PairId) (s : State) (r : RingId) (c : Cur), s.settled = true ∧ (s.pair ↑p).retired = false ∧ (s.pair ↑p).held = none ∧ s.ready ↑r = true ∧
      (s.thr ↑r).pair = none ∧ (s.thr ↑r).cur = some c ∧ c.fin = none ∧ c.unread = none ∧
      (∀ (q : RingId), q ≠ r → s.ready ↑q = false) ∧ (tabGet (fun x ↦ 0) s.ferry.credit (↑r / 4) ≠ 0)) ∧
    (∃ (p : PairId) (s : State) (cause : Fin 16), s.settled = true ∧ s.mode.mode = Mode.run ∧ s.mode.trans = none ∧ (s.pair ↑p).retired = false ∧
      3 ≤ s.pairsInService ∧ s.ptu.pfGo = false ∧ (cause = 1 ∨ cause = 2) ∧ (s.pair ↑p).held = none) ∧
    (∃ (p : PairId) (s : State) (r : RingId) (c : Cur), s.settled = true ∧ s.mode.mode = Mode.run ∧ s.mode.trans = none ∧ (s.pair ↑p).retired = false ∧
      3 ≤ s.pairsInService ∧ s.ptu.pfGo = false ∧ (s.pair ↑p).held = some ↑r ∧ (s.thr ↑r).pair = some ↑p ∧
      (s.thr ↑r).cur = some c ∧ (s.thr ↑r).wait = Wait.none ∧ c.progress = 0 ∧ c.once = false ∧
      c.taken = none ∧ c.reply = none ∧ c.fin = none ∧ (s.ring ↑r).state = RingState.running ∧
      s.recordBegun ↑r = false) ∧
    (∃ (p : PairId) (s : State) (cause : Fin 16), s.settled = true ∧ s.inRun = true ∧ s.mode.trans = none ∧ (s.pair ↑p).retired = false ∧
      s.pairsInService ≤ 2 ∧ s.ptu.pfGo = false ∧ (cause = 1 ∨ cause = 2) ∧ (s.pair ↑p).held = none) ∧
    (∃ (p : PairId) (s : State) (r : RingId), s.settled = true ∧ s.inRun = true ∧ s.mode.trans = none ∧ (s.pair ↑p).retired = false ∧
      s.pairsInService ≤ 2 ∧ s.ptu.pfGo = false ∧ (s.pair ↑p).held = some ↑r) :=
  ⟨⟨(0 : PairId), runs 0 (insn 0 []), by decide +kernel⟩,
   ⟨(0 : PairId), ready (runs 0 (insn 0 [])), (0 : RingId), insn 0 [], by decide +kernel⟩,
   ⟨(0 : PairId), st .run, (1 : Fin 16), by decide +kernel⟩,
   ⟨(0 : PairId), runs 0 (insn 0 []), (0 : RingId), insn 0 [], by decide +kernel⟩,
   ⟨(0 : PairId), few (st .run), (1 : Fin 16), by decide +kernel⟩,
   ⟨(0 : PairId), few (runs 0 (insn 0 [])), (0 : RingId), by decide +kernel⟩⟩

def link (f : Link → Link) (fns : Tab Fn := []) : State := { (st .run).modLink f with fns := fns }
def up (l : Link) : Link := { l with up := true, perst := false }
def foreign_ : State :=
  { link up with rings := [(5, { kind := 1, state := .running, part := some ({ type := 2, status := 0, tag := 9, from_ := 0, body := [] }, 3) })]
                 threads := [(0, { wait := .record 5, cur := some { words := [0x52], pos := 0, dest := some (5, 2) } })] }
theorem test_foreign_record : ∃ (t : TenantId) (k : Fin 4) (s : State), s.settled = true ∧ s.configOpen t = true ∧
    (∀ j : Fin 4, j ≠ k → (s.ring (4 * t + j)).part = none) ∧ (s.foreignPart (4 * t + k)).isSome = true ∧
    (s.fn t).d3hot = false := ⟨1, 1, foreign_, by decide +kernel⟩
theorem test_orphan_record : ∃ (t : TenantId) (d : RingId) (p : Rec) (k : Nat) (s : State), s.settled = true ∧
    s.configOpen t = true ∧ (s.fn t).d3hot = false ∧
    (∀ j : Fin 4, ∀ e, (s.ring (4 * t + j)).part = some e → e.1.from_ / 4 = t.val) ∧ d / 4 ≠ t.val ∧
    (s.ring d).part = some (p, k) ∧ p.from_ / 4 = t.val ∧ (s.ring d).accepts = true :=
  ⟨0, 5, { type := 2, status := 0, tag := 9, from_ := 0, body := [] }, 3, foreign_, by decide +kernel,
    by decide +kernel, by decide +kernel, fun j e h => by
      have : ∀ j : Fin 4, (foreign_.ring (4 * (0 : TenantId).val + j.val)).part = none := by decide +kernel
      exact absurd h (by rw [this j]; simp), by decide +kernel, rfl, rfl, rfl⟩

theorem test_meets_HostInterface :
    (∃ (s : State), s.settled = true ∧ s.link.up = false ∧ s.link.perst = false) ∧
    (∃ (s : State), s.settled = true ∧ s.link.up = true ∧ s.link.l2 = false) ∧
    (∃ (s : State), s.settled = true ∧ s.link.l2 = true) ∧
    (∃ (s : State) (c : Instr), s.settled = true ∧ s.link.l2 = true ∧
      (c = Instr.hotReset true ∨ c = Instr.hotReset false ∨ c = Instr.linkDown ∨ c = Instr.pmeTurnOff ∨ c = Instr.l1Entry)) ∧
    (∃ (s : State) (c : Instr), s.settled = true ∧ s.link.up = true ∧ s.link.l2 = false ∧
      (c = Instr.hotReset true ∨ c = Instr.hotReset false ∨ c = Instr.linkDown)) ∧
    (∃ (s : State), s.settled = true ∧ s.link.up = true ∧ s.link.l2 = false ∧ s.shows = true ∧ s.requestWaits = false ∧
      (bitAt (s.fn 0).aspm 1 = true ∨ ∀ (q : TenantId), (s.fn ↑q).d3hot = true)) ∧
    (∃ (s : State), s.settled = true ∧ (s.fn 0).ltrEn = true ∧ s.link.up = true ∧ s.link.l2 = false ∧
      s.forcedFull 2 = false ∧ s.mode.mode ≠ Mode.reset ∧ s.link.ltrTime = none) ∧
    (∃ (t : TenantId) (s : State), s.settled = true ∧ s.configOpen ↑t = true ∧ (s.fn ↑t).d3hot = false) ∧
    (∃ (t : TenantId) (s : State), s.settled = true ∧ s.configOpen ↑t = true ∧ (s.fn ↑t).d3hot = true) ∧
    (∃ (t : TenantId) (s : State), s.settled = true ∧ (s.fn ↑t).flr ≠ none) ∧
    (∃ (t : TenantId) (s : State), s.settled = true ∧ s.reachable ↑t = true ∧ s.shows = true) ∧
    (∃ (t : TenantId) (s : State), s.settled = true ∧ s.reachable ↑t = true ∧ s.forcedFull 4 = false) :=
  ⟨⟨link fun l => { l with perst := false }, by decide +kernel⟩,
   ⟨foreign_, by decide +kernel⟩,
   ⟨link fun l => { up l with l2 := true }, by decide +kernel⟩,
   ⟨link fun l => { up l with l2 := true }, Instr.linkDown, by decide +kernel⟩,
   ⟨foreign_, Instr.linkDown, by decide +kernel⟩,
   ⟨shown (link up [(0, { aspm := 2, ltrEn := true })]), by decide +kernel⟩,
   ⟨shown (link up [(0, { aspm := 2, ltrEn := true })]), by decide +kernel⟩,
   ⟨(1 : TenantId), foreign_, by decide +kernel⟩,
   ⟨(1 : TenantId), link up [(1, { d3hot := true })], by decide +kernel⟩,
   ⟨(1 : TenantId), link up [(1, { flr := some 3 })], by decide +kernel⟩,
   ⟨(1 : TenantId), shown (link up [(1, { mse := true, bme := true })]), by decide +kernel⟩,
   ⟨(1 : TenantId), shown (link up [(1, { mse := true, bme := true })]), by decide +kernel⟩⟩

def win (t : Nat) (w : Win) : State := { st .run with link := { up := true }, fns := [(t, { mse := true })], wins := [(64 * t + 3, w)] }

theorem test_meets_Windows :
    (∃ (t : TenantId) (n : WindowId) (s : State), s.settled = true ∧ s.reachable ↑t = true ∧ (s.win ↑t ↑n).closing = false ∧
      ((s.win ↑t ↑n).state = WinState.invalid ∨ (s.win ↑t ↑n).state = WinState.refused)) ∧
    (∃ (t : TenantId) (n : WindowId) (s : State), s.settled = true ∧ s.reachable ↑t = true ∧ (s.win ↑t ↑n).closing = true ∧
      (s.win ↑t ↑n).state = WinState.refused) ∧
    (∃ (t : TenantId) (n : WindowId) (s : State), s.settled = true ∧ s.reachable ↑t = true ∧ (s.win ↑t ↑n).state = WinState.checking ∧
      (s.win ↑t ↑n).closing = false ∧ s.mode.mode ≠ Mode.load ∧ s.mode.mode ≠ Mode.wake ∧
      ((s.win ↑t ↑n).pages = 0 ∨ 1024 < (s.win ↑t ↑n).pages ∨ (s.win ↑t ↑n).rd = false ∧ (s.win ↑t ↑n).wr = false)) ∧
    (∃ (t : TenantId) (n : WindowId) (s : State), s.settled = true ∧ s.reachable ↑t = true ∧ (s.win ↑t ↑n).state = WinState.checking ∧
      (s.win ↑t ↑n).closing = false ∧ s.mode.mode ≠ Mode.load ∧ s.mode.mode ≠ Mode.wake ∧
      1 ≤ (s.win ↑t ↑n).pages ∧ (s.win ↑t ↑n).pages ≤ 1024 ∧
      ((s.win ↑t ↑n).rd = true ∨ (s.win ↑t ↑n).wr = true) ∧
      (s.win ↑t ↑n).base + (s.win ↑t ↑n).pages ≤ 2048 ∧ ↑t = 0) ∧
    (∃ (t : TenantId) (n : WindowId) (s : State), s.settled = true ∧ s.reachable ↑t = true ∧ (s.win ↑t ↑n).state = WinState.checking ∧
      (s.win ↑t ↑n).closing = false ∧ s.mode.mode ≠ Mode.load ∧ s.mode.mode ≠ Mode.wake ∧
      1 ≤ (s.win ↑t ↑n).pages ∧ (s.win ↑t ↑n).pages ≤ 1024 ∧
      ((s.win ↑t ↑n).rd = true ∨ (s.win ↑t ↑n).wr = true) ∧
      (s.win ↑t ↑n).base + (s.win ↑t ↑n).pages ≤ 2048 ∧ ↑t ≠ 0 ∧
      (∀ (k : Fin 8), rangeCovers s.charterEff (↑t) (↑k) (s.win ↑t ↑n) = false)) ∧
    (∃ (t : TenantId) (n : WindowId) (s : State) (o : Nat), s.settled = true ∧ s.reachable ↑t = true ∧ s.mode.mode ≠ Mode.load ∧ s.mode.mode ≠ Mode.wake ∧
      s.behind = [] ∧ o % 4 = 0 ∧ o + 4 ≤ 4194304 ∧
      ((s.win ↑t ↑n).state ≠ WinState.valid ∨ (s.win ↑t ↑n).closing = true ∨ (s.win ↑t ↑n).pages * 4096 ≤ o ∨ (s.win ↑t ↑n).wr = false)) ∧
    (∃ (t : TenantId) (n : WindowId) (s : State) (o : Nat), s.settled = true ∧ s.reachable ↑t = true ∧ s.mode.mode ≠ Mode.load ∧ s.mode.mode ≠ Mode.wake ∧
      s.behind = [] ∧ o % 4 = 0 ∧ o + 4 ≤ 4194304 ∧ ↑t = 0 ∧ (s.win ↑t ↑n).state = WinState.valid ∧
      (s.win ↑t ↑n).closing = false ∧ o < (s.win ↑t ↑n).pages * 4096 ∧
      (s.win ↑t ↑n).base + (s.win ↑t ↑n).pages ≤ 2048 ∧ s.harbourBad = [] ∧ s.harbourSoft = [] ∧
      s.outstanding (Requester.window ↑t) = false ∧ s.forcedFull 4 = false ∧ (s.win ↑t ↑n).wr = true) ∧
    (∃ (t : TenantId) (n : WindowId) (s : State) (o : Nat), s.settled = true ∧ s.reachable ↑t = true ∧ s.mode.mode ≠ Mode.load ∧ s.mode.mode ≠ Mode.wake ∧
      s.behind = [] ∧ o % 4 = 0 ∧ o + 4 ≤ 4194304 ∧ ↑t = 0 ∧ (s.win ↑t ↑n).state = WinState.valid ∧
      (s.win ↑t ↑n).closing = false ∧ o < (s.win ↑t ↑n).pages * 4096 ∧
      (s.win ↑t ↑n).base + (s.win ↑t ↑n).pages ≤ 2048 ∧ s.harbourBad = [] ∧ s.harbourSoft = [] ∧
      s.outstanding (Requester.window ↑t) = false ∧ s.forcedFull 4 = false ∧ (s.win ↑t ↑n).rd = true) :=
  ⟨⟨(0 : TenantId), (3 : WindowId), win 0 {}, by decide +kernel⟩,
   ⟨(0 : TenantId), (3 : WindowId), win 0 { mapped 1 .refused with closing := true }, by decide +kernel⟩,
   ⟨(0 : TenantId), (3 : WindowId), win 0 (mapped 1025 .checking), by decide +kernel⟩,
   ⟨(0 : TenantId), (3 : WindowId), win 0 (mapped 1 .checking), by decide +kernel⟩,
   ⟨1, (3 : WindowId), win 1 (mapped 1 .checking), by decide +kernel⟩,
   ⟨(0 : TenantId), (3 : WindowId), win 0 {}, (4 : Nat), by decide +kernel⟩,
   ⟨(0 : TenantId), (3 : WindowId), win 0 (mapped 1 .valid), (4 : Nat), by decide +kernel⟩,
   ⟨(0 : TenantId), (3 : WindowId), win 0 (mapped 1 .valid), (4 : Nat), by decide +kernel⟩⟩

end L

namespace R
def dmaRing (kind : Nat) (c : Option Cur) : State :=
  { st .run with rings := [(0, { state := .running, kind := kind, tail := 4 })], threads := [(0, { cur := c, wait := .dma })], fns := [(0, { bme := true })] }
def copyIn : Cur := { insn 0x30 [0, 0, 0, 0, 0] with started := true, a0 := 0xff8, a1 := 8, len := 7 }
def copyOut : Cur := { copyIn with words := head 0x31 5 :: [0, 0, 0, 0, 0], staged := some [1, 2, 3, 4, 5, 6, 7] }
def read : DmaRead := { fn := 0, ring := 0, tag := 0, kind := .fetch, addr := 0, len := 16 }
def reading (cpls : List (Nat × Nat × List Byte) := []) : State := { dmaRing 0 none with dma := { reads := [read] }, ptuHeld := { items := cpls.map fun x => .cpl x.1 x.2.1 x.2.2 } }
def data16 : List Byte := List.replicate 16 3
theorem none_record {s : State} {P : RingId → Nat → Prop}
    (h : ∀ r : RingId, (match (s.thr r).wait with | .record _ => false | _ => true) = true) :
    ∀ (r : RingId) (k : Nat), (s.thr r).wait = .record k → P r k := fun r k e => by
  have := h r
  rw [e] at this
  cases this
def readData : DmaRead := { read with kind := .data, addr := 0xff8, len := 7 }
def copying : State := { dmaRing 0 (some copyIn) with dma := { reads := [readData] } }
def rate (f : Dma → Dma) : State := (st .run).modDma f

theorem test_meets_DmaEngine :
    (∃ (r : RingId) (s : State) (c : Cur), s.settled = true ∧ s.mayRun ↑r = true ∧ (s.ring ↑r).translated = false ∧ (s.thr ↑r).cur = some c ∧
      (s.thr ↑r).wait = Wait.dma ∧ c.xl = none ∧ c.opcode = 48 ∧ s.readsOf (↑r) ReadKind.data = [] ∧
      0 < min (c.len - c.progress) (4096 - (c.a0 + c.progress) % 2 ^ 64 % 4096) ∧
      min (c.len - c.progress) (4096 - (c.a0 + c.progress) % 2 ^ 64 % 4096) ≤ 128 * 2 ^ (s.fn (ringTenant ↑r)).mrrs ∧
      s.readAllowed (ringTenant ↑r) (min (c.len - c.progress) (4096 - (c.a0 + c.progress) % 2 ^ 64 % 4096)) = true) ∧
    (∃ (r : RingId) (s : State) (c : Cur) (bytes : List Byte), s.settled = true ∧ s.mayRun ↑r = true ∧ (s.ring ↑r).translated = false ∧ (s.thr ↑r).cur = some c ∧
      (s.thr ↑r).wait = Wait.dma ∧ c.xl = none ∧ c.opcode = 49 ∧ c.staged = some bytes ∧
      bytes.length = min (c.len - c.progress) (4096 - (c.a0 + c.progress) % 2 ^ 64 % 4096) ∧
      0 < min (c.len - c.progress) (4096 - (c.a0 + c.progress) % 2 ^ 64 % 4096) ∧
      (c.a0 + c.progress) % 2 ^ 64 % (128 * 2 ^ (s.fn (ringTenant ↑r)).mps) + min (c.len - c.progress) (4096 - (c.a0 + c.progress) % 2 ^ 64 % 4096) ≤ 128 * 2 ^ (s.fn (ringTenant ↑r)).mps ∧
      s.fnIssues (ringTenant ↑r) = true ∧ s.rateAllows = true ∧
      s.ownsRange (ringTenant ↑r) (c.a1 + c.progress) (min (c.len - c.progress) (4096 - (c.a0 + c.progress) % 2 ^ 64 % 4096)) = true ∧
      (s.ring ↑r).cplEn = false ∧ s.recordBegun ↑r = false) ∧
    (∃ (r : RingId) (s : State), s.settled = true ∧ s.mayRun ↑r = true ∧ (s.ring ↑r).translated = false ∧ (s.thr ↑r).wait = Wait.dma ∧
      (s.thr ↑r).cur = none ∧ (s.ring ↑r).state = RingState.running ∧ s.readsOf (↑r) ReadKind.fetch = [] ∧
      0 < (s.ring ↑r).fetchSpan.2 ∧ (s.ring ↑r).fetchSpan.2 ≤ 128 * 2 ^ (s.fn (ringTenant ↑r)).mrrs ∧
      s.readAllowed (ringTenant ↑r) (s.ring ↑r).fetchSpan.2 = true) ∧
    (∃ (x : DmaRead) (data : List Byte) (s : State), s.settled = true ∧ s.dma.reads = [x] ∧ x.got = none ∧ x.kind = ReadKind.fetch ∧ x.ring < 32 ∧
      s.leave.queue = [] ∧ s.ptuHeld.cpls = [] ∧ s.mode.mode ≠ Mode.test ∧ data.length = x.len) ∧
    (∃ (x : DmaRead) (s : State), s.settled = true ∧ s.dma.reads = [x] ∧ x.got = none ∧ x.kind = ReadKind.fetch ∧ x.ring < 32 ∧
      s.leave.queue = [] ∧ s.ptuHeld.cpls = [] ∧ s.mode.mode ≠ Mode.test ∧ (s.fn x.fn).ctoDisable = false) ∧
    (∃ (x : DmaRead) (data : List Byte) (s : State) (n : Fin 4), s.settled = true ∧ s.dma.reads = [x] ∧ x.got = none ∧ x.kind = ReadKind.fetch ∧ x.ring < 32 ∧
      s.leave.queue = [] ∧ s.ptuHeld.cpls = [(x.tag, ↑n, data)] ∧ data.length = x.len ∧ ↑n = 0) ∧
    (∃ (x : DmaRead) (data : List Byte) (s : State) (n : Fin 4), s.settled = true ∧ s.dma.reads = [x] ∧ x.got = none ∧ x.kind = ReadKind.fetch ∧ x.ring < 32 ∧
      s.leave.queue = [] ∧ s.ptuHeld.cpls = [(x.tag, ↑n, data)] ∧ data.length = x.len ∧ 0 < ↑n) ∧
    (∃ (x : DmaRead) (data : List Byte) (c : Cur) (s : State), s.settled = true ∧ s.dma.reads = [x] ∧ x.got = none ∧ x.kind = ReadKind.data ∧ x.ring < 32 ∧
      s.leave.queue = [] ∧ s.ptuHeld.cpls = [] ∧ s.mode.mode ≠ Mode.test ∧ (s.thr x.ring).cur = some c ∧
      c.opcode = 48 ∧ c.fin = none ∧ data.length = x.len ∧
      x.len = min (c.len - c.progress) (4096 - (c.a0 + c.progress) % 4096)) ∧
    (∃ (x : DmaRead) (c : Cur) (s : State), s.settled = true ∧ s.dma.reads = [x] ∧ x.got = none ∧ x.kind = ReadKind.data ∧ x.ring < 32 ∧
      s.leave.queue = [] ∧ s.ptuHeld.cpls = [] ∧ s.mode.mode ≠ Mode.test ∧ (s.thr x.ring).cur = some c ∧
      c.opcode = 48 ∧ c.fin = none ∧ (s.fn x.fn).ctoDisable = false) ∧
    (∃ (s : State), s.settled = true ∧ s.dma.wanted = [] ∧ s.link.cpls = [] ∧
      (∀ (r : RingId) (k : Nat), (s.thr ↑r).wait = Wait.record k → (s.ring k).hasSpace 1 = false) ∧
      s.dma.rate = RateLease.none ∧ s.dma.retryWindows = 0 ∧
      ((decide (8000 ≤ s.dma.winBytes) || s.dma.delayed) = false ∨ s.dma.capRun < 9)) ∧
    (∃ (s : State), s.settled = true ∧ s.dma.wanted = [] ∧ s.link.cpls = [] ∧
      (∀ (r : RingId) (k : Nat), (s.thr ↑r).wait = Wait.record k → (s.ring k).hasSpace 1 = false) ∧
      s.dma.rate = RateLease.none ∧ s.dma.retryWindows = 0 ∧
      (decide (8000 ≤ s.dma.winBytes) || s.dma.delayed) = true ∧ s.dma.capRun = 9) ∧
    (∃ (s : State), s.settled = true ∧ s.dma.wanted = [] ∧ s.link.cpls = [] ∧
      (∀ (r : RingId) (k : Nat), (s.thr ↑r).wait = Wait.record k → (s.ring k).hasSpace 1 = false) ∧
      s.dma.rate = RateLease.held ∧ (if 6000 < s.dma.winBytes then 0 else s.dma.quietRun + 1) = 1000 ∧
      s.leave.queue = []) :=
  ⟨⟨(0 : RingId), dmaRing 0 (some copyIn), copyIn, by decide +kernel⟩,
   ⟨(0 : RingId), dmaRing 0 (some copyOut), copyOut, [1, 2, 3, 4, 5, 6, 7], by decide +kernel⟩,
   ⟨(0 : RingId), dmaRing 0 none, by decide +kernel⟩,
   ⟨read, data16, reading, by decide +kernel⟩,
   ⟨read, reading, by decide +kernel⟩,
   ⟨read, data16, reading [(0, 0, data16)], (0 : Fin 4), by decide +kernel⟩,
   ⟨read, data16, reading [(0, 3, data16)], 3, by decide +kernel⟩,
   ⟨readData, [1, 2, 3, 4, 5, 6, 7], copyIn, copying, by decide +kernel⟩,
   ⟨readData, copyIn, copying, by decide +kernel⟩,
   ⟨dmaRing 0 (some copyIn), by and_intros <;> first | decide +kernel | exact none_record (by decide +kernel)⟩,
   ⟨rate fun d => { d with winBytes := 8000, capRun := 9 }, by and_intros <;> first | decide +kernel | exact none_record (by decide +kernel)⟩,
   ⟨rate fun d => { d with rate := .held, quietRun := 999 }, by and_intros <;> first | decide +kernel | exact none_record (by decide +kernel)⟩⟩

def asked : TransReq := { id := 4, fn := 0, ring := 1, page := 0x5000, needed := true, write := true }
def notNeeded : TransReq := { asked with needed := false }
def stale : TransReq := { asked with stale := true }
def trans (q : TransReq) : State := { st .run with dma := { trans := [q] } }
def inval : InvReq := { fn := 0, itag := 3, page := 0x5000, bytes := 4096 }
def invs (x : List InvReq) (r : List DmaRead := []) : State := { st .run with dma := { invs := x, reads := r }, link := { up := true, perst := false } }
def atPage : DmaRead := { read with page := some 0x5000, kind := .data }
def waited (page : Nat) : State := { trans asked with threads := [(1, { wait := .dma, cur := some { copyOut with a0 := page, progress := 0, xl := none, staged := none } })], rings := [(1, { state := .running })] }

theorem test_meets_Translations :
    (∃ (q : TransReq) (s : State) (size : Nat) (r : Bool) (w : Bool), s.settled = true ∧ s.dma.trans = [q] ∧ q.stale = false ∧ 12 + (s.fn q.fn).stu ≤ size ∧ size ≤ 30 ∧
      (if q.write = true then w else r) = true ∧ s.dma.find q.fn q.page = none ∧ s.dma.atcRetired ≠ 15) ∧
    (∃ (q : TransReq) (s : State) (r : Bool) (w : Bool), s.settled = true ∧ s.dma.trans = [q] ∧ q.stale = false ∧
      (q.needed = false ∨ s.waitsPage q.ring q.page = false) ∧ (if q.write = true then w else r) = false) ∧
    (∃ (q : TransReq) (s : State), s.settled = true ∧ s.dma.trans = [q] ∧ q.stale = true ∧
      (∀ (r : RingId), (s.thr ↑r).wait ≠ Wait.record q.ring)) ∧
    (∃ (q : TransReq) (s : State), s.settled = true ∧ s.dma.trans = [q] ∧ q.stale = false ∧ q.needed = true ∧
      s.waitsPage q.ring q.page = true ∧ s.leave.queue = []) ∧
    (∃ (s : State) (addr : Nat), s.settled = true ∧ s.hostSends = true ∧ bitAt addr 11 = false) ∧
    (∃ (s : State) (addr : Nat) (k : Fin 51), s.settled = true ∧ s.hostSends = true ∧ addr < 2 ^ 64 ∧ bitAt addr 11 = true ∧
      (∀ j < ↑k, bitAt addr (12 + j) = true) ∧ bitAt addr (12 + ↑k) = false) ∧
    (∃ (s : State), s.settled = true ∧ s.hostSends = true ∧ s.mode.mode = Mode.reset) ∧
    (∃ (s : State), s.settled = true ∧ s.hostSends = true ∧ s.mode.mode ≠ Mode.reset ∧ s.dma.invs = []) ∧
    (∃ (q : TenantId) (s : State), s.settled = true ∧ s.hostSends = true ∧ s.mode.mode ≠ Mode.reset ∧ 32 ≤ s.dma.invsHeld ↑q) ∧
    (∃ (q : TenantId) (s : State) (x : InvReq), s.settled = true ∧ s.dma.invs = [x] ∧ x.fn = ↑q ∧ x.inX1 = false ∧ x.own = false ∧
      (∀ y ∈ s.dma.reads, x.meetsRead y = false) ∧ s.meetsWrite x = false ∧ s.link.up = true ∧
      s.msixWaits = false ∧ s.mode.mode ≠ Mode.reset) ∧
    (∃ (q : TenantId) (s : State), s.settled = true ∧ s.configOpen ↑q = true) :=
  ⟨⟨asked, trans asked, (12 : Nat), true, true, by decide +kernel⟩,
   ⟨asked, trans asked, true, false, by decide +kernel⟩,
   ⟨stale, trans stale, by and_intros <;> first | (intro _ h; cases h <;> decide +kernel) | decide +kernel⟩,
   ⟨asked, waited 0x5000, by decide +kernel⟩,
   ⟨invs [], (12 : Nat), by decide +kernel⟩,
   ⟨invs [], 0x5800, 1, by decide +kernel⟩,
   ⟨{ invs [] with mode := (st .reset).mode }, by decide +kernel⟩,
   ⟨invs [], by decide +kernel⟩,
   ⟨(0 : TenantId), invs (List.replicate 32 inval), by decide +kernel⟩,
   ⟨(0 : TenantId), invs [inval], inval, by decide +kernel⟩,
   ⟨(0 : TenantId), invs [], by decide +kernel⟩⟩

def ring (x : Ring) : State :=
  { st .run with rings := [(2, { state := .running }), (5, x)], threads := [(5, {})], link := { up := true }, fns := [(1, { mse := true })] }
def begun_ (t : Nat) : Rec := { type := t, status := 0, tag := 9, from_ := 2, body := [] }
def overrun (t : Nat) (fin : Option (Nat × Nat)) : State := { ring { state := .running, kind := 1, tail := 4, part := some (begun_ t, 3) } with
  threads := [(2, { wait := .record 5, cur := some { words := [0x52], pos := 0, dest := some (5, 2), fin := fin } })] }
def rings : List State := [overrun 2 none, overrun 3 (some (0, 0)), ring {}, ring { entry := 0x4 }, ring { entry := 0x80000 }, ring { state := .running }, ring { state := .stopped, kind := 2, fault := true }, ring { state := .halted, kind := 2 }, ring { state := .flushing, flush := some {}, disableWanted := true }, ring { state := .flushing, flush := some {} }, ring { state := .running, kind := 1, tail := 4 }, ring { state := .running, kind := 1, tail := 4, level := true, wmHi := 3 }, ring { state := .stopped, kind := 1, tail := 4 }, ring { state := .flushing, flush := some {}, kind := 1, tail := 4 }, (ring { entry := 0x3100000 }).modCharter fun c => { c with eff := [(48, 9)] }]

theorem test_meets_RingControl :
    (∃ (r : RingId) (v : Word) (s : State), s.settled = true ∧ s.reachable (↑r / 4) = true ∧ (s.ring ↑r).state = RingState.disabled ∧
      field (BitVec.toNat v) 1 2 < 2 ∧ bitAt (BitVec.toNat v) 3 = false ∧
      (∀ (k : Nat), (s.thr ↑r).wait ≠ Wait.record k)) ∧
    (∃ (r : RingId) (v : Word) (s : State), s.settled = true ∧ s.reachable (↑r / 4) = true ∧ (s.ring ↑r).state = RingState.disabled ∧
      field (BitVec.toNat v) 1 2 = 2 ∧ s.entryOk ↑r = true) ∧
    (∃ (r : RingId) (v : Word) (s : State), s.settled = true ∧ s.reachable (↑r / 4) = true ∧ (s.ring ↑r).state = RingState.disabled ∧
      field (BitVec.toNat v) 1 2 = 2 ∧ s.entryOk ↑r = false ∧ (s.ring ↑r).fault = false) ∧
    (∃ (r : RingId) (v : Word) (s : State), s.settled = true ∧ s.reachable (↑r / 4) = true ∧
      ((s.ring ↑r).state = RingState.running ∨ (s.ring ↑r).state = RingState.stopped ∨ (s.ring ↑r).state = RingState.halted) ∧
      (s.ring ↑r).kind ≠ 1 ∧ (s.thr ↑r).cur = none ∧ (s.thr ↑r).wait = Wait.none ∧ (s.thr ↑r).pair = none ∧
      (∀ q ∈ s.dma.wanted, q.ring ≠ ↑r) ∧ bitAt (BitVec.toNat v) 0 = true) ∧
    (∃ (r : RingId) (s : State), s.settled = true ∧ s.reachable (↑r / 4) = true ∧ (s.ring ↑r).state = RingState.flushing ∧
      (s.thr ↑r).cur = none ∧ (s.ring ↑r).part = none ∧ (s.ring ↑r).kind = 0 ∧
      (s.ring ↑r).head = (s.ring ↑r).tail ∧ (s.ring ↑r).fetched = [] ∧ (s.ring ↑r).cplEn = false ∧
      (s.ring ↑r).wmHi = 0 ∧ (s.ring ↑r).level = false ∧ (s.ring ↑r).tail < 2 ^ 32 ∧
      (s.ring ↑r).lost < 2 ^ 32) ∧
    (∃ (r : RingId) (v : Word) (s : State), s.settled = true ∧ s.reachable (↑r / 4) = true ∧ (s.ring ↑r).kind = 1 ∧
      dist32 (BitVec.toNat v) (s.ring ↑r).head ≤ (s.ring ↑r).fill) ∧
    (∃ (r : RingId) (v : Word) (s : State), s.settled = true ∧ s.reachable (↑r / 4) = true ∧ (s.ring ↑r).kind = 1 ∧
      (s.ring ↑r).fill < dist32 (BitVec.toNat v) (s.ring ↑r).head ∧ (s.ring ↑r).state = RingState.running ∧
      (s.ring ↑r).fault = false ∧ (s.ring ↑r).part = none) ∧
    (∃ (r : RingId) (v : Word) (s : State) (p : Rec) (k : Nat), s.settled = true ∧ s.reachable (↑r / 4) = true ∧ (s.ring ↑r).kind = 1 ∧
      (s.ring ↑r).fill < dist32 (BitVec.toNat v) (s.ring ↑r).head ∧ (s.ring ↑r).state = RingState.running ∧
      (s.ring ↑r).fault = false ∧ (s.ring ↑r).part = some (p, k) ∧ p.type ≠ 4 ∧
      (s.ring p.from_).state ≠ RingState.flushing ∧
      (s.producesFor p.from_ ↑r = true ∨ (s.leftIn ↑r).isSome = true)) :=
  ⟨⟨(5 : RingId), (1 : Word), rings[2]'(by decide), by and_intros <;> first | (intro _ h; cases h <;> decide +kernel) | decide +kernel⟩,
   ⟨(5 : RingId), 5, rings[14]'(by decide), by decide +kernel⟩,
   ⟨(5 : RingId), 5, rings[2]'(by decide), by decide +kernel⟩,
   ⟨(5 : RingId), (1 : Word), rings[5]'(by decide), by decide +kernel⟩,
   ⟨(5 : RingId), rings[8]'(by decide), by decide +kernel⟩,
   ⟨(5 : RingId), (1 : Word), rings[0]'(by decide), by decide +kernel⟩,
   ⟨(5 : RingId), 5, rings[10]'(by decide), by decide +kernel⟩,
   ⟨(5 : RingId), 5, rings[0]'(by decide), begun_ 2, (3 : Nat), by decide +kernel⟩⟩

theorem test_meets_RingRules :
    (∃ (r : RingId) (v : Word) (s : State), s.settled = true ∧ s.reachable (↑r / 4) = true ∧ (s.ring ↑r).kind = 1 ∧
      (BitVec.toNat v + 2 ^ 32 - (s.ring ↑r).head % 2 ^ 32) % 2 ^ 32 ≤ ((s.ring ↑r).tail + 2 ^ 32 - (s.ring ↑r).head % 2 ^ 32) % 2 ^ 32) ∧
    (∃ (r : RingId) (v : Word) (s : State), s.settled = true ∧ s.reachable (↑r / 4) = true ∧ (s.ring ↑r).kind = 1 ∧
      ((s.ring ↑r).tail + 2 ^ 32 - (s.ring ↑r).head % 2 ^ 32) % 2 ^ 32 < (BitVec.toNat v + 2 ^ 32 - (s.ring ↑r).head % 2 ^ 32) % 2 ^ 32) ∧
    (∃ (r : RingId) (s : State), s.settled = true ∧ s.reachable (↑r / 4) = true ∧
      ((s.ring ↑r).state = RingState.running ∨ (s.ring ↑r).state = RingState.stopped ∨ (s.ring ↑r).state = RingState.halted)) ∧
    (∃ (r : RingId) (v : Word) (s : State), s.settled = true ∧ s.reachable (↑r / 4) = true ∧
      ((s.ring ↑r).state = RingState.disabled ∨ (s.ring ↑r).state = RingState.flushing) ∧
      BitVec.getLsbD v 0 = true) ∧
    (∃ (r : RingId) (v : Word) (s : State), s.settled = true ∧ s.reachable (↑r / 4) = true ∧
      ((s.ring ↑r).state = RingState.disabled ∨ (s.ring ↑r).state = RingState.flushing) ∧
      BitVec.getLsbD v 0 = false) :=
  ⟨⟨(5 : RingId), (1 : Word), rings[0]'(by decide), by decide +kernel⟩,
   ⟨(5 : RingId), 5, rings[0]'(by decide), by decide +kernel⟩,
   ⟨(5 : RingId), rings[0]'(by decide), by decide +kernel⟩,
   ⟨(5 : RingId), (1 : Word), rings[2]'(by decide), by decide +kernel⟩,
   ⟨(5 : RingId), 0, rings[2]'(by decide), by decide +kernel⟩⟩

def delaying : State := { ring { state := .running } with mode := (st .test).mode, ptu := { dbDelay := [(5, 3)] } }
def delayed (n : Nat) : State := { ring { state := .running } with ptuHeld := { items := [.tail 5 n] } }
def timed : State := ring { state := .running, tail := 1, timer := true, fetched := [head 0 9, 0, 0, 0] }

theorem test_meets_Doorbells :
    (∃ (r : RingId) (v : Word) (s : State), s.settled = true ∧ s.leave.queue = [] ∧ s.reachable (↑r / 4) = true ∧ s.mode.mode ≠ Mode.test ∧
      s.ptuHeld.tails = [] ∧ (s.ring ↑r).kind = 0 ∧ (s.ring ↑r).state = RingState.running ∧
      dist32 (BitVec.toNat v) (s.ring ↑r).head ≤ (s.ring ↑r).slots ∧
      dist32 (BitVec.toNat v) (s.ring ↑r).tail ≤ (s.ring ↑r).slots) ∧
    (∃ (r : RingId) (v : Word) (s : State), s.settled = true ∧ s.leave.queue = [] ∧ s.reachable (↑r / 4) = true ∧ s.mode.mode ≠ Mode.test ∧
      s.ptuHeld.tails = [] ∧ (s.ring ↑r).kind = 0 ∧ (s.ring ↑r).state = RingState.running ∧
      (s.ring ↑r).slots < dist32 (BitVec.toNat v) (s.ring ↑r).head) ∧
    (∃ (r : RingId) (v : Word) (s : State), s.settled = true ∧ s.leave.queue = [] ∧ s.reachable (↑r / 4) = true ∧ s.mode.mode ≠ Mode.test ∧
      s.ptuHeld.tails = [] ∧ (s.ring ↑r).kind = 0 ∧ (s.ring ↑r).state = RingState.running ∧
      dist32 (BitVec.toNat v) (s.ring ↑r).head ≤ (s.ring ↑r).slots ∧
      (s.ring ↑r).slots < dist32 (BitVec.toNat v) (s.ring ↑r).tail) ∧
    (∃ (r : RingId) (s : State), s.settled = true ∧ s.leave.queue = [] ∧ s.reachable (↑r / 4) = true ∧ s.mode.mode ≠ Mode.test ∧
      s.ptuHeld.tails = [] ∧ (s.ring ↑r).kind = 2 ∧ (s.ring ↑r).state = RingState.running) ∧
    (∃ (r : RingId) (s : State), s.settled = true ∧ s.leave.queue = [] ∧ s.reachable (↑r / 4) = true ∧ s.mode.mode = Mode.test ∧
      (s.ring ↑r).kind = 0 ∧ (tabGet (fun x ↦ 0) s.ptu.dbDelay ↑r ≠ 0)) ∧
    (∃ (r : RingId) (v : Word) (s : State), s.settled = true ∧ s.leave.queue = [] ∧ s.ptuHeld.tails = [(↑r, BitVec.toNat v)] ∧
      (s.ring ↑r).kind = 0 ∧ (s.ring ↑r).state = RingState.running ∧
      dist32 (BitVec.toNat v) (s.ring ↑r).head ≤ (s.ring ↑r).slots ∧
      dist32 (BitVec.toNat v) (s.ring ↑r).tail ≤ (s.ring ↑r).slots) ∧
    (∃ (r : RingId) (s : State), s.settled = true ∧ s.leave.queue = [] ∧ (s.ring ↑r).timer = true ∧ (s.ring ↑r).tailInside = true ∧
      (s.ring ↑r).state = RingState.running ∧ s.executing = true) :=
  ⟨⟨(5 : RingId), (1 : Word), ring { state := .running }, by decide +kernel⟩,
   ⟨(5 : RingId), 65, ring { state := .running }, by decide +kernel⟩,
   ⟨(5 : RingId), (1 : Word), ring { state := .running, tail := 5 }, by decide +kernel⟩,
   ⟨(5 : RingId), ring { state := .running, kind := 2 }, by decide +kernel⟩,
   ⟨(5 : RingId), delaying, by decide +kernel⟩,
   ⟨(5 : RingId), 3, delayed 3, by decide +kernel⟩,
   ⟨(5 : RingId), timed, by decide +kernel⟩⟩

end R

namespace I
def computed : List State := arith.map (runs 2 ·)
def computedByRing : List State := arith.map (runs 0 ·)
def curs (ss : List State) : List Cur := ss.filterMap fun s => (s.thr 0).cur
def curs4 (ss : List State) : List Cur := ss.filterMap fun s => (s.thr 0).cur <|> (s.thr 4).cur

theorem test_meets_Arithmetic :
    (∃ (r : RingId) (c : Cur) (s : State), s.settled = true ∧ s.starts (↑r) c ∧ c.opcode = 16 ∧ (c.length = 2 ∨ c.length = 3) ∧ c.op 1 5 27 = 0 ∧
      (c.length = 3 → bitAt (c.word 1) 4 = false)) ∧
    (∃ (r : RingId) (c : Cur) (s : State), s.settled = true ∧ s.starts (↑r) c ∧ (c.length = if bitAt (c.word 1) 14 = true then 2 else 1) ∧
      c.op 1 4 5 ≤ 20 ∧ (if bitAt (c.word 1) 14 = true then c.op 1 9 5 = 0 else c.op 1 9 5 ≤ 20) ∧
      c.op 1 16 16 = 0 ∧ c.opcode = 17) ∧
    (∃ (r : RingId) (c : Cur) (s : State), s.settled = true ∧ s.starts (↑r) c ∧ (c.length = if bitAt (c.word 1) 14 = true then 2 else 1) ∧
      c.op 1 4 5 ≤ 20 ∧ (if bitAt (c.word 1) 14 = true then c.op 1 9 5 = 0 else c.op 1 9 5 ≤ 20) ∧
      c.op 1 16 16 = 0 ∧ c.opcode = 18) ∧
    (∃ (r : RingId) (c : Cur) (s : State), s.settled = true ∧ s.starts (↑r) c ∧ (c.length = if bitAt (c.word 1) 14 = true then 2 else 1) ∧
      c.op 1 4 5 ≤ 20 ∧ (if bitAt (c.word 1) 14 = true then c.op 1 9 5 = 0 else c.op 1 9 5 ≤ 20) ∧
      c.op 1 16 16 = 0 ∧ c.opcode = 19) ∧
    (∃ (r : RingId) (c : Cur) (s : State), s.settled = true ∧ s.starts (↑r) c ∧ (c.length = if bitAt (c.word 1) 14 = true then 2 else 1) ∧
      c.op 1 4 5 ≤ 20 ∧ (if bitAt (c.word 1) 14 = true then c.op 1 9 5 = 0 else c.op 1 9 5 ≤ 20) ∧
      c.op 1 16 16 = 0 ∧ c.opcode = 20) ∧
    (∃ (r : RingId) (c : Cur) (s : State), s.settled = true ∧ s.starts (↑r) c ∧ (c.length = if bitAt (c.word 1) 14 = true then 2 else 1) ∧
      c.op 1 4 5 ≤ 20 ∧ (if bitAt (c.word 1) 14 = true then c.op 1 9 5 = 0 else c.op 1 9 5 ≤ 20) ∧
      c.op 1 16 16 = 0 ∧ c.opcode = 21) ∧
    (∃ (r : RingId) (c : Cur) (s : State), s.settled = true ∧ s.starts (↑r) c ∧ (c.length = if bitAt (c.word 1) 14 = true then 2 else 1) ∧
      c.op 1 4 5 ≤ 20 ∧ (if bitAt (c.word 1) 14 = true then c.op 1 9 5 = 0 else c.op 1 9 5 ≤ 20) ∧
      c.op 1 16 16 = 0 ∧ c.opcode = 23 ∧ c.op 1 0 4 = 0) ∧
    (∃ (r : RingId) (c : Cur) (s : State), s.settled = true ∧ s.starts (↑r) c ∧ c.opcode = 22 ∧ c.length = 1 ∧ c.op 1 4 5 ≤ 20 ∧
      (if bitAt (c.word 1) 14 = true then c.op 1 9 5 = 0 else c.op 1 9 5 ≤ 20) ∧ c.op 1 24 8 = 0 ∧
      (bitAt (c.word 1) 14 = true ∨ c.op 1 18 6 = 0) ∧
      (((if bitAt (c.word 1) 14 = true then c.op 1 18 6 else s.src (↑r) (c.op 1 9 5)) % if bitAt (c.word 1) 15 = true then 32 else 64) = 0)) ∧
    (∃ (r : RingId) (c : Cur) (s : State), s.settled = true ∧ s.starts (↑r) c ∧ c.opcode = 22 ∧ c.length = 1 ∧ c.op 1 4 5 ≤ 20 ∧
      (if bitAt (c.word 1) 14 = true then c.op 1 9 5 = 0 else c.op 1 9 5 ≤ 20) ∧ c.op 1 24 8 = 0 ∧
      (bitAt (c.word 1) 14 = true ∨ c.op 1 18 6 = 0) ∧
      (0 < (if bitAt (c.word 1) 14 = true then c.op 1 18 6 else s.src (↑r) (c.op 1 9 5)) % if bitAt (c.word 1) 15 = true then 32 else 64) ∧
      c.op 1 16 2 = 0) ∧
    (∃ (r : RingId) (c : Cur) (s : State), s.settled = true ∧ s.starts (↑r) c ∧ c.opcode = 22 ∧ c.length = 1 ∧ c.op 1 4 5 ≤ 20 ∧
      (if bitAt (c.word 1) 14 = true then c.op 1 9 5 = 0 else c.op 1 9 5 ≤ 20) ∧ c.op 1 24 8 = 0 ∧
      (bitAt (c.word 1) 14 = true ∨ c.op 1 18 6 = 0) ∧
      (0 < (if bitAt (c.word 1) 14 = true then c.op 1 18 6 else s.src (↑r) (c.op 1 9 5)) % if bitAt (c.word 1) 15 = true then 32 else 64) ∧
      c.op 1 16 2 = 1) ∧
    (∃ (r : RingId) (c : Cur) (s : State), s.settled = true ∧ s.starts (↑r) c ∧ c.opcode = 22 ∧ c.length = 1 ∧ c.op 1 4 5 ≤ 20 ∧
      (if bitAt (c.word 1) 14 = true then c.op 1 9 5 = 0 else c.op 1 9 5 ≤ 20) ∧ c.op 1 24 8 = 0 ∧
      (bitAt (c.word 1) 14 = true ∨ c.op 1 18 6 = 0) ∧
      (0 < (if bitAt (c.word 1) 14 = true then c.op 1 18 6 else s.src (↑r) (c.op 1 9 5)) % if bitAt (c.word 1) 15 = true then 32 else 64) ∧
      c.op 1 16 2 = 2) ∧
    (∃ (r : RingId) (c : Cur) (s : State), s.settled = true ∧ s.starts (↑r) c ∧ c.opcode = 22 ∧ c.length = 1 ∧ c.op 1 4 5 ≤ 20 ∧
      (if bitAt (c.word 1) 14 = true then c.op 1 9 5 = 0 else c.op 1 9 5 ≤ 20) ∧ c.op 1 24 8 = 0 ∧
      (bitAt (c.word 1) 14 = true ∨ c.op 1 18 6 = 0) ∧
      (0 < (if bitAt (c.word 1) 14 = true then c.op 1 18 6 else s.src (↑r) (c.op 1 9 5)) % if bitAt (c.word 1) 15 = true then 32 else 64) ∧
      c.op 1 16 2 = 3) :=
  ⟨⟨(0 : RingId), (curs computed)[0]'(by decide), computed[0]'(by decide), by unfold State.starts State.runs; decide +kernel⟩,
   ⟨(0 : RingId), (curs computed)[3]'(by decide), computed[3]'(by decide), by unfold State.starts State.runs; decide +kernel⟩,
   ⟨(0 : RingId), (curs computed)[8]'(by decide), computed[8]'(by decide), by unfold State.starts State.runs; decide +kernel⟩,
   ⟨(0 : RingId), (curs computed)[13]'(by decide), computed[13]'(by decide), by unfold State.starts State.runs; decide +kernel⟩,
   ⟨(0 : RingId), (curs computed)[18]'(by decide), computed[18]'(by decide), by unfold State.starts State.runs; decide +kernel⟩,
   ⟨(0 : RingId), (curs computed)[23]'(by decide), computed[23]'(by decide), by unfold State.starts State.runs; decide +kernel⟩,
   ⟨(0 : RingId), (curs computed)[28]'(by decide), computed[28]'(by decide), by unfold State.starts State.runs; decide +kernel⟩,
   ⟨(0 : RingId), (curs computed)[31]'(by decide), computed[31]'(by decide), by unfold State.starts State.runs; decide +kernel⟩,
   ⟨(0 : RingId), (curs computed)[30]'(by decide), computed[30]'(by decide), by unfold State.starts State.runs; decide +kernel⟩,
   ⟨(0 : RingId), (curs computed)[35]'(by decide), computed[35]'(by decide), by unfold State.starts State.runs; decide +kernel⟩,
   ⟨(0 : RingId), (curs computed)[40]'(by decide), computed[40]'(by decide), by unfold State.starts State.runs; decide +kernel⟩,
   ⟨(0 : RingId), (curs computed)[45]'(by decide), computed[45]'(by decide), by unfold State.starts State.runs; decide +kernel⟩⟩

theorem test_meets_ControlFlow :
    (∃ (r : RingId) (c : Cur) (s : State), s.settled = true ∧ s.starts (↑r) c ∧ c.opcode = 0) ∧
    (∃ (r : RingId) (c : Cur) (s : State), s.settled = true ∧ s.starts (↑r) c ∧ c.opcode = 1 ∧ c.length = 0) ∧
    (∃ (r : RingId) (c : Cur) (s : State), s.settled = true ∧ s.starts (↑r) c ∧ (s.ring ↑r).kind = 2 ∧ c.length = 1 ∧ c.op 1 21 3 = 0 ∧
      c.op 1 25 7 = 0 ∧ c.opcode = 2) ∧
    (∃ (r : RingId) (c : Cur) (s : State), s.settled = true ∧ s.starts (↑r) c ∧ (s.ring ↑r).kind = 2 ∧ c.length = 1 ∧ c.op 1 21 3 = 0 ∧
      c.op 1 25 7 = 0 ∧ c.opcode = 5 ∧ (s.thr ↑r).stack.length < 8) ∧
    (∃ (r : RingId) (c : Cur) (s : State), s.settled = true ∧ s.starts (↑r) c ∧ (s.ring ↑r).kind = 2 ∧ c.length = 1 ∧ c.op 1 21 3 = 0 ∧
      c.op 1 25 7 = 0 ∧ c.opcode = 5 ∧ 8 ≤ (s.thr ↑r).stack.length ∧ (s.ring ↑r).cplEn = false) ∧
    (∃ (r : RingId) (c : Cur) (s : State), s.settled = true ∧ s.starts (↑r) c ∧ (s.ring ↑r).kind = 2 ∧ c.opcode = 4 ∧ c.length = 1 ∧
      c.op 1 17 4 ≠ 0 ∧ c.op 1 21 11 = 0) ∧
    (∃ (r : RingId) (c : Cur) (s : State) (w : Nat) (rest : List Nat), s.settled = true ∧ s.starts (↑r) c ∧ (s.ring ↑r).kind = 2 ∧ c.length = 0 ∧ c.opcode = 6 ∧
      (s.thr ↑r).stack = w :: rest) ∧
    (∃ (r : RingId) (c : Cur) (s : State), s.settled = true ∧ s.starts (↑r) c ∧ (s.ring ↑r).kind = 2 ∧ c.length = 0 ∧ c.opcode = 6 ∧
      (s.thr ↑r).stack = [] ∧ (s.ring ↑r).cplEn = false) ∧
    (∃ (r : RingId) (c : Cur) (s : State), s.settled = true ∧ s.starts (↑r) c ∧ (s.ring ↑r).kind = 2 ∧ c.length = 0 ∧ c.opcode = 9 ∧
      s.recordWanted (↑r) c 0 = false) :=
  ⟨⟨(0 : RingId), (curs flow)[0]'(by decide), flow[0]'(by decide), by unfold State.starts State.runs; decide +kernel⟩,
   ⟨(0 : RingId), (curs flow)[2]'(by decide), flow[2]'(by decide), by unfold State.starts State.runs; decide +kernel⟩,
   ⟨(0 : RingId), (curs flow)[4]'(by decide), flow[4]'(by decide), by unfold State.starts State.runs; decide +kernel⟩,
   ⟨(0 : RingId), (curs flow)[6]'(by decide), flow[6]'(by decide), by unfold State.starts State.runs; decide +kernel⟩,
   ⟨(0 : RingId), (curs flow)[6]'(by decide), flow[7]'(by decide), by unfold State.starts State.runs; decide +kernel⟩,
   ⟨(0 : RingId), (curs flow)[9]'(by decide), flow[9]'(by decide), by unfold State.starts State.runs; decide +kernel⟩,
   ⟨(0 : RingId), (curs flow)[12]'(by decide), flow[12]'(by decide), 4, [(5 : Nat)], by unfold State.starts State.runs; decide +kernel⟩,
   ⟨(0 : RingId), (curs flow)[12]'(by decide), flow[13]'(by decide), by unfold State.starts State.runs; decide +kernel⟩,
   ⟨(0 : RingId), (curs flow)[14]'(by decide), flow[14]'(by decide), by unfold State.starts State.runs; decide +kernel⟩⟩

theorem test_meets_InstructionEnds :
    (∃ (r : RingId) (c : Cur) (s : State), s.settled = true ∧ s.runs (↑r) c ∧ c.started = false ∧ s.fenceHeld (↑r) c = false ∧
      (c.flagF = false ∨ s.fenceRead ↑r = false) ∧ c.opcode ≠ 1 ∧ (s.ring ↑r).cplEn = false ∧
      listedOpcode c.opcode = false) ∧
    (∃ (r : RingId) (c : Cur) (s : State), s.settled = true ∧ s.runs (↑r) c ∧ c.started = false ∧ s.fenceHeld (↑r) c = false ∧
      (c.flagF = false ∨ s.fenceRead ↑r = false) ∧ c.opcode ≠ 1 ∧ (s.ring ↑r).cplEn = false ∧ c.opcode = 0 ∧
      c.headerOk = false) ∧
    (∃ (r : RingId) (c : Cur) (s : State), s.settled = true ∧ s.runs (↑r) c ∧ c.started = false ∧ s.fenceHeld (↑r) c = false ∧
      (c.flagF = false ∨ s.fenceRead ↑r = false) ∧ c.opcode ≠ 1 ∧ (s.ring ↑r).cplEn = false ∧
      c.opcode = 17 ∧ (c.length ≠ if bitAt (c.word 1) 14 = true then 2 else 1)) ∧
    (∃ (r : RingId) (c : Cur) (s : State), s.settled = true ∧ s.runs (↑r) c ∧ c.started = false ∧ s.fenceHeld (↑r) c = false ∧
      (c.flagF = false ∨ s.fenceRead ↑r = false) ∧ c.opcode ≠ 1 ∧ (s.ring ↑r).cplEn = false ∧
      c.opcode = 17 ∧ (c.length = if bitAt (c.word 1) 14 = true then 2 else 1) ∧
      (c.headerOk = false ∨ 20 < c.op 1 4 5 ∨ c.op 1 16 16 ≠ 0)) ∧
    (∃ (r : RingId) (c : Cur) (s : State), s.settled = true ∧ s.runs (↑r) c ∧ c.started = false ∧ s.fenceHeld (↑r) c = false ∧
      (c.flagF = false ∨ s.fenceRead ↑r = false) ∧ c.opcode ≠ 1 ∧ (s.ring ↑r).cplEn = false ∧ c.opcode = 2 ∧
      c.length = 1 ∧ c.headerOk = true ∧ c.op 1 21 3 = 0 ∧ c.op 1 25 7 = 0 ∧ (s.ring ↑r).kind = 0) ∧
    (∃ (r : RingId) (c : Cur) (s : State), s.settled = true ∧ s.starts (↑r) c ∧ c.opcode = 0 ∧ (s.ring ↑r).kind = 0 ∧
      s.recordWanted (↑r) c 0 = false) ∧
    (∃ (r : RingId) (c : Cur) (s : State), s.settled = true ∧ s.starts (↑r) c ∧ c.opcode = 0 ∧ (s.ring ↑r).kind = 0 ∧
      s.recordWanted (↑r) c 0 = true ∧ (s.ring (4 * (↑r / 4) + (s.ring ↑r).cpl)).kind = 1 ∧
      (s.ring (4 * (↑r / 4) + (s.ring ↑r).cpl)).state = RingState.running ∧
      (s.ring (4 * (↑r / 4) + (s.ring ↑r).cpl)).translated = false ∧ (s.ring ↑r).cpl < 4 ∧
      s.recordMay (4 * (↑r / 4) + (s.ring ↑r).cpl) { type := 1, status := 0, tag := c.tag, retried := c.retried, from_ := ↑r, body := [BitVec.ofNat 32 c.progress, reg32 [place c.pos 0 17], 0] } = true ∧
      (s.ring (4 * (↑r / 4) + (s.ring ↑r).cpl)).slots ≤ 65536) ∧
    (∃ (r : RingId) (c : Cur) (s : State), s.settled = true ∧ s.starts (↑r) c ∧ c.opcode = 0 ∧ (s.ring ↑r).kind = 0 ∧
      s.recordWanted (↑r) c 0 = true ∧
      ((s.ring (4 * (↑r / 4) + (s.ring ↑r).cpl)).kind ≠ 1 ∨ (s.ring (4 * (↑r / 4) + (s.ring ↑r).cpl)).state ≠ RingState.running)) :=
  ⟨⟨(0 : RingId), (curs ends)[0]'(by decide), ends[0]'(by decide), by unfold State.runs; decide +kernel⟩,
   ⟨(0 : RingId), (curs ends)[2]'(by decide), ends[2]'(by decide), by unfold State.runs; decide +kernel⟩,
   ⟨(0 : RingId), (curs ends)[3]'(by decide), ends[3]'(by decide), by unfold State.runs; decide +kernel⟩,
   ⟨(0 : RingId), (curs ends)[4]'(by decide), ends[4]'(by decide), by unfold State.runs; decide +kernel⟩,
   ⟨(0 : RingId), (curs ends)[7]'(by decide), ends[7]'(by decide), by unfold State.runs; decide +kernel⟩,
   ⟨(0 : RingId), (curs ends)[8]'(by decide), ends[8]'(by decide), by unfold State.starts State.runs; decide +kernel⟩,
   ⟨(0 : RingId), (curs ends)[10]'(by decide), ends[10]'(by decide), by unfold State.starts State.runs; decide +kernel⟩,
   ⟨(0 : RingId), (curs ends)[10]'(by decide), ends[11]'(by decide), by unfold State.starts State.runs; decide +kernel⟩⟩

theorem test_meets_Waits :
    (∃ (r : RingId) (c : Cur) (s : State) (v : Nat), s.settled = true ∧ s.runs (↑r) c ∧ (c.opcode = 7 ∨ c.opcode = 8) ∧ c.started = true ∧
      c.reply = some (0, v) ∧ c.opcode = 7) ∧
    (∃ (r : RingId) (c : Cur) (s : State) (v : Nat), s.settled = true ∧ s.runs (↑r) c ∧ (c.opcode = 7 ∨ c.opcode = 8) ∧ c.started = true ∧
      c.reply = some (0, v) ∧ c.opcode = 8 ∧ c.op 1 0 3 = 0) ∧
    (∃ (r : RingId) (c : Cur) (s : State) (v : Nat), s.settled = true ∧ s.runs (↑r) c ∧ c.opcode = 8 ∧ c.started = true ∧ c.op 1 0 3 ≠ 1 ∧
      c.reply = some (18, v)) ∧
    (∃ (r : RingId) (c : Cur) (s : State), s.settled = true ∧ s.runs (↑r) c ∧ s.starts (↑r) c ∧ c.opcode = 7 ∧ c.op 1 2 2 = 0 ∧ c.op 1 8 24 = 0 ∧
      c.op 1 0 2 = 0 ∧ c.length = 2) ∧
    (∃ (r : RingId) (c : Cur) (s : State), s.settled = true ∧ s.runs (↑r) c ∧ s.starts (↑r) c ∧ c.opcode = 7 ∧ c.op 1 2 2 = 0 ∧ c.op 1 8 24 = 0 ∧
      c.op 1 0 2 = 1 ∧ c.length = 1) ∧
    (∃ (r : RingId) (c : Cur) (s : State), s.settled = true ∧ s.runs (↑r) c ∧ s.starts (↑r) c ∧ c.opcode = 7 ∧ c.op 1 2 2 = 0 ∧ c.op 1 8 24 = 0 ∧
      c.op 1 0 2 = 2 ∧ c.length = 1 ∧ s.shadow < (s.thr ↑r).reg (c.op 1 4 4)) ∧
    (∃ (r : RingId) (c : Cur) (s : State), s.settled = true ∧ s.runs (↑r) c ∧ s.starts (↑r) c ∧ c.opcode = 7 ∧ c.op 1 2 2 = 0 ∧ c.op 1 8 24 = 0 ∧
      c.op 1 0 2 = 2 ∧ c.length = 1 ∧ (s.thr ↑r).reg (c.op 1 4 4) ≤ s.shadow) ∧
    (∃ (r : RingId) (c : Cur) (s : State), s.settled = true ∧ s.runs (↑r) c ∧ s.starts (↑r) c ∧ c.opcode = 8 ∧ c.length = 2 ∧ c.op 1 3 13 = 0 ∧
      c.op 1 28 4 = 0 ∧ c.op 1 0 3 = 0 ∧ c.op 1 16 12 = 0 ∧ (s.ring ↑r).kind = 2 ∧ (s.thr ↑r).dbPend = true) ∧
    (∃ (r : RingId) (c : Cur) (s : State), s.settled = true ∧ s.runs (↑r) c ∧ s.starts (↑r) c ∧ c.opcode = 8 ∧ c.length = 2 ∧ c.op 1 3 13 = 0 ∧
      c.op 1 28 4 = 0 ∧ c.op 1 0 3 = 0 ∧ c.op 1 16 12 = 0 ∧ (s.ring ↑r).kind = 2 ∧ (s.thr ↑r).dbPend = false) ∧
    (∃ (r : RingId) (c : Cur) (s : State), s.settled = true ∧ s.runs (↑r) c ∧ s.starts (↑r) c ∧ c.opcode = 8 ∧ c.length = 2 ∧ c.op 1 3 13 = 0 ∧
      c.op 1 28 4 = 0 ∧ c.op 1 0 3 = 2 ∧ c.op 1 16 12 = 0 ∧ (s.thr ↑r).ppsPend = true) ∧
    (∃ (r : RingId) (c : Cur) (s : State), s.settled = true ∧ s.runs (↑r) c ∧ s.starts (↑r) c ∧ c.opcode = 8 ∧ c.length = 2 ∧ c.op 1 3 13 = 0 ∧
      c.op 1 28 4 = 0 ∧ c.op 1 0 3 = 2 ∧ c.op 1 16 12 = 0 ∧ (s.thr ↑r).ppsPend = false) ∧
    (∃ (r : RingId) (c : Cur) (s : State), s.settled = true ∧ s.runs (↑r) c ∧ s.starts (↑r) c ∧ c.opcode = 8 ∧ c.length = 2 ∧ c.op 1 3 13 = 0 ∧
      c.op 1 28 4 = 0 ∧ c.op 1 0 3 = 1 ∧ s.ownsPartner (↑r) (c.op 1 16 12) = true ∧
      (s.partner (c.op 1 16 12)).frames ≠ []) ∧
    (∃ (r : RingId) (c : Cur) (s : State), s.settled = true ∧ s.runs (↑r) c ∧ s.starts (↑r) c ∧ c.opcode = 8 ∧ c.length = 2 ∧ c.op 1 3 13 = 0 ∧
      c.op 1 28 4 = 0 ∧ c.op 1 0 3 = 1 ∧ s.ownsPartner (↑r) (c.op 1 16 12) = true ∧
      (s.partner (c.op 1 16 12)).frames = [] ∧ s.portState (s.partner (c.op 1 16 12)).port ≠ 5) ∧
    (∃ (r : RingId) (s : State) (n : Nat), s.settled = true ∧ (s.thr ↑r).wait = Wait.delay n) ∧
    (∃ (r : RingId) (s : State) (n : Nat), s.settled = true ∧ (s.thr ↑r).wait = Wait.deadline n) ∧
    (∃ (r : RingId) (s : State) (a : Nat) (b : Nat) (n : Nat), s.settled = true ∧ (s.thr ↑r).wait = Wait.event a b n) :=
  ⟨⟨(0 : RingId), (curs waits)[0]'(by decide), waits[0]'(by decide), 0, by unfold State.runs; decide +kernel⟩,
   ⟨(0 : RingId), (curs waits)[1]'(by decide), waits[1]'(by decide), 0, by unfold State.runs; decide +kernel⟩,
   ⟨(0 : RingId), (curs waits)[2]'(by decide), waits[2]'(by decide), 0, by unfold State.runs; decide +kernel⟩,
   ⟨(0 : RingId), (curs waits)[3]'(by decide), waits[3]'(by decide), by unfold State.starts State.runs; decide +kernel⟩,
   ⟨(0 : RingId), (curs waits)[4]'(by decide), waits[4]'(by decide), by unfold State.starts State.runs; decide +kernel⟩,
   ⟨(0 : RingId), (curs waits)[5]'(by decide), waits[5]'(by decide), by unfold State.starts State.runs; decide +kernel⟩,
   ⟨(0 : RingId), (curs waits)[6]'(by decide), waits[6]'(by decide), by unfold State.starts State.runs; decide +kernel⟩,
   ⟨(0 : RingId), (curs waits)[7]'(by decide), waits[8]'(by decide), by unfold State.starts State.runs; decide +kernel⟩,
   ⟨(0 : RingId), (curs waits)[7]'(by decide), waits[7]'(by decide), by unfold State.starts State.runs; decide +kernel⟩,
   ⟨(0 : RingId), (curs waits)[9]'(by decide), waits[10]'(by decide), by unfold State.starts State.runs; decide +kernel⟩,
   ⟨(0 : RingId), (curs waits)[9]'(by decide), waits[9]'(by decide), by unfold State.starts State.runs; decide +kernel⟩,
   ⟨(0 : RingId), (curs waits)[11]'(by decide), waits[11]'(by decide), by unfold State.starts State.runs; decide +kernel⟩,
   ⟨(0 : RingId), (curs waits)[11]'(by decide), waits[12]'(by decide), by unfold State.starts State.runs; decide +kernel⟩,
   ⟨(0 : RingId), waits[13]'(by decide), (5 : Nat), by decide +kernel⟩,
   ⟨(0 : RingId), waits[14]'(by decide), (5 : Nat), by decide +kernel⟩,
   ⟨(0 : RingId), waits[16]'(by decide), 0, 0, (5 : Nat), by decide +kernel⟩⟩

def branches (c z n : Bool) : List State := (List.range 16).map fun k => runs 2 (insn 3 [77 + k * 2 ^ 20]) fun t => { t with z := z, c := c, n := n, s := 0x12 }
def compare : List State := [runs 2 (insn 0x17 [src 0 1 2]), runs 2 (insn 0x17 [src 0 2 0 + immB + w32, 9])]

theorem test_meets_BranchConditions :
    (∃ (r : RingId) (c : Cur) (s : State), s.settled = true ∧ s.starts (↑r) c ∧ (s.ring ↑r).kind = 2 ∧ c.opcode = 3 ∧ c.length = 1 ∧
      c.op 1 17 3 = 0 ∧ c.op 1 24 8 = 0 ∧ c.op 1 20 4 = 0) ∧
    (∃ (r : RingId) (c : Cur) (s : State), s.settled = true ∧ s.starts (↑r) c ∧ (s.ring ↑r).kind = 2 ∧ c.opcode = 3 ∧ c.length = 1 ∧
      c.op 1 17 3 = 0 ∧ c.op 1 24 8 = 0 ∧ c.op 1 20 4 = 1) ∧
    (∃ (r : RingId) (c : Cur) (s : State), s.settled = true ∧ s.starts (↑r) c ∧ (s.ring ↑r).kind = 2 ∧ c.opcode = 3 ∧ c.length = 1 ∧
      c.op 1 17 3 = 0 ∧ c.op 1 24 8 = 0 ∧ c.op 1 20 4 = 2) ∧
    (∃ (r : RingId) (c : Cur) (s : State), s.settled = true ∧ s.starts (↑r) c ∧ (s.ring ↑r).kind = 2 ∧ c.opcode = 3 ∧ c.length = 1 ∧
      c.op 1 17 3 = 0 ∧ c.op 1 24 8 = 0 ∧ c.op 1 20 4 = 3) ∧
    (∃ (r : RingId) (c : Cur) (s : State), s.settled = true ∧ s.starts (↑r) c ∧ (s.ring ↑r).kind = 2 ∧ c.opcode = 3 ∧ c.length = 1 ∧
      c.op 1 17 3 = 0 ∧ c.op 1 24 8 = 0 ∧ c.op 1 20 4 = 4) ∧
    (∃ (r : RingId) (c : Cur) (s : State), s.settled = true ∧ s.starts (↑r) c ∧ (s.ring ↑r).kind = 2 ∧ c.opcode = 3 ∧ c.length = 1 ∧
      c.op 1 17 3 = 0 ∧ c.op 1 24 8 = 0 ∧ c.op 1 20 4 = 5) ∧
    (∃ (r : RingId) (c : Cur) (s : State), s.settled = true ∧ s.starts (↑r) c ∧ (s.ring ↑r).kind = 2 ∧ c.opcode = 3 ∧ c.length = 1 ∧
      c.op 1 17 3 = 0 ∧ c.op 1 24 8 = 0 ∧ c.op 1 20 4 = 6) ∧
    (∃ (r : RingId) (c : Cur) (s : State), s.settled = true ∧ s.starts (↑r) c ∧ (s.ring ↑r).kind = 2 ∧ c.opcode = 3 ∧ c.length = 1 ∧
      c.op 1 17 3 = 0 ∧ c.op 1 24 8 = 0 ∧ c.op 1 20 4 = 7) ∧
    (∃ (r : RingId) (c : Cur) (s : State), s.settled = true ∧ s.starts (↑r) c ∧ (s.ring ↑r).kind = 2 ∧ c.opcode = 3 ∧ c.length = 1 ∧
      c.op 1 17 3 = 0 ∧ c.op 1 24 8 = 0 ∧ c.op 1 20 4 = 8) ∧
    (∃ (r : RingId) (c : Cur) (s : State), s.settled = true ∧ s.starts (↑r) c ∧ (s.ring ↑r).kind = 2 ∧ c.opcode = 3 ∧ c.length = 1 ∧
      c.op 1 17 3 = 0 ∧ c.op 1 24 8 = 0 ∧ c.op 1 20 4 = 9) ∧
    (∃ (r : RingId) (c : Cur) (s : State), s.settled = true ∧ s.starts (↑r) c ∧ (s.ring ↑r).kind = 2 ∧ c.opcode = 3 ∧ c.length = 1 ∧
      c.op 1 17 3 = 0 ∧ c.op 1 24 8 = 0 ∧ c.op 1 20 4 = 10) ∧
    (∃ (r : RingId) (c : Cur) (s : State), s.settled = true ∧ s.starts (↑r) c ∧ (s.ring ↑r).kind = 2 ∧ c.opcode = 3 ∧ c.length = 1 ∧
      c.op 1 17 3 = 0 ∧ c.op 1 24 8 = 0 ∧ 11 ≤ c.op 1 20 4 ∧ (s.ring ↑r).cplEn = false) ∧
    (∃ (r : RingId) (c : Cur) (s : State), s.settled = true ∧ s.starts (↑r) c ∧ (s.ring ↑r).kind = 2 ∧ c.opcode = 23 ∧ c.op 1 0 4 = 0 ∧
      c.op 1 16 16 = 0 ∧ c.op 1 4 5 ≤ 20 ∧ (c.length = if bitAt (c.word 1) 14 = true then 2 else 1) ∧
      (if bitAt (c.word 1) 14 = true then c.op 1 9 5 = 0 else c.op 1 9 5 ≤ 20)) :=
  ⟨⟨(0 : RingId), (curs (branches true true true))[0]'(by decide), (branches true true true)[0]'(by decide), by unfold State.starts State.runs; decide +kernel⟩,
   ⟨(0 : RingId), (curs (branches true true true))[1]'(by decide), (branches true true true)[1]'(by decide), by unfold State.starts State.runs; decide +kernel⟩,
   ⟨(0 : RingId), (curs (branches true true true))[2]'(by decide), (branches true true true)[2]'(by decide), by unfold State.starts State.runs; decide +kernel⟩,
   ⟨(0 : RingId), (curs (branches true true true))[3]'(by decide), (branches true true true)[3]'(by decide), by unfold State.starts State.runs; decide +kernel⟩,
   ⟨(0 : RingId), (curs (branches true true true))[4]'(by decide), (branches true true true)[4]'(by decide), by unfold State.starts State.runs; decide +kernel⟩,
   ⟨(0 : RingId), (curs (branches true true true))[5]'(by decide), (branches true true true)[5]'(by decide), by unfold State.starts State.runs; decide +kernel⟩,
   ⟨(0 : RingId), (curs (branches true true true))[6]'(by decide), (branches true true true)[6]'(by decide), by unfold State.starts State.runs; decide +kernel⟩,
   ⟨(0 : RingId), (curs (branches true true true))[7]'(by decide), (branches true true true)[7]'(by decide), by unfold State.starts State.runs; decide +kernel⟩,
   ⟨(0 : RingId), (curs (branches true true true))[8]'(by decide), (branches true true true)[8]'(by decide), by unfold State.starts State.runs; decide +kernel⟩,
   ⟨(0 : RingId), (curs (branches true true true))[9]'(by decide), (branches true true true)[9]'(by decide), by unfold State.starts State.runs; decide +kernel⟩,
   ⟨(0 : RingId), (curs (branches true true true))[10]'(by decide), (branches true true true)[10]'(by decide), by unfold State.starts State.runs; decide +kernel⟩,
   ⟨(0 : RingId), (curs (branches true true true))[11]'(by decide), (branches true true true)[11]'(by decide), by unfold State.starts State.runs; decide +kernel⟩,
   ⟨(0 : RingId), (curs compare)[0]'(by decide), compare[0]'(by decide), by unfold State.starts State.runs; decide +kernel⟩⟩

/-- An earlier access of the ring is still to come. -/
def late (s : State) (r : Nat := 0) : State := { s with behind := [{ who := .ring r, write := false, addr := 8, len := 4 }] }
/-- TEST, with a crossing forced full. -/
def forced (n : Nat) (s : State) : State := { s with mode := (st .test).mode, ptu := { s.ptu with qQueue := n, qCycles := 9 } }
def uregMode (i mode : Nat) (s : State) : State := { s with frames := [(i * 168 + 164, { data := BitVec.ofNat 2048 mode })] }
def fourth (s : State) : State :=
  { s with rings := s.rings.map fun e => (e.1 + 4, e.2), threads := s.threads.map fun e => (e.1 + 4, e.2), ferry := { pairs := [(0, { held := some 4 })] } }
/-- Accesses of an island by its DIA address, and accesses that end with an error. -/
def beyond : List State :=
  [uregMode 3 1 (runs 2 (insn 0x20 [src 4 0 0, 0x10C0008])), uregMode 3 1 (runs 2 (insn 0x20 [src 4 0 1, 0x10C0008])),
   uregMode 3 1 (runs 2 (insn 0x21 [1, 0x10C0008])), uregMode 3 1 (runs 2 (insn 0x21 [1 + 2 ^ 10, 0x10C0008])),
   runs 2 (insn 0x20 [src 4 0 0, 6]), runs 2 (insn 0x21 [1, 0x900000])] ++
  [insn 0x20 [src 4 0 0, 8], insn 0x21 [1, 8], insn 0x22 [src 4 0 0 + 3 * 2 ^ 16, 8], insn 0x23 [1 + 3 * 2 ^ 16, 8], insn 0x22 [src 4 0 0 + 3 * 2 ^ 16, 0x40000],
   insn 0x23 [1 + 3 * 2 ^ 16, 0x40000], rep (insn 0x20 [src 4 0 0, 8]) (0, 9), rep (insn 0x21 [1, 8]) (0x24, 0)].map fun c => fourth (runs 0 c)
def device : List State :=
  [runs 2 (insn 0x20 [src 4 2 0, 1]), runs 0 (insn 0x20 [src 4 2 1, 1]), runs 2 (insn 0x21 [1 + 32 * 2, 1]), runs 0 (insn 0x21 [1 + 32 * 2 + 2 ^ 10, 1]),
   uregMode 3 1 (runs 2 (insn 0x22 [src 4 2 0 + 3 * 2 ^ 16, 1])), uregMode 3 2 (runs 2 (insn 0x22 [src 4 2 0 + 3 * 2 ^ 16, 1])), uregMode 3 1 (runs 2 (insn 0x23 [1 + 32 * 2 + 3 * 2 ^ 16, 1])),
   uregMode 3 2 (runs 2 (insn 0x23 [1 + 32 * 2 + 3 * 2 ^ 16, 0xf5])),
   runs 2 (rep (insn 0x22 [src 4 2 0 + 3 * 2 ^ 16, 1]) (0, 9)), runs 2 (rep (insn 0x23 [1 + 32 * 2 + 3 * 2 ^ 16, 1]) (0, 0))].map fun s => { s with harbour := [(8, 1), (11, 4), (12, 255)] }

theorem test_meets_DeviceAccess :
    (∃ (r : RingId) (c : Cur) (s : State), s.settled = true ∧ s.runs (↑r) c ∧ s.starts (↑r) c ∧ c.length = 2 ∧ s.behindOwn ↑r = false ∧
      c.opcode = 32 ∧ c.op 1 4 5 ≤ 20 ∧ c.op 1 10 22 = 0 ∧
      (((s.src (↑r) (c.op 1 4 5) + c.word 2) % 2 ^ 32 % if bitAt (c.word 1) 9 = true then 8 else 4) = 0) ∧
      (((s.src (↑r) (c.op 1 4 5) + c.word 2) % 2 ^ 32 + if bitAt (c.word 1) 9 = true then 8 else 4) ≤ 8388608) ∧
      s.ownsBytes (↑r) ((s.src (↑r) (c.op 1 4 5) + c.word 2) % 2 ^ 32) (if bitAt (c.word 1) 9 = true then 8 else 4) = true ∧
      s.harbourBad = [] ∧ s.harbourSoft = []) ∧
    (∃ (r : RingId) (c : Cur) (s : State) (i : IslandId) (off : Nat), s.settled = true ∧ s.runs (↑r) c ∧ s.starts (↑r) c ∧ c.length = 2 ∧ s.behindOwn ↑r = false ∧
      c.opcode = 32 ∧ c.op 1 4 5 ≤ 20 ∧ c.op 1 10 22 = 0 ∧
      (s.src (↑r) (c.op 1 4 5) + c.word 2) % 2 ^ 32 = 16777216 + 262144 * ↑i + off ∧
      s.ownsIsland ↑r ↑i = true ∧ (s.isl ↑i).sealed = false ∧ s.uregMode ↑i ≠ 0 ∧ off < 262144 ∧
      ((off % if bitAt (c.word 1) 9 = true then 8 else 4) = 0) ∧ (s.uregMode ↑i = 2 → off < 256)) ∧
    (∃ (r : RingId) (c : Cur) (s : State), s.settled = true ∧ s.runs (↑r) c ∧ s.starts (↑r) c ∧ c.length = 2 ∧ s.behindOwn ↑r = false ∧
      c.opcode = 32 ∧ c.op 1 4 5 ≤ 20 ∧ c.op 1 10 22 = 0 ∧
      (((s.src (↑r) (c.op 1 4 5) + c.word 2) % 2 ^ 32 % if bitAt (c.word 1) 9 = true then 8 else 4) = 0) ∧
      (((s.src (↑r) (c.op 1 4 5) + c.word 2) % 2 ^ 32 + if bitAt (c.word 1) 9 = true then 8 else 4) ≤ 8388608) ∧
      s.denies (↑r / 4) ((s.src (↑r) (c.op 1 4 5) + c.word 2) % 2 ^ 32) false = true) ∧
    (∃ (r : RingId) (c : Cur) (s : State), s.settled = true ∧ s.runs (↑r) c ∧ s.starts (↑r) c ∧ c.length = 2 ∧ s.behindOwn ↑r = false ∧
      c.opcode = 32 ∧ c.op 1 4 5 ≤ 20 ∧ c.op 1 10 22 = 0 ∧
      (((s.src (↑r) (c.op 1 4 5) + c.word 2) % 2 ^ 32 % if bitAt (c.word 1) 9 = true then 8 else 4) ≠ 0 ∨ 8388608 ≤ (s.src (↑r) (c.op 1 4 5) + c.word 2) % 2 ^ 32 ∧ (s.src (↑r) (c.op 1 4 5) + c.word 2) % 2 ^ 32 < 16777216 ∨ 134479872 ≤ (s.src (↑r) (c.op 1 4 5) + c.word 2) % 2 ^ 32)) ∧
    (∃ (r : RingId) (c : Cur) (s : State), s.settled = true ∧ s.runs (↑r) c ∧ s.starts (↑r) c ∧ c.length = 2 ∧ s.behindOwn ↑r = false ∧
      c.opcode = 33 ∧ c.op 1 0 5 ≤ 20 ∧ c.op 1 5 5 ≤ 20 ∧ c.op 1 11 21 = 0 ∧
      (((s.src (↑r) (c.op 1 5 5) + c.word 2) % 2 ^ 32 % if bitAt (c.word 1) 10 = true then 8 else 4) = 0) ∧
      (((s.src (↑r) (c.op 1 5 5) + c.word 2) % 2 ^ 32 + if bitAt (c.word 1) 10 = true then 8 else 4) ≤ 8388608) ∧
      s.ownsBytes (↑r) ((s.src (↑r) (c.op 1 5 5) + c.word 2) % 2 ^ 32) (if bitAt (c.word 1) 10 = true then 8 else 4) = true ∧
      s.harbourBad = [] ∧ s.harbourSoft = []) ∧
    (∃ (r : RingId) (c : Cur) (s : State) (i : IslandId) (off : Nat), s.settled = true ∧ s.runs (↑r) c ∧ s.starts (↑r) c ∧ c.length = 2 ∧ s.behindOwn ↑r = false ∧
      c.opcode = 33 ∧ c.op 1 0 5 ≤ 20 ∧ c.op 1 5 5 ≤ 20 ∧ c.op 1 11 21 = 0 ∧
      (s.src (↑r) (c.op 1 5 5) + c.word 2) % 2 ^ 32 = 16777216 + 262144 * ↑i + off ∧
      s.ownsIsland ↑r ↑i = true ∧ (s.isl ↑i).sealed = false ∧ s.uregMode ↑i ≠ 0 ∧ off < 262144 ∧
      ((off % if bitAt (c.word 1) 10 = true then 8 else 4) = 0) ∧ (s.uregMode ↑i = 2 → off < 256)) ∧
    (∃ (r : RingId) (c : Cur) (s : State), s.settled = true ∧ s.runs (↑r) c ∧ s.starts (↑r) c ∧ c.length = 2 ∧ s.behindOwn ↑r = false ∧
      c.opcode = 33 ∧ c.op 1 0 5 ≤ 20 ∧ c.op 1 5 5 ≤ 20 ∧ c.op 1 11 21 = 0 ∧
      (((s.src (↑r) (c.op 1 5 5) + c.word 2) % 2 ^ 32 % if bitAt (c.word 1) 10 = true then 8 else 4) = 0) ∧
      (((s.src (↑r) (c.op 1 5 5) + c.word 2) % 2 ^ 32 + if bitAt (c.word 1) 10 = true then 8 else 4) ≤ 8388608) ∧
      s.denies (↑r / 4) ((s.src (↑r) (c.op 1 5 5) + c.word 2) % 2 ^ 32) true = true) ∧
    (∃ (r : RingId) (c : Cur) (s : State), s.settled = true ∧ s.runs (↑r) c ∧ s.starts (↑r) c ∧ c.length = 2 ∧ s.behindOwn ↑r = false ∧
      c.opcode = 33 ∧ c.op 1 0 5 ≤ 20 ∧ c.op 1 5 5 ≤ 20 ∧ c.op 1 11 21 = 0 ∧
      (((s.src (↑r) (c.op 1 5 5) + c.word 2) % 2 ^ 32 % if bitAt (c.word 1) 10 = true then 8 else 4) ≠ 0 ∨ 8388608 ≤ (s.src (↑r) (c.op 1 5 5) + c.word 2) % 2 ^ 32 ∧ (s.src (↑r) (c.op 1 5 5) + c.word 2) % 2 ^ 32 < 16777216 ∨ 134479872 ≤ (s.src (↑r) (c.op 1 5 5) + c.word 2) % 2 ^ 32)) ∧
    (∃ (r : RingId) (c : Cur) (s : State), s.settled = true ∧ s.runs (↑r) c ∧ s.starts (↑r) c ∧ c.length = 2 ∧ s.behindOwn ↑r = false ∧
      c.op 1 16 6 ≤ 47 ∧ c.op 1 22 10 = 0 ∧ c.opcode = 34 ∧ c.op 1 4 5 ≤ 20 ∧ c.op 1 9 7 = 0 ∧
      s.ownsIsland (↑r) (c.op 1 16 6) = true ∧ (s.isl (c.op 1 16 6)).sealed = false ∧
      s.uregMode (c.op 1 16 6) ≠ 0 ∧ s.src (↑r) (c.op 1 4 5) + c.word 2 < 262144 ∧
      (s.src (↑r) (c.op 1 4 5) + c.word 2) % 4 = 0 ∧
      (s.uregMode (c.op 1 16 6) = 2 → s.src (↑r) (c.op 1 4 5) + c.word 2 < 256)) ∧
    (∃ (r : RingId) (c : Cur) (s : State), s.settled = true ∧ s.runs (↑r) c ∧ s.starts (↑r) c ∧ c.length = 2 ∧ s.behindOwn ↑r = false ∧
      c.op 1 16 6 ≤ 47 ∧ c.op 1 22 10 = 0 ∧ c.opcode = 34 ∧ c.op 1 4 5 ≤ 20 ∧ c.op 1 9 7 = 0 ∧
      s.ownsIsland (↑r) (c.op 1 16 6) = false ∧ s.src (↑r) (c.op 1 4 5) + c.word 2 < 262144 ∧
      (s.src (↑r) (c.op 1 4 5) + c.word 2) % 4 = 0) ∧
    (∃ (r : RingId) (c : Cur) (s : State), s.settled = true ∧ s.runs (↑r) c ∧ s.starts (↑r) c ∧ c.length = 2 ∧ s.behindOwn ↑r = false ∧
      c.op 1 16 6 ≤ 47 ∧ c.op 1 22 10 = 0 ∧ c.opcode = 35 ∧ c.op 1 0 5 ≤ 20 ∧ c.op 1 5 5 ≤ 20 ∧
      c.op 1 10 6 = 0 ∧ s.ownsIsland (↑r) (c.op 1 16 6) = true ∧ (s.isl (c.op 1 16 6)).sealed = false ∧
      s.uregMode (c.op 1 16 6) ≠ 0 ∧ s.src (↑r) (c.op 1 5 5) + c.word 2 < 262144 ∧
      (s.src (↑r) (c.op 1 5 5) + c.word 2) % 4 = 0 ∧
      (s.uregMode (c.op 1 16 6) = 2 → s.src (↑r) (c.op 1 5 5) + c.word 2 < 256)) ∧
    (∃ (r : RingId) (c : Cur) (s : State), s.settled = true ∧ s.runs (↑r) c ∧ s.starts (↑r) c ∧ c.length = 2 ∧ s.behindOwn ↑r = false ∧
      c.op 1 16 6 ≤ 47 ∧ c.op 1 22 10 = 0 ∧ c.opcode = 35 ∧ c.op 1 0 5 ≤ 20 ∧ c.op 1 5 5 ≤ 20 ∧
      c.op 1 10 6 = 0 ∧ s.ownsIsland (↑r) (c.op 1 16 6) = false ∧
      s.src (↑r) (c.op 1 5 5) + c.word 2 < 262144 ∧ (s.src (↑r) (c.op 1 5 5) + c.word 2) % 4 = 0) ∧
    (∃ (r : RingId) (c : Cur) (s : State), s.settled = true ∧ s.runs (↑r) c ∧ s.starts (↑r) c ∧ c.length = 2 ∧ c.op 1 16 6 ≤ 47 ∧
      c.op 1 22 10 = 0 ∧ c.opcode = 34 ∧ c.op 1 4 5 ≤ 20 ∧ c.op 1 9 7 = 0 ∧ s.behindOwn ↑r = false ∧
      262144 ≤ s.src (↑r) (c.op 1 4 5) + c.word 2) ∧
    (∃ (r : RingId) (c : Cur) (s : State), s.settled = true ∧ s.runs (↑r) c ∧ s.starts (↑r) c ∧ c.length = 2 ∧ c.op 1 16 6 ≤ 47 ∧
      c.op 1 22 10 = 0 ∧ c.opcode = 34 ∧ c.op 1 4 5 ≤ 20 ∧ c.op 1 9 7 = 0 ∧ s.behindOwn ↑r = true) ∧
    (∃ (r : RingId) (c : Cur) (s : State), s.settled = true ∧ s.runs (↑r) c ∧ s.starts (↑r) c ∧ c.length = 2 ∧ c.op 1 16 6 ≤ 47 ∧
      c.op 1 22 10 = 0 ∧ c.opcode = 35 ∧ c.op 1 0 5 ≤ 20 ∧ c.op 1 5 5 ≤ 20 ∧ c.op 1 10 6 = 0 ∧
      s.behindOwn ↑r = false ∧ 262144 ≤ s.src (↑r) (c.op 1 5 5) + c.word 2) ∧
    (∃ (r : RingId) (c : Cur) (s : State), s.settled = true ∧ s.runs (↑r) c ∧ s.starts (↑r) c ∧ c.length = 2 ∧ c.op 1 16 6 ≤ 47 ∧
      c.op 1 22 10 = 0 ∧ c.opcode = 35 ∧ c.op 1 0 5 ≤ 20 ∧ c.op 1 5 5 ≤ 20 ∧ c.op 1 10 6 = 0 ∧
      s.behindOwn ↑r = true) ∧
    (∃ (r : RingId) (c : Cur) (s : State), s.settled = true ∧ s.runs (↑r) c ∧ s.starts (↑r) c ∧ c.length = 2 ∧ s.behindOwn ↑r = true ∧
      c.opcode = 32 ∧ c.op 1 4 5 ≤ 20 ∧ c.op 1 10 22 = 0) ∧
    (∃ (r : RingId) (c : Cur) (s : State), s.settled = true ∧ s.runs (↑r) c ∧ s.starts (↑r) c ∧ c.length = 2 ∧ s.behindOwn ↑r = true ∧
      c.opcode = 33 ∧ c.op 1 0 5 ≤ 20 ∧ c.op 1 5 5 ≤ 20 ∧ c.op 1 11 21 = 0) ∧
    (∃ (r : RingId) (c : Cur) (s : State) (status : Nat) (v : Nat), s.settled = true ∧ s.runs (↑r) c ∧ c.started = true ∧ c.reply = some (status, v) ∧ status ≠ 8 ∧
      stops status = false ∧ c.opcode = 32) ∧
    (∃ (r : RingId) (c : Cur) (s : State) (status : Nat) (v : Nat), s.settled = true ∧ s.runs (↑r) c ∧ c.started = true ∧ c.reply = some (status, v) ∧ status ≠ 8 ∧
      stops status = false ∧ c.opcode = 33) ∧
    (∃ (r : RingId) (c : Cur) (s : State) (status : Nat) (v : Nat), s.settled = true ∧ s.runs (↑r) c ∧ c.started = true ∧ c.reply = some (status, v) ∧ status ≠ 8 ∧
      stops status = false ∧ c.opcode = 34) ∧
    (∃ (r : RingId) (c : Cur) (s : State) (status : Nat) (v : Nat), s.settled = true ∧ s.runs (↑r) c ∧ c.started = true ∧ c.reply = some (status, v) ∧ status ≠ 8 ∧
      stops status = false ∧ c.opcode = 35) :=
  ⟨⟨(0 : RingId), (curs device)[0]'(by decide), (device ++ device.map late)[0]'(by decide), by unfold State.starts State.runs; decide +kernel⟩,
   ⟨(0 : RingId), (curs4 beyond)[0]'(by decide), beyond[0]'(by decide), (3 : IslandId), 8, by unfold State.starts State.runs; decide +kernel⟩,
   ⟨4, (curs4 beyond)[6]'(by decide), beyond[6]'(by decide), by unfold State.starts State.runs; decide +kernel⟩,
   ⟨(0 : RingId), (curs4 beyond)[4]'(by decide), beyond[4]'(by decide), by unfold State.starts State.runs; decide +kernel⟩,
   ⟨(0 : RingId), (curs device)[2]'(by decide), (device ++ device.map late)[2]'(by decide), by unfold State.starts State.runs; decide +kernel⟩,
   ⟨(0 : RingId), (curs4 beyond)[2]'(by decide), beyond[2]'(by decide), (3 : IslandId), 8, by unfold State.starts State.runs; decide +kernel⟩,
   ⟨4, (curs4 beyond)[7]'(by decide), beyond[7]'(by decide), by unfold State.starts State.runs; decide +kernel⟩,
   ⟨(0 : RingId), (curs4 beyond)[5]'(by decide), beyond[5]'(by decide), by unfold State.starts State.runs; decide +kernel⟩,
   ⟨(0 : RingId), (curs device)[4]'(by decide), (device ++ device.map late)[4]'(by decide), by unfold State.starts State.runs; decide +kernel⟩,
   ⟨4, (curs4 beyond)[8]'(by decide), beyond[8]'(by decide), by unfold State.starts State.runs; decide +kernel⟩,
   ⟨(0 : RingId), (curs device)[6]'(by decide), (device ++ device.map late)[6]'(by decide), by unfold State.starts State.runs; decide +kernel⟩,
   ⟨4, (curs4 beyond)[9]'(by decide), beyond[9]'(by decide), by unfold State.starts State.runs; decide +kernel⟩,
   ⟨4, (curs4 beyond)[10]'(by decide), beyond[10]'(by decide), by unfold State.starts State.runs; decide +kernel⟩,
   ⟨(0 : RingId), (curs device)[4]'(by decide), (device ++ device.map late)[14]'(by decide), by unfold State.starts State.runs; decide +kernel⟩,
   ⟨4, (curs4 beyond)[11]'(by decide), beyond[11]'(by decide), by unfold State.starts State.runs; decide +kernel⟩,
   ⟨(0 : RingId), (curs device)[6]'(by decide), (device ++ device.map late)[16]'(by decide), by unfold State.starts State.runs; decide +kernel⟩,
   ⟨(0 : RingId), (curs device)[0]'(by decide), (device ++ device.map late)[10]'(by decide), by unfold State.starts State.runs; decide +kernel⟩,
   ⟨(0 : RingId), (curs device)[2]'(by decide), (device ++ device.map late)[12]'(by decide), by unfold State.starts State.runs; decide +kernel⟩,
   ⟨4, (curs4 beyond)[12]'(by decide), beyond[12]'(by decide), (0 : Nat), 9, by unfold State.runs; decide +kernel⟩,
   ⟨4, (curs4 beyond)[13]'(by decide), beyond[13]'(by decide), 0x24, (0 : Nat), by unfold State.runs; decide +kernel⟩,
   ⟨(0 : RingId), (curs device)[8]'(by decide), (device ++ device.map late)[8]'(by decide), (0 : Nat), 9, by unfold State.runs; decide +kernel⟩,
   ⟨(0 : RingId), (curs device)[9]'(by decide), (device ++ device.map late)[9]'(by decide), (0 : Nat), (0 : Nat), by unfold State.runs; decide +kernel⟩⟩

def longCopy : Cur := insn 0x30 [2 ^ 11, 0xffe, 0, 8, 0]
def move : List State :=
  [runs 0 (insn 0x30 [0, 0, 0, 0, 0]), runs 0 (insn 0x31 [0, 0, 0, 0, 0]), runs 0 longCopy, runs 0 (insn 0x31 [2 ^ 11, 0xffe, 0, 8, 0]), runs 0 (insn 0x32 [2 ^ 11, 8, 0x100, 0]),
   runs 0 { longCopy with started := true, a0 := 0xffe, a1 := 8, len := 7, staged := some [1, 2] },
   runs 0 { longCopy with started := true, a0 := 0xffe, a1 := 8, len := 7, progress := 2, staged := some [1, 2, 3, 4, 5] },
   late (runs 0 { longCopy with started := true, staged := some [1, 2] }), late (runs 0 { insn 0x31 [2 ^ 11, 0xffe, 0, 8, 0] with started := true }),
   late (runs 0 { insn 0x32 [2 ^ 11, 8, 0x100, 0] with started := true })]

theorem test_meets_DataMovement :
    (∃ (r : RingId) (c : Cur) (s : State), s.settled = true ∧ s.runs (↑r) c ∧ s.harbourBad = [] ∧ s.harbourSoft = [] ∧ s.behindOwn ↑r = true ∧
      c.opcode = 48 ∧ c.started = true ∧ c.staged.isSome = true) ∧
    (∃ (r : RingId) (c : Cur) (s : State), s.settled = true ∧ s.runs (↑r) c ∧ s.harbourBad = [] ∧ s.harbourSoft = [] ∧ s.behindOwn ↑r = true ∧
      c.started = true ∧ c.opcode = 49) ∧
    (∃ (r : RingId) (c : Cur) (s : State), s.settled = true ∧ s.runs (↑r) c ∧ s.harbourBad = [] ∧ s.harbourSoft = [] ∧ s.behindOwn ↑r = true ∧
      c.started = true ∧ c.opcode = 50) ∧
    (∃ (r : RingId) (c : Cur) (s : State), s.settled = true ∧ s.runs (↑r) c ∧ s.harbourBad = [] ∧ s.harbourSoft = [] ∧ s.starts (↑r) c ∧
      c.op 1 0 5 ≤ 20 ∧ c.op 1 5 5 ≤ 20 ∧ c.op 1 10 5 ≤ 20 ∧ c.op 1 15 17 = 0 ∧ c.length = 5 ∧
      s.src (↑r) (c.op 1 10 5) + c.word 5 = 0 ∧ c.opcode = 48 ∧ c.staged = none) ∧
    (∃ (r : RingId) (c : Cur) (s : State), s.settled = true ∧ s.runs (↑r) c ∧ s.harbourBad = [] ∧ s.harbourSoft = [] ∧ s.starts (↑r) c ∧
      c.op 1 0 5 ≤ 20 ∧ c.op 1 5 5 ≤ 20 ∧ c.op 1 10 5 ≤ 20 ∧ c.op 1 15 17 = 0 ∧ c.length = 5 ∧
      s.src (↑r) (c.op 1 10 5) + c.word 5 = 0 ∧ c.opcode = 49 ∧ s.behindOwn ↑r = false) ∧
    (∃ (r : RingId) (c : Cur) (s : State), s.settled = true ∧ s.runs (↑r) c ∧ s.harbourBad = [] ∧ s.harbourSoft = [] ∧ s.starts (↑r) c ∧
      c.op 1 0 5 ≤ 20 ∧ c.op 1 5 5 ≤ 20 ∧ c.op 1 10 5 ≤ 20 ∧ c.op 1 15 17 = 0 ∧ c.length = 5 ∧
      0 < s.src (↑r) (c.op 1 10 5) + c.word 5 ∧
      (s.src (↑r) (c.op 1 5 5) + c.word 4) % 2 ^ 32 + (s.src (↑r) (c.op 1 10 5) + c.word 5) ≤ 8388608 ∧
      s.ownsBytes (↑r) ((s.src (↑r) (c.op 1 5 5) + c.word 4) % 2 ^ 32) (s.src (↑r) (c.op 1 10 5) + c.word 5) = true ∧
      s.ownsBytes (↑r) ((s.src (↑r) (c.op 1 5 5) + c.word 4) % 2 ^ 32) (min (s.src (↑r) (c.op 1 10 5) + c.word 5) (4096 - (s.src (↑r) (c.op 1 0 5) + c.word 2 + 2 ^ 32 * c.word 3) % 2 ^ 64 % 4096)) = true ∧
      c.opcode = 48 ∧ c.staged = none) ∧
    (∃ (r : RingId) (c : Cur) (s : State), s.settled = true ∧ s.runs (↑r) c ∧ s.harbourBad = [] ∧ s.harbourSoft = [] ∧ s.starts (↑r) c ∧
      c.op 1 0 5 ≤ 20 ∧ c.op 1 5 5 ≤ 20 ∧ c.op 1 10 5 ≤ 20 ∧ c.op 1 15 17 = 0 ∧ c.length = 5 ∧
      0 < s.src (↑r) (c.op 1 10 5) + c.word 5 ∧
      (s.src (↑r) (c.op 1 5 5) + c.word 4) % 2 ^ 32 + (s.src (↑r) (c.op 1 10 5) + c.word 5) ≤ 8388608 ∧
      s.ownsBytes (↑r) ((s.src (↑r) (c.op 1 5 5) + c.word 4) % 2 ^ 32) (s.src (↑r) (c.op 1 10 5) + c.word 5) = true ∧
      s.ownsBytes (↑r) ((s.src (↑r) (c.op 1 5 5) + c.word 4) % 2 ^ 32) (min (s.src (↑r) (c.op 1 10 5) + c.word 5) (4096 - (s.src (↑r) (c.op 1 0 5) + c.word 2 + 2 ^ 32 * c.word 3) % 2 ^ 64 % 4096)) = true ∧
      c.opcode = 49 ∧ s.behindOwn ↑r = false) ∧
    (∃ (r : RingId) (c : Cur) (s : State), s.settled = true ∧ s.runs (↑r) c ∧ s.harbourBad = [] ∧ s.harbourSoft = [] ∧ s.starts (↑r) c ∧
      c.op 1 0 5 ≤ 20 ∧ c.op 1 5 5 ≤ 20 ∧ c.op 1 10 5 ≤ 20 ∧ c.op 1 15 17 = 0 ∧ c.opcode = 50 ∧
      c.length = 4 ∧ c.progress = 0 ∧ s.behindOwn ↑r = false ∧
      (s.src (↑r) (c.op 1 0 5) + c.word 2) % 2 ^ 32 + (s.src (↑r) (c.op 1 10 5) + c.word 4) ≤ 8388608 ∧
      (s.src (↑r) (c.op 1 5 5) + c.word 3) % 2 ^ 32 + (s.src (↑r) (c.op 1 10 5) + c.word 4) ≤ 8388608 ∧
      ((s.src (↑r) (c.op 1 0 5) + c.word 2) % 2 ^ 32 + (s.src (↑r) (c.op 1 10 5) + c.word 4) ≤ (s.src (↑r) (c.op 1 5 5) + c.word 3) % 2 ^ 32 ∨ (s.src (↑r) (c.op 1 5 5) + c.word 3) % 2 ^ 32 + (s.src (↑r) (c.op 1 10 5) + c.word 4) ≤ (s.src (↑r) (c.op 1 0 5) + c.word 2) % 2 ^ 32) ∧
      s.ownsBytes (↑r) ((s.src (↑r) (c.op 1 0 5) + c.word 2) % 2 ^ 32) (s.src (↑r) (c.op 1 10 5) + c.word 4) = true ∧
      s.ownsBytes (↑r) ((s.src (↑r) (c.op 1 5 5) + c.word 3) % 2 ^ 32) (s.src (↑r) (c.op 1 10 5) + c.word 4) = true ∧
      0 < s.src (↑r) (c.op 1 10 5) + c.word 4 ∧
      (s.src (↑r) (c.op 1 5 5) + c.word 3) % 2 ^ 32 % 4096 + (s.src (↑r) (c.op 1 10 5) + c.word 4) ≤ 4096) ∧
    (∃ (r : RingId) (c : Cur) (s : State) (bytes : List Byte), s.settled = true ∧ s.runs (↑r) c ∧ s.harbourBad = [] ∧ s.harbourSoft = [] ∧ c.opcode = 48 ∧
      c.started = true ∧ s.behindOwn ↑r = false ∧ c.staged = some bytes ∧
      bytes.length = min (c.len - c.progress) (4096 - (c.a0 + c.progress) % 2 ^ 64 % 4096) ∧
      c.a1 + c.progress + min (c.len - c.progress) (4096 - (c.a0 + c.progress) % 2 ^ 64 % 4096) ≤ 8388608 ∧
      s.ownsBytes (↑r) (c.a1 + c.progress) (min (c.len - c.progress) (4096 - (c.a0 + c.progress) % 2 ^ 64 % 4096)) = true ∧
      c.progress + min (c.len - c.progress) (4096 - (c.a0 + c.progress) % 2 ^ 64 % 4096) = c.len) ∧
    (∃ (r : RingId) (c : Cur) (s : State) (bytes : List Byte), s.settled = true ∧ s.runs (↑r) c ∧ s.harbourBad = [] ∧ s.harbourSoft = [] ∧ c.opcode = 48 ∧
      c.started = true ∧ s.behindOwn ↑r = false ∧ c.staged = some bytes ∧
      bytes.length = min (c.len - c.progress) (4096 - (c.a0 + c.progress) % 2 ^ 64 % 4096) ∧
      c.a1 + c.progress + min (c.len - c.progress) (4096 - (c.a0 + c.progress) % 2 ^ 64 % 4096) ≤ 8388608 ∧
      s.ownsBytes (↑r) (c.a1 + c.progress) (min (c.len - c.progress) (4096 - (c.a0 + c.progress) % 2 ^ 64 % 4096)) = true ∧
      c.progress + min (c.len - c.progress) (4096 - (c.a0 + c.progress) % 2 ^ 64 % 4096) ≠ c.len) :=
  ⟨⟨(0 : RingId), (curs move)[7]'(by decide), move[7]'(by decide), by unfold State.runs; decide +kernel⟩,
   ⟨(0 : RingId), (curs move)[8]'(by decide), move[8]'(by decide), by unfold State.runs; decide +kernel⟩,
   ⟨(0 : RingId), (curs move)[9]'(by decide), move[9]'(by decide), by unfold State.runs; decide +kernel⟩,
   ⟨(0 : RingId), (curs move)[0]'(by decide), move[0]'(by decide), by unfold State.starts State.runs; decide +kernel⟩,
   ⟨(0 : RingId), (curs move)[1]'(by decide), move[1]'(by decide), by unfold State.starts State.runs; decide +kernel⟩,
   ⟨(0 : RingId), (curs move)[2]'(by decide), move[2]'(by decide), by unfold State.starts State.runs; decide +kernel⟩,
   ⟨(0 : RingId), (curs move)[3]'(by decide), move[3]'(by decide), by unfold State.starts State.runs; decide +kernel⟩,
   ⟨(0 : RingId), (curs move)[4]'(by decide), move[4]'(by decide), by unfold State.starts State.runs; decide +kernel⟩,
   ⟨(0 : RingId), (curs move)[6]'(by decide), move[6]'(by decide), [1, 2, 3, 4, 5], by unfold State.runs; decide +kernel⟩,
   ⟨(0 : RingId), (curs move)[5]'(by decide), move[5]'(by decide), [(1 : Byte), 2], by unfold State.runs; decide +kernel⟩⟩

def isle (x : Isl) (s : State) : State := { s with islands := [(1, x)] }
def bytesAt (a : Nat) (ws : List Word) (s : State) : State := { s with harbour := memWrite 0 [] a (wordsBytes ws) }
def frameLoad : FrameLoad := { ring := 0, bitmap := 6, count := 2, digest := [] }
def opened : Isl := { command := true, loadState := .open, frameLoad := some frameLoad }
def fab : List State :=
  [runs 0 (insn 0x40 [1]), isle { load := true, user := 6, cause := 5 } (runs 2 (insn 0x40 [1])), isle { user := 6, cause := 5 } (runs 2 (insn 0x40 [1])),
   bytesAt 0x100 ([0, 1] ++ List.replicate 8 9 ++ List.replicate 5 0 ++ [256]) (isle { command := true } (runs 0 (insn 0x41 [1, 0x100]))),
   runs 0 (insn 0x44 [1, 0]), isle { command := true } (runs 0 (insn 0x44 [1, 0])), runs 0 (rep (insn 0x44 [1, 0]) (0, 0)),
   { isle opened (runs 0 (insn 0x42 [0, 1025 + 2 ^ 16, 0x100])) with harbour := [(0x200, 125), (0x201, 81), (0x202, 161), (0x203, 201)] },
   runs 0 (insn 0x43 [0, 1025 + 2 ^ 16, 0x100]), late (runs 0 { insn 0x42 [0, 1025 + 2 ^ 16, 0x100] with started := true }),
   late (runs 0 { insn 0x43 [0, 1025 + 2 ^ 16, 0x100] with started := true }),
   forced 11 { isle opened (runs 0 (insn 0x42 [0, 1025 + 2 ^ 16, 0x100])) with harbour := [(0x200, 125), (0x201, 81), (0x202, 161), (0x203, 201)] },
   forced 12 (runs 0 (insn 0x43 [0, 1025 + 2 ^ 16, 0x100]))]

theorem test_meets_FabricInstructions :
    (∃ (r : RingId) (c : Cur) (i : IslandId) (s : State), s.settled = true ∧ s.leave.queue = [] ∧ s.runs (↑r) c ∧ s.harbourBad = [] ∧ s.harbourSoft = [] ∧
      s.ownsIsland ↑r ↑i = true ∧ s.starts (↑r) c ∧ c.op 1 0 6 = ↑i ∧ c.opcode = 64 ∧ c.length = 1 ∧
      c.op 1 6 26 = 0) ∧
    (∃ (r : RingId) (c : Cur) (i : IslandId) (s : State) (bitmap : BitVec 168), s.settled = true ∧ s.leave.queue = [] ∧ s.runs (↑r) c ∧ s.harbourBad = [] ∧ s.harbourSoft = [] ∧
      s.ownsIsland ↑r ↑i = true ∧ s.starts (↑r) c ∧ c.op 1 0 6 = ↑i ∧ c.opcode = 65 ∧ c.length = 2 ∧
      c.op 1 8 5 ≤ 20 ∧ c.op 1 6 2 = 0 ∧ c.op 1 13 19 = 0 ∧
      (s.src (↑r) (c.op 1 8 5) + c.word 2) % 2 ^ 32 + 1064 ≤ 8388608 ∧
      s.ownsBytes (↑r) ((s.src (↑r) (c.op 1 8 5) + c.word 2) % 2 ^ 32) 1064 = true ∧
      (s.isl ↑i).sealed = true ∧ s.islandBusy ↑i = false ∧ s.behindOwn ↑r = false ∧
      islandManifest (↑i) (bytesWords (memRead 0 s.harbour ((s.src (↑r) (c.op 1 8 5) + c.word 2) % 2 ^ 32) 1064)) = some bitmap) ∧
    (∃ (r : RingId) (c : Cur) (i : IslandId) (s : State), s.settled = true ∧ s.leave.queue = [] ∧ s.runs (↑r) c ∧ s.harbourBad = [] ∧ s.harbourSoft = [] ∧
      s.ownsIsland ↑r ↑i = true ∧ s.starts (↑r) c ∧ c.op 1 0 6 = ↑i ∧ c.opcode = 68 ∧ c.length = 2 ∧
      c.op 1 6 26 = 0 ∧ (s.isl ↑i).sealed = false) ∧
    (∃ (r : RingId) (c : Cur) (i : IslandId) (s : State), s.settled = true ∧ s.leave.queue = [] ∧ s.runs (↑r) c ∧ s.harbourBad = [] ∧ s.harbourSoft = [] ∧
      s.ownsIsland ↑r ↑i = true ∧ s.starts (↑r) c ∧ c.op 1 0 6 = ↑i ∧ c.opcode = 68 ∧ c.length = 2 ∧
      c.op 1 6 26 = 0 ∧ (s.isl ↑i).sealed = true ∧ s.releaseRefusal ↑i = none ∧ (s.isl ↑i).release = none ∧
      s.leave.arriving = []) ∧
    (∃ (r : RingId) (c : Cur) (i : IslandId) (s : State) (v : Nat), s.settled = true ∧ s.leave.queue = [] ∧ s.runs (↑r) c ∧ s.harbourBad = [] ∧ s.harbourSoft = [] ∧
      s.ownsIsland ↑r ↑i = true ∧ c.opcode = 68 ∧ c.op 1 0 6 = ↑i ∧ c.started = true ∧ c.reply = some (0, v)) ∧
    (∃ (r : RingId) (c : Cur) (i : IslandId) (s : State) (n : Nat) (f : FrameLoad), s.settled = true ∧ s.leave.queue = [] ∧ s.runs (↑r) c ∧ s.harbourBad = [] ∧ s.harbourSoft = [] ∧
      s.ownsIsland ↑r ↑i = true ∧ s.starts (↑r) c ∧ c.length = 3 ∧ c.op 1 0 5 ≤ 20 ∧ c.op 1 5 27 = 0 ∧
      c.progress = 0 ∧ denseOf (c.op 2 0 16) = some n ∧ c.opcode = 66 ∧ n / 168 = ↑i ∧ n < 8064 ∧
      c.op 2 24 8 = 0 ∧ 1 ≤ c.op 2 16 8 ∧ c.op 2 16 8 ≤ 168 ∧
      (s.src (↑r) (c.op 1 0 5) + c.word 3) % 2 ^ 32 + 260 * c.op 2 16 8 ≤ 8388608 ∧
      s.ownsBytes (↑r) ((s.src (↑r) (c.op 1 0 5) + c.word 3) % 2 ^ 32) (260 * c.op 2 16 8) = true ∧
      s.ownsBytes (↑r) ((s.src (↑r) (c.op 1 0 5) + c.word 3) % 2 ^ 32) 260 = true ∧
      (s.isl ↑i).frameLoad = some f ∧ f.ring = ↑r ∧ (s.isl ↑i).loadState = LoadState.open ∧
      (∀ (k : Nat), f.last = some k → k < n) ∧ f.bitmap.getLsbD (n % 168) = true ∧
      recordCrc (c.op 2 0 16) (List.take 64 (bytesWords (memRead 0 s.harbour ((s.src (↑r) (c.op 1 0 5) + c.word 3) % 2 ^ 32) 260))) = (bytesWords (memRead 0 s.harbour ((s.src (↑r) (c.op 1 0 5) + c.word 3) % 2 ^ 32) 260)).getD 64 0 ∧
      f.written + 1 ≠ f.count ∧ s.behindOwn ↑r = false ∧ s.forcedFull 11 = true) ∧
    (∃ (r : RingId) (c : Cur) (i : IslandId) (s : State) (n : Nat) (f : FrameLoad), s.settled = true ∧ s.leave.queue = [] ∧ s.runs (↑r) c ∧ s.harbourBad = [] ∧ s.harbourSoft = [] ∧
      s.ownsIsland ↑r ↑i = true ∧ s.starts (↑r) c ∧ c.length = 3 ∧ c.op 1 0 5 ≤ 20 ∧ c.op 1 5 27 = 0 ∧
      c.progress = 0 ∧ denseOf (c.op 2 0 16) = some n ∧ c.opcode = 66 ∧ n / 168 = ↑i ∧ n < 8064 ∧
      c.op 2 24 8 = 0 ∧ 1 ≤ c.op 2 16 8 ∧ c.op 2 16 8 ≤ 168 ∧
      (s.src (↑r) (c.op 1 0 5) + c.word 3) % 2 ^ 32 + 260 * c.op 2 16 8 ≤ 8388608 ∧
      s.ownsBytes (↑r) ((s.src (↑r) (c.op 1 0 5) + c.word 3) % 2 ^ 32) (260 * c.op 2 16 8) = true ∧
      s.ownsBytes (↑r) ((s.src (↑r) (c.op 1 0 5) + c.word 3) % 2 ^ 32) 260 = true ∧
      (s.isl ↑i).frameLoad = some f ∧ f.ring = ↑r ∧ (s.isl ↑i).loadState = LoadState.open ∧
      (∀ (k : Nat), f.last = some k → k < n) ∧ f.bitmap.getLsbD (n % 168) = true ∧
      recordCrc (c.op 2 0 16) (List.take 64 (bytesWords (memRead 0 s.harbour ((s.src (↑r) (c.op 1 0 5) + c.word 3) % 2 ^ 32) 260))) = (bytesWords (memRead 0 s.harbour ((s.src (↑r) (c.op 1 0 5) + c.word 3) % 2 ^ 32) 260)).getD 64 0 ∧
      f.written + 1 ≠ f.count ∧ s.behindOwn ↑r = false ∧ s.forcedFull 11 = false) ∧
    (∃ (r : RingId) (c : Cur) (i : IslandId) (s : State) (n : Nat), s.settled = true ∧ s.leave.queue = [] ∧ s.runs (↑r) c ∧ s.harbourBad = [] ∧ s.harbourSoft = [] ∧
      s.ownsIsland ↑r ↑i = true ∧ s.starts (↑r) c ∧ c.length = 3 ∧ c.op 1 0 5 ≤ 20 ∧ c.op 1 5 27 = 0 ∧
      c.progress = 0 ∧ denseOf (c.op 2 0 16) = some n ∧ c.opcode = 67 ∧ c.op 2 30 2 = 0 ∧ c.op 2 16 14 = 1 ∧
      (s.src (↑r) (c.op 1 0 5) + c.word 3) % 2 ^ 32 + 256 ≤ 8388608 ∧
      s.ownsBytes (↑r) ((s.src (↑r) (c.op 1 0 5) + c.word 3) % 2 ^ 32) 256 = true ∧
      s.mayReadFrame (↑r / 4) n = true ∧ s.behindOwn ↑r = false ∧ s.forcedFull 12 = true) ∧
    (∃ (r : RingId) (c : Cur) (i : IslandId) (s : State) (n : Nat), s.settled = true ∧ s.leave.queue = [] ∧ s.runs (↑r) c ∧ s.harbourBad = [] ∧ s.harbourSoft = [] ∧
      s.ownsIsland ↑r ↑i = true ∧ s.starts (↑r) c ∧ c.length = 3 ∧ c.op 1 0 5 ≤ 20 ∧ c.op 1 5 27 = 0 ∧
      c.progress = 0 ∧ denseOf (c.op 2 0 16) = some n ∧ c.opcode = 67 ∧ c.op 2 30 2 = 0 ∧ c.op 2 16 14 = 1 ∧
      (s.src (↑r) (c.op 1 0 5) + c.word 3) % 2 ^ 32 + 256 ≤ 8388608 ∧
      s.ownsBytes (↑r) ((s.src (↑r) (c.op 1 0 5) + c.word 3) % 2 ^ 32) 256 = true ∧
      s.mayReadFrame (↑r / 4) n = true ∧ s.behindOwn ↑r = false ∧ s.forcedFull 12 = false) ∧
    (∃ (r : RingId) (c : Cur) (i : IslandId) (s : State), s.settled = true ∧ s.leave.queue = [] ∧ s.runs (↑r) c ∧ s.harbourBad = [] ∧ s.harbourSoft = [] ∧
      s.ownsIsland ↑r ↑i = true ∧ s.behindOwn ↑r = true ∧ c.started = true ∧ c.opcode = 66) ∧
    (∃ (r : RingId) (c : Cur) (i : IslandId) (s : State), s.settled = true ∧ s.leave.queue = [] ∧ s.runs (↑r) c ∧ s.harbourBad = [] ∧ s.harbourSoft = [] ∧
      s.ownsIsland ↑r ↑i = true ∧ s.behindOwn ↑r = true ∧ c.started = true ∧ c.opcode = 67) :=
  ⟨⟨(0 : RingId), (curs fab)[0]'(by decide), (1 : IslandId), fab[0]'(by decide), by unfold State.starts State.runs; decide +kernel⟩,
   ⟨(0 : RingId), (curs fab)[3]'(by decide), (1 : IslandId), fab[3]'(by decide), (1 : BitVec 168), by unfold State.starts State.runs; decide +kernel⟩,
   ⟨(0 : RingId), (curs fab)[4]'(by decide), (1 : IslandId), fab[4]'(by decide), by unfold State.starts State.runs; decide +kernel⟩,
   ⟨(0 : RingId), (curs fab)[4]'(by decide), (1 : IslandId), fab[5]'(by decide), by unfold State.starts State.runs; decide +kernel⟩,
   ⟨(0 : RingId), (curs fab)[6]'(by decide), (1 : IslandId), fab[6]'(by decide), (0 : Nat), by unfold State.runs; decide +kernel⟩,
   ⟨(0 : RingId), (curs fab)[7]'(by decide), (1 : IslandId), fab[11]'(by decide), 169, frameLoad, by and_intros <;> first | (intro _ h; cases h <;> decide +kernel) | (simp only [recordCrc, crc32c, crcMore_eq_run]; decide +kernel) | decide +kernel | (unfold State.starts State.runs; decide +kernel)⟩,
   ⟨(0 : RingId), (curs fab)[7]'(by decide), (1 : IslandId), fab[7]'(by decide), 169, frameLoad, by and_intros <;> first | (intro _ h; cases h <;> decide +kernel) | (simp only [recordCrc, crc32c, crcMore_eq_run]; decide +kernel) | decide +kernel | (unfold State.starts State.runs; decide +kernel)⟩,
   ⟨(0 : RingId), (curs fab)[8]'(by decide), (1 : IslandId), fab[12]'(by decide), 169, by unfold State.starts State.runs; decide +kernel⟩,
   ⟨(0 : RingId), (curs fab)[8]'(by decide), (1 : IslandId), fab[8]'(by decide), 169, by unfold State.starts State.runs; decide +kernel⟩,
   ⟨(0 : RingId), (curs fab)[9]'(by decide), (1 : IslandId), fab[9]'(by decide), by unfold State.runs; decide +kernel⟩,
   ⟨(0 : RingId), (curs fab)[10]'(by decide), (1 : IslandId), fab[10]'(by decide), by unfold State.runs; decide +kernel⟩⟩

def atEdge : Capture := { ring := 0, islands := 2, edge := some (2 ^ 64 + 9, [(1, some 5)]) }
def capOn (s : State) (c : Capture := { ring := 0, islands := 2 }) : State := s.modClocks fun k => { k with captures := [(3, some c)] }
def frozen (s : State) : State := s.modMode fun m => { m with frozen := true }
def capture : Cur := insn 0x45 [3, 2, 0, 0x100]
def onLine (s : State) : State := { s with frames := [(8160, { data := 1 <<< 24 })], mode := { s.mode with firstWake := true } }
def waitCap (c : Capture := { ring := 0, islands := 2 }) : State := capOn (runs 0 capture fun t => { t with wait := .capture 3 }) c
def caps : List State := [runs 0 capture, frozen (runs 0 capture), runs 0 { rep capture (0, 2) with staged := some [1, 2, 3], a1 := 8 }, late (runs 0 { rep capture (0, 2) with staged := some [1, 2, 3], a1 := 8 }), waitCap, waitCap atEdge]

theorem test_meets_Captures :
    (∃ (r : RingId) (c : Cur) (s : State), s.settled = true ∧ s.runs (↑r) c ∧ c.opcode = 69 ∧ s.harbourBad = [] ∧ s.harbourSoft = [] ∧
      s.starts (↑r) c ∧ c.length = 4 ∧ c.op 1 4 5 ≤ 20 ∧ c.op 1 9 23 = 0 ∧ c.op 3 16 16 = 0 ∧
      List.filter (bitAt (c.word 2 + 2 ^ 32 * c.word 3)) (List.range 48) ≠ [] ∧
      (s.src (↑r) (c.op 1 4 5) + c.word 4) % 2 ^ 32 + (16 + 72 * (List.filter (bitAt (c.word 2 + 2 ^ 32 * c.word 3)) (List.range 48)).length) ≤ 8388608 ∧
      s.ownsBytes (↑r) ((s.src (↑r) (c.op 1 4 5) + c.word 4) % 2 ^ 32) (16 + 72 * (List.filter (bitAt (c.word 2 + 2 ^ 32 * c.word 3)) (List.range 48)).length) = true ∧
      (∀ i ∈ List.filter (bitAt (c.word 2 + 2 ^ 32 * c.word 3)) (List.range 48), s.ownsIsland (↑r) i = true) ∧
      (tabGet (fun x ↦ none) s.clocks.captures (c.op 1 0 4) = none) ∧ s.mode.frozen = false) ∧
    (∃ (r : RingId) (c : Cur) (s : State), s.settled = true ∧ s.runs (↑r) c ∧ c.opcode = 69 ∧ s.harbourBad = [] ∧ s.harbourSoft = [] ∧
      s.starts (↑r) c ∧ c.length = 4 ∧ c.op 1 4 5 ≤ 20 ∧ c.op 1 9 23 = 0 ∧ c.op 3 16 16 = 0 ∧
      List.filter (bitAt (c.word 2 + 2 ^ 32 * c.word 3)) (List.range 48) ≠ [] ∧
      (s.src (↑r) (c.op 1 4 5) + c.word 4) % 2 ^ 32 + (16 + 72 * (List.filter (bitAt (c.word 2 + 2 ^ 32 * c.word 3)) (List.range 48)).length) ≤ 8388608 ∧
      s.ownsBytes (↑r) ((s.src (↑r) (c.op 1 4 5) + c.word 4) % 2 ^ 32) (16 + 72 * (List.filter (bitAt (c.word 2 + 2 ^ 32 * c.word 3)) (List.range 48)).length) = true ∧
      (∀ i ∈ List.filter (bitAt (c.word 2 + 2 ^ 32 * c.word 3)) (List.range 48), s.ownsIsland (↑r) i = true) ∧
      (tabGet (fun x ↦ none) s.clocks.captures (c.op 1 0 4) = none) ∧ s.mode.frozen = true ∧
      s.behindOwn ↑r = false) ∧
    (∃ (r : RingId) (c : Cur) (s : State) (mask : Nat) (bytes : List Byte), s.settled = true ∧ s.runs (↑r) c ∧ c.opcode = 69 ∧ s.harbourBad = [] ∧ s.harbourSoft = [] ∧
      c.started = true ∧ c.reply = some (0, mask) ∧ c.staged = some bytes ∧ c.a1 < 8388608 ∧
      s.behindOwn ↑r = false) ∧
    (∃ (r : RingId) (c : Cur) (s : State) (mask : Nat) (bytes : List Byte), s.settled = true ∧ s.runs (↑r) c ∧ c.opcode = 69 ∧ s.harbourBad = [] ∧ s.harbourSoft = [] ∧
      c.started = true ∧ c.reply = some (0, mask) ∧ c.staged = some bytes ∧ c.a1 < 8388608 ∧
      s.behindOwn ↑r = true) ∧
    (∃ (l : LineId) (cap : Capture) (s : State) (c : Cur), s.settled = true ∧ cap.ring < 32 ∧ (tabGet (fun x ↦ none) s.clocks.captures ↑l = some cap) ∧
      (s.thr cap.ring).wait = Wait.capture ↑l ∧ (s.thr cap.ring).cur = some c ∧ cap.edge = none) ∧
    (∃ (l : LineId) (cap : Capture) (s : State) (c : Cur) (time : Nat) (got : List (Nat × Option (BitVec 576))), s.settled = true ∧ cap.ring < 32 ∧ (tabGet (fun x ↦ none) s.clocks.captures ↑l = some cap) ∧
      (s.thr cap.ring).wait = Wait.capture ↑l ∧ (s.thr cap.ring).cur = some c ∧ cap.edge = some (time, got)) :=
  ⟨⟨(0 : RingId), (curs caps)[0]'(by decide), caps[0]'(by decide), by unfold State.starts State.runs; decide +kernel⟩,
   ⟨(0 : RingId), (curs caps)[0]'(by decide), caps[1]'(by decide), by unfold State.starts State.runs; decide +kernel⟩,
   ⟨(0 : RingId), (curs caps)[2]'(by decide), caps[2]'(by decide), 2, [(1 : Byte), 2, 3], by unfold State.runs; decide +kernel⟩,
   ⟨(0 : RingId), (curs caps)[2]'(by decide), caps[3]'(by decide), 2, [(1 : Byte), 2, 3], by unfold State.runs; decide +kernel⟩,
   ⟨(3 : LineId), ({ ring := 0, islands := 2 } : Capture), caps[4]'(by decide), (curs caps)[0]'(by decide), by decide +kernel⟩,
   ⟨(3 : LineId), atEdge, caps[5]'(by decide), (curs caps)[0]'(by decide), (2 ^ 64 + 9 : Nat), [(1, some (5 : BitVec 576))], by decide +kernel⟩⟩

def power (c : Cur) (f : Leave → Leave := id) (k : Nat := 2) : State := (runs k c).modLeave f
def lease (n : Nat) (l : Leave) : Leave := { l with leases := [{ handle := 7, who := .program n, cost := 3 }] }
def signal : Cur := insn 0x72 [5 + 2 ^ 17]
def toRing (n : List Nat) : State := { runs 0 (insn 0x70 ((1 + 16 + 3 * 2 ^ 20) :: n)) with fns := [(0, { bme := true })], rings := (runs 0 (insn 0x70 [0, 9])).rings ++ [(1, { kind := 1, state := .running })] }
def notify : List State :=
  [power (insn 0x60 [5 + 3 * 2 ^ 16, 9, 0]), power (insn 0x60 [5 + 3 * 2 ^ 16, 9, 77]), power (rep (insn 0x60 [5 + 3 * 2 ^ 16, 9, 0]) (0, 4)), power (insn 0x61 [2]) (lease 1), power (insn 0x61 [2]) (lease 4),
   power (insn 0x71 [17]), { power (insn 0x71 [17]) with fns := [(0, { bme := true, msixEn := true })], msix := [(17, { mask := false, addr := 64, data := 3 })] },
   { power (insn 0x71 [17]) with fns := [(0, { bme := true, msixEn := true })], msix := [(17, { mask := false })], link := { l2 := true } },
   power signal, power signal id 0, (power signal id 0).modMode fun m => { m with mirror := (st .run).supMode % 2 ^ 13 }, power (insn 0x70 [2 + 2 * 16 + 3 * 2 ^ 20, 8]),
   runs 0 (insn 0x70 [1 + 16, 8]), toRing [], toRing [9]]

theorem test_meets_PowerAndNotify :
    (∃ (r : RingId) (c : Cur) (s : State), s.settled = true ∧ s.leave.queue = [] ∧ s.runs (↑r) c ∧ c.opcode = 96 ∧ s.starts (↑r) c ∧
      c.length = 3 ∧ c.op 1 0 12 ≠ 0 ∧ c.op 1 14 2 = 0 ∧ c.op 1 20 12 = 0 ∧ 1 ≤ c.op 2 0 20 ∧
      c.op 2 0 20 ≤ 1000000 ∧ c.op 2 20 12 = 0 ∧ s.leave.programLeases (↑r / 4) < 16) ∧
    (∃ (r : RingId) (c : Cur) (s : State) (h : Nat), s.settled = true ∧ s.leave.queue = [] ∧ s.runs (↑r) c ∧ c.opcode = 96 ∧ c.started = true ∧
      c.reply = some (0, h)) ∧
    (∃ (r : RingId) (c : Cur) (s : State), s.settled = true ∧ s.leave.queue = [] ∧ s.runs (↑r) c ∧ s.starts (↑r) c ∧ c.length = 1 ∧
      c.opcode = 97 ∧ c.op 1 0 5 ≤ 20 ∧ c.op 1 5 27 = 0 ∧
      ((s.leave.leases.any fun x ↦ x.handle == s.src (↑r) (c.op 1 0 5) % 65536 && x.programOf (↑r / 4)) = true)) ∧
    (∃ (r : RingId) (c : Cur) (s : State), s.settled = true ∧ s.leave.queue = [] ∧ s.runs (↑r) c ∧ s.starts (↑r) c ∧ c.length = 1 ∧
      c.opcode = 97 ∧ c.op 1 0 5 ≤ 20 ∧ c.op 1 5 27 = 0 ∧
      ((s.leave.leases.any fun x ↦ x.handle == s.src (↑r) (c.op 1 0 5) % 65536 && x.programOf (↑r / 4)) = false)) ∧
    (∃ (r : RingId) (c : Cur) (s : State), s.settled = true ∧ s.leave.queue = [] ∧ s.runs (↑r) c ∧ s.starts (↑r) c ∧ c.length = 1 ∧
      c.opcode = 113 ∧ 16 ≤ c.op 1 0 6 ∧ c.op 1 6 26 = 0 ∧ s.signalWaits (↑r) c = false) ∧
    (∃ (r : RingId) (c : Cur) (s : State), s.settled = true ∧ s.leave.queue = [] ∧ s.runs (↑r) c ∧ s.starts (↑r) c ∧ c.length = 1 ∧
      c.opcode = 113 ∧ 16 ≤ c.op 1 0 6 ∧ c.op 1 6 26 = 0 ∧ s.signalWaits (↑r) c = true) ∧
    (∃ (r : RingId) (c : Cur) (s : State), s.settled = true ∧ s.leave.queue = [] ∧ s.runs (↑r) c ∧ s.starts (↑r) c ∧ c.length = 1 ∧
      c.opcode = 113 ∧ 16 ≤ c.op 1 0 6 ∧ c.op 1 6 26 = 0 ∧ (s.fn (↑r / 4)).msixEn = true ∧
      s.vecBlocked (↑r / 4) (c.op 1 0 6) = false ∧ (s.msx (↑r / 4) (c.op 1 0 6)).pend = false ∧
      s.msixWaits = false) ∧
    (∃ (r : RingId) (c : Cur) (s : State), s.settled = true ∧ s.leave.queue = [] ∧ s.runs (↑r) c ∧ s.starts (↑r) c ∧ c.length = 1 ∧
      c.opcode = 114 ∧ c.op 1 16 5 ≤ 20 ∧ c.op 1 21 11 = 0 ∧ s.shows = true ∧ (s.ring ↑r).kind = 0 ∧
      (s.ring ↑r).cplEn = false ∧ s.log.policy = false ∧ s.log.recent = [] ∧ s.log.lost = 0) ∧
    (∃ (r : RingId) (c : Cur) (s : State), s.settled = true ∧ s.leave.queue = [] ∧ s.runs (↑r) c ∧ c.opcode = 112 ∧ s.starts (↑r) c ∧
      c.op 1 2 2 = 0 ∧ c.op 1 4 5 ≤ 30 ∧ c.length = 1 + c.op 1 4 5 ∧ c.op 1 13 5 ≤ 20 ∧ c.op 1 18 2 = 0 ∧
      (s.ring (4 * (↑r / 4) + c.op 1 0 2)).accepts = false) ∧
    (∃ (r : RingId) (c : Cur) (s : State), s.settled = true ∧ s.leave.queue = [] ∧ s.runs (↑r) c ∧ c.opcode = 112 ∧ s.starts (↑r) c ∧
      c.op 1 2 2 = 0 ∧ c.op 1 4 5 ≤ 30 ∧ c.length = 1 + c.op 1 4 5 ∧ c.op 1 13 5 ≤ 20 ∧ c.op 1 18 2 = 0 ∧
      (s.ring (4 * (↑r / 4) + c.op 1 0 2)).accepts = true ∧
      (s.ring (4 * (↑r / 4) + c.op 1 0 2)).translated = false ∧
      s.recordMay (4 * (↑r / 4) + c.op 1 0 2) { type := 3, status := 0, tag := c.op 1 20 12, retried := c.retried, from_ := ↑r, body := padBody (List.take (c.op 1 4 5) (List.drop 2 c.words)) } = true) :=
  ⟨⟨(0 : RingId), (curs notify)[0]'(by decide), notify[0]'(by decide), by unfold State.starts State.runs; decide +kernel⟩,
   ⟨(0 : RingId), (curs notify)[2]'(by decide), notify[2]'(by decide), 4, by unfold State.runs; decide +kernel⟩,
   ⟨(0 : RingId), (curs notify)[3]'(by decide), notify[3]'(by decide), by unfold State.starts State.runs; decide +kernel⟩,
   ⟨(0 : RingId), (curs notify)[3]'(by decide), notify[4]'(by decide), by unfold State.starts State.runs; decide +kernel⟩,
   ⟨(0 : RingId), (curs notify)[5]'(by decide), notify[5]'(by decide), by unfold State.starts State.runs; decide +kernel⟩,
   ⟨(0 : RingId), (curs notify)[5]'(by decide), notify[7]'(by decide), by unfold State.starts State.runs; decide +kernel⟩,
   ⟨(0 : RingId), (curs notify)[5]'(by decide), notify[6]'(by decide), by unfold State.starts State.runs; decide +kernel⟩,
   ⟨(0 : RingId), (curs notify)[8]'(by decide), notify[10]'(by decide), by unfold State.starts State.runs; decide +kernel⟩,
   ⟨(0 : RingId), (curs notify)[12]'(by decide), notify[12]'(by decide), by unfold State.starts State.runs; decide +kernel⟩,
   ⟨(0 : RingId), (curs notify)[14]'(by decide), notify[14]'(by decide), by unfold State.starts State.runs; decide +kernel⟩⟩

def frameRead : State := { runs 0 (insn 0x20 [src 4 0 0, 0x2000000 + 256 * 8160 + 4]) with frames := [(8160, { data := 0x123456789ABCDEF })] }

theorem test_meets_FrameIndex :
    (∃ (region : Nat) (column : Nat) (minor : Nat), region < 64 ∧ column < 32 ∧ minor < 32 ∧ region ≤ 47 ∧ column ≤ 15 ∧ minor ≤ 7) ∧
    (∃ (region : Nat) (column : Nat) (minor : Nat), region < 64 ∧ column < 32 ∧ minor < 32 ∧ region ≤ 47 ∧ column = 16) ∧
    (∃ (region : Nat) (column : Nat) (minor : Nat), region < 64 ∧ column < 32 ∧ minor < 32 ∧ region ≤ 47 ∧ column = 17 ∧ minor ≤ 7) ∧
    (∃ (region : Nat) (column : Nat) (minor : Nat), region < 64 ∧ column < 32 ∧ minor < 32 ∧ region = 62 ∧ column ≤ 7 ∧ minor ≤ 11) ∧
    (∃ (region : Nat) (column : Nat) (minor : Nat), region < 64 ∧ column < 32 ∧ minor < 32 ∧ region = 63 ∧ column = 0) ∧
    (∃ (region : Nat) (column : Nat) (minor : Nat) (n : Nat), region < 64 ∧ column < 32 ∧ minor < 32 ∧ denseOf (1024 * region + 32 * column + minor) = some n) ∧
    (∃ (r : RingId) (c : Cur) (s : State) (n : Nat) (k : Nat), s.settled = true ∧ r / 4 = 0 ∧ s.starts (↑r) c ∧ c.opcode = 32 ∧ c.length = 2 ∧ c.op 1 4 5 ≤ 20 ∧
      c.op 1 9 23 = 0 ∧ n < 8192 ∧ k < 64 ∧
      (s.src (↑r) (c.op 1 4 5) + c.word 2) % 2 ^ 32 = 33554432 + n * 256 + 4 * k ∧ s.forcedFull 12 = false ∧
      s.outstanding (Requester.ring ↑r) = false ∧ s.behindOf (Requester.ring ↑r) = false) :=
  ⟨⟨(0 : Nat), (0 : Nat), (0 : Nat), by decide +kernel⟩,
   ⟨(0 : Nat), 16, (0 : Nat), by decide +kernel⟩,
   ⟨(0 : Nat), 17, (0 : Nat), by decide +kernel⟩,
   ⟨62, (0 : Nat), (0 : Nat), by decide +kernel⟩,
   ⟨63, (0 : Nat), (0 : Nat), by decide +kernel⟩,
   ⟨(0 : Nat), (0 : Nat), (0 : Nat), (0 : Nat), by decide +kernel⟩,
   ⟨(0 : RingId), (curs [frameRead])[0]'(by decide), frameRead, 8160, 1, by unfold State.starts State.runs; decide +kernel⟩⟩

end I

namespace P
def curs (ss : List State) : List Cur := ss.filterMap fun s => (s.thr 0).cur
def kept : List Stored := (canP {} { frames := [⟨0, 1, 3, 9, 0⟩, ⟨1, 1, 5, 9, 0⟩] } |>.partner 5).frames

theorem test_meets_PortInstructions :
    (∃ (r : RingId) (c : Cur) (s : State), s.settled = true ∧ s.runs (↑r) c ∧ s.harbourBad = [] ∧ s.harbourSoft = [] ∧ c.opcode = 80 ∧
      s.ownsPartner (↑r) (c.op 1 0 12) = true ∧ s.ownsPort (↑r) (s.partner (c.op 1 0 12)).port = true ∧
      s.partnerFails (c.op 1 0 12) = false ∧ s.starts (↑r) c ∧ c.length = 3 ∧ c.op 1 12 5 ≤ 20 ∧
      c.op 1 17 7 = 0 ∧ c.op 1 28 4 = 0 ∧ s.behindOwn ↑r = false ∧ 1 ≤ c.op 3 0 11 ∧ c.op 3 11 21 = 0 ∧
      (s.src (↑r) (c.op 1 12 5) + c.word 2) % 2 ^ 32 + c.op 3 0 11 ≤ 8388608 ∧
      s.ownsBytes (↑r) ((s.src (↑r) (c.op 1 12 5) + c.word 2) % 2 ^ 32) (c.op 3 0 11) = true ∧
      s.portActive (s.partner (c.op 1 0 12)).port = true ∧
      (s.port (s.partner (c.op 1 0 12)).port).starting = false ∧
      s.txCheck (s.partner (c.op 1 0 12)).port (c.op 1 0 12) (memRead 0 s.harbour ((s.src (↑r) (c.op 1 12 5) + c.word 2) % 2 ^ 32) (c.op 3 0 11)) = none ∧
      s.txRoom (s.partner (c.op 1 0 12)).port (c.op 3 0 11) = true) ∧
    (∃ (r : RingId) (c : Cur) (s : State) (reason : Nat), s.settled = true ∧ s.runs (↑r) c ∧ s.harbourBad = [] ∧ s.harbourSoft = [] ∧ c.opcode = 80 ∧
      s.ownsPartner (↑r) (c.op 1 0 12) = true ∧ s.ownsPort (↑r) (s.partner (c.op 1 0 12)).port = true ∧
      s.partnerFails (c.op 1 0 12) = false ∧ s.starts (↑r) c ∧ c.length = 3 ∧ c.op 1 12 5 ≤ 20 ∧
      c.op 1 17 7 = 0 ∧ c.op 1 28 4 = 0 ∧ s.behindOwn ↑r = false ∧ 1 ≤ c.op 3 0 11 ∧ c.op 3 11 21 = 0 ∧
      (s.src (↑r) (c.op 1 12 5) + c.word 2) % 2 ^ 32 + c.op 3 0 11 ≤ 8388608 ∧
      s.ownsBytes (↑r) ((s.src (↑r) (c.op 1 12 5) + c.word 2) % 2 ^ 32) (c.op 3 0 11) = true ∧
      s.portActive (s.partner (c.op 1 0 12)).port = true ∧
      (s.port (s.partner (c.op 1 0 12)).port).starting = false ∧
      s.txCheck (s.partner (c.op 1 0 12)).port (c.op 1 0 12) (memRead 0 s.harbour ((s.src (↑r) (c.op 1 12 5) + c.word 2) % 2 ^ 32) (c.op 3 0 11)) = some reason) ∧
    (∃ (r : RingId) (c : Cur) (s : State), s.settled = true ∧ s.runs (↑r) c ∧ s.harbourBad = [] ∧ s.harbourSoft = [] ∧ c.opcode = 80 ∧
      s.ownsPartner (↑r) (c.op 1 0 12) = true ∧ s.ownsPort (↑r) (s.partner (c.op 1 0 12)).port = true ∧
      s.partnerFails (c.op 1 0 12) = false ∧ s.starts (↑r) c ∧ c.length = 3 ∧ c.op 1 12 5 ≤ 20 ∧
      c.op 1 17 7 = 0 ∧ c.op 1 28 4 = 0 ∧ s.behindOwn ↑r = false ∧ 1 ≤ c.op 3 0 11 ∧ c.op 3 11 21 = 0 ∧
      (s.src (↑r) (c.op 1 12 5) + c.word 2) % 2 ^ 32 + c.op 3 0 11 ≤ 8388608 ∧
      s.ownsBytes (↑r) ((s.src (↑r) (c.op 1 12 5) + c.word 2) % 2 ^ 32) (c.op 3 0 11) = true ∧
      s.portState (s.partner (c.op 1 0 12)).port = 5) ∧
    (∃ (r : RingId) (c : Cur) (s : State), s.settled = true ∧ s.runs (↑r) c ∧ s.harbourBad = [] ∧ s.harbourSoft = [] ∧ c.opcode = 80 ∧
      s.ownsPartner (↑r) (c.op 1 0 12) = true ∧ s.ownsPort (↑r) (s.partner (c.op 1 0 12)).port = true ∧
      s.partnerFails (c.op 1 0 12) = false ∧ s.starts (↑r) c ∧ c.length = 3 ∧ c.op 1 12 5 ≤ 20 ∧
      c.op 1 17 7 = 0 ∧ c.op 1 28 4 = 0 ∧ s.behindOwn ↑r = false ∧ 1 ≤ c.op 3 0 11 ∧ c.op 3 11 21 = 0 ∧
      (s.src (↑r) (c.op 1 12 5) + c.word 2) % 2 ^ 32 + c.op 3 0 11 ≤ 8388608 ∧
      s.ownsBytes (↑r) ((s.src (↑r) (c.op 1 12 5) + c.word 2) % 2 ^ 32) (c.op 3 0 11) = true ∧
      s.portState (s.partner (c.op 1 0 12)).port < 4) ∧
    (∃ (r : RingId) (c : Cur) (s : State) (status : Nat) (v : Nat), s.settled = true ∧ s.runs (↑r) c ∧ s.harbourBad = [] ∧ s.harbourSoft = [] ∧ c.opcode = 80 ∧
      s.ownsPartner (↑r) (c.op 1 0 12) = true ∧ s.ownsPort (↑r) (s.partner (c.op 1 0 12)).port = true ∧
      s.partnerFails (c.op 1 0 12) = false ∧ c.started = true ∧ c.a0 + c.op 3 0 11 ≤ 8388608 ∧
      s.ownsBytes (↑r) c.a0 (c.op 3 0 11) = true ∧ c.reply = some (status, v) ∧ status = 0) ∧
    (∃ (r : RingId) (c : Cur) (s : State) (status : Nat) (v : Nat), s.settled = true ∧ s.runs (↑r) c ∧ s.harbourBad = [] ∧ s.harbourSoft = [] ∧ c.opcode = 80 ∧
      s.ownsPartner (↑r) (c.op 1 0 12) = true ∧ s.ownsPort (↑r) (s.partner (c.op 1 0 12)).port = true ∧
      s.partnerFails (c.op 1 0 12) = false ∧ c.started = true ∧ c.a0 + c.op 3 0 11 ≤ 8388608 ∧
      s.ownsBytes (↑r) c.a0 (c.op 3 0 11) = true ∧ c.reply = some (status, v) ∧ status = 19) ∧
    (∃ (r : RingId) (c : Cur) (s : State), s.settled = true ∧ s.runs (↑r) c ∧ s.harbourBad = [] ∧ s.harbourSoft = [] ∧ c.opcode = 81 ∧
      s.starts (↑r) c ∧ s.ownsPartner (↑r) (c.op 1 0 12) = true ∧
      s.ownsPort (↑r) (s.partner (c.op 1 0 12)).port = true ∧ s.partnerFails (c.op 1 0 12) = false ∧
      c.length = 2 ∧ c.op 1 16 5 ≤ 20 ∧ c.op 1 15 1 = 0 ∧ c.op 1 21 11 = 0 ∧
      s.portActive (s.partner (c.op 1 0 12)).port = true ∧
      (s.port (s.partner (c.op 1 0 12)).port).starting = false ∧ s.leave.queue = [] ∧ s.behindOwn ↑r = true) ∧
    (∃ (r : RingId) (c : Cur) (s : State), s.settled = true ∧ s.runs (↑r) c ∧ s.harbourBad = [] ∧ s.harbourSoft = [] ∧ c.opcode = 81 ∧
      s.starts (↑r) c ∧ s.ownsPartner (↑r) (c.op 1 0 12) = true ∧
      s.ownsPort (↑r) (s.partner (c.op 1 0 12)).port = true ∧ s.partnerFails (c.op 1 0 12) = false ∧
      c.length = 2 ∧ c.op 1 16 5 ≤ 20 ∧ c.op 1 15 1 = 0 ∧ c.op 1 21 11 = 0 ∧
      s.portActive (s.partner (c.op 1 0 12)).port = true ∧
      (s.port (s.partner (c.op 1 0 12)).port).starting = false ∧ s.leave.queue = [] ∧
      s.behindOwn ↑r = false ∧ c.op 1 12 2 = 0) ∧
    (∃ (r : RingId) (c : Cur) (s : State), s.settled = true ∧ s.runs (↑r) c ∧ s.harbourBad = [] ∧ s.harbourSoft = [] ∧ c.opcode = 81 ∧
      s.starts (↑r) c ∧ s.ownsPartner (↑r) (c.op 1 0 12) = true ∧
      s.ownsPort (↑r) (s.partner (c.op 1 0 12)).port = true ∧ s.partnerFails (c.op 1 0 12) = false ∧
      c.length = 2 ∧ c.op 1 16 5 ≤ 20 ∧ c.op 1 15 1 = 0 ∧ c.op 1 21 11 = 0 ∧
      s.portActive (s.partner (c.op 1 0 12)).port = true ∧
      (s.port (s.partner (c.op 1 0 12)).port).starting = false ∧ s.leave.queue = [] ∧
      s.behindOwn ↑r = false ∧ (c.op 1 12 2 = 1 ∨ c.op 1 12 2 = 2)) ∧
    (∃ (r : RingId) (c : Cur) (s : State), s.settled = true ∧ s.runs (↑r) c ∧ s.harbourBad = [] ∧ s.harbourSoft = [] ∧ c.opcode = 82 ∧
      s.starts (↑r) c ∧ s.ownsPartner (↑r) (c.op 1 0 12) = true ∧
      s.ownsPort (↑r) (s.partner (c.op 1 0 12)).port = true ∧ s.partnerFails (c.op 1 0 12) = false ∧
      c.length = 1 ∧ c.op 1 20 4 = 0 ∧ c.op 1 28 4 = 0 ∧ c.progress = 0 ∧ c.taken = none ∧
      s.begunRing ↑r = none ∧ s.behindOwn ↑r = true) ∧
    (∃ (r : RingId) (c : Cur) (s : State), s.settled = true ∧ s.runs (↑r) c ∧ s.harbourBad = [] ∧ s.harbourSoft = [] ∧ c.opcode = 82 ∧
      s.starts (↑r) c ∧ s.ownsPartner (↑r) (c.op 1 0 12) = true ∧
      s.ownsPort (↑r) (s.partner (c.op 1 0 12)).port = true ∧ s.partnerFails (c.op 1 0 12) = false ∧
      c.length = 1 ∧ c.op 1 20 4 = 0 ∧ c.op 1 28 4 = 0 ∧ c.progress = 0 ∧ c.taken = none ∧
      s.behindOwn ↑r = false ∧ (s.partner (c.op 1 0 12)).frames = [] ∧
      s.portState (s.partner (c.op 1 0 12)).port ≠ 5) ∧
    (∃ (r : RingId) (c : Cur) (s : State) (f : Stored) (rest : List Stored) (o : Nat), s.settled = true ∧ s.runs (↑r) c ∧ s.harbourBad = [] ∧ s.harbourSoft = [] ∧ c.opcode = 82 ∧
      s.starts (↑r) c ∧ s.ownsPartner (↑r) (c.op 1 0 12) = true ∧
      s.ownsPort (↑r) (s.partner (c.op 1 0 12)).port = true ∧ s.partnerFails (c.op 1 0 12) = false ∧
      c.length = 1 ∧ c.op 1 20 4 = 0 ∧ c.op 1 28 4 = 0 ∧ c.progress = 0 ∧ c.taken = none ∧
      s.behindOwn ↑r = false ∧ (s.partner (c.op 1 0 12)).frames = f :: rest ∧
      s.partnerOwner (c.op 1 0 12) = some o ∧ f.len ≤ 112 ∧ c.op 1 12 8 = 1 ∧
      (s.ring (4 * o + (s.partner (c.op 1 0 12)).ring)).accepts = true ∧
      (s.ring (4 * o + (s.partner (c.op 1 0 12)).ring)).translated = false ∧
      s.recordMay (4 * o + (s.partner (c.op 1 0 12)).ring) { type := 2, status := 0, tag := c.op 1 0 12, retried := c.retried, from_ := ↑r, body := padBody ([reg32 [place f.len 0 11, 2 ^ 16, place f.epoch 24 8], BitVec.ofNat 32 (lo32 f.stamp), BitVec.ofNat 32 (hi32 f.stamp)] ++ bytesWords (List.take 112 (List.drop 16 (s.storedBytes (s.partner (c.op 1 0 12)) f)))) } = true ∧
      4 * o + (s.partner (c.op 1 0 12)).ring < 32) ∧
    (∃ (r : RingId) (c : Cur) (s : State), s.settled = true ∧ s.runs (↑r) c ∧ s.harbourBad = [] ∧ s.harbourSoft = [] ∧ c.opcode = 83 ∧
      s.starts (↑r) c ∧ c.length = 2 ∧ c.op 1 8 5 ≤ 20 ∧ c.op 1 14 18 = 0 ∧ bitAt (c.word 1) 13 = false) ∧
    (∃ (r : RingId) (c : Cur) (s : State), s.settled = true ∧ s.runs (↑r) c ∧ s.harbourBad = [] ∧ s.harbourSoft = [] ∧ c.opcode = 83 ∧
      s.starts (↑r) c ∧ c.length = 2 ∧ c.op 1 8 5 ≤ 20 ∧ c.op 1 14 18 = 0 ∧ bitAt (c.word 1) 13 = true ∧
      s.behindOwn ↑r = true) ∧
    (∃ (r : RingId) (c : Cur) (s : State), s.settled = true ∧ s.runs (↑r) c ∧ s.harbourBad = [] ∧ s.harbourSoft = [] ∧ c.opcode = 83 ∧
      s.starts (↑r) c ∧ c.length = 2 ∧ c.op 1 8 5 ≤ 20 ∧ c.op 1 14 18 = 0 ∧ bitAt (c.word 1) 13 = true ∧
      (s.src (↑r) (c.op 1 8 5) + c.word 2) % 2 ^ 32 + 16 ≤ 8388608 ∧
      s.ownsBytes (↑r) ((s.src (↑r) (c.op 1 8 5) + c.word 2) % 2 ^ 32) 16 = true ∧ s.behindOwn ↑r = false) :=
  ⟨⟨(0 : RingId), (curs portInstr)[0]'(by decide), portInstr[0]'(by decide), by unfold State.starts State.runs; decide +kernel⟩,
   ⟨(0 : RingId), (curs portInstr)[0]'(by decide), portInstr[1]'(by decide), 3, by unfold State.starts State.runs; decide +kernel⟩,
   ⟨(0 : RingId), (curs portInstr)[0]'(by decide), portInstr[2]'(by decide), by unfold State.starts State.runs; decide +kernel⟩,
   ⟨(0 : RingId), (curs portInstr)[0]'(by decide), portInstr[3]'(by decide), by unfold State.starts State.runs; decide +kernel⟩,
   ⟨(0 : RingId), (curs portInstr)[4]'(by decide), portInstr[4]'(by decide), (0 : Nat), 99, by unfold State.runs; decide +kernel⟩,
   ⟨(0 : RingId), (curs portInstr)[5]'(by decide), portInstr[5]'(by decide), 0x13, 4, by unfold State.runs; decide +kernel⟩,
   ⟨(0 : RingId), (curs portInstr)[6]'(by decide), portInstr[12]'(by decide), by unfold State.starts State.runs; decide +kernel⟩,
   ⟨(0 : RingId), (curs portInstr)[6]'(by decide), portInstr[6]'(by decide), by unfold State.starts State.runs; decide +kernel⟩,
   ⟨(0 : RingId), (curs portInstr)[8]'(by decide), portInstr[8]'(by decide), by unfold State.starts State.runs; decide +kernel⟩,
   ⟨(0 : RingId), (curs portInstr)[10]'(by decide), portInstr[13]'(by decide), by unfold State.starts State.runs; decide +kernel⟩,
   ⟨(0 : RingId), (curs portInstr)[10]'(by decide), portInstr[10]'(by decide), by unfold State.starts State.runs; decide +kernel⟩,
   ⟨(0 : RingId), (curs portInstr)[10]'(by decide), portInstr[11]'(by decide), kept[0]'(by decide), kept.drop 1, (0 : Nat), by unfold State.starts State.runs; decide +kernel⟩,
   ⟨(0 : RingId), (curs portInstr)[14]'(by decide), portInstr[14]'(by decide), by unfold State.starts State.runs; decide +kernel⟩,
   ⟨(0 : RingId), (curs portInstr)[15]'(by decide), portInstr[16]'(by decide), by unfold State.starts State.runs; decide +kernel⟩,
   ⟨(0 : RingId), (curs portInstr)[15]'(by decide), portInstr[15]'(by decide), by unfold State.starts State.runs; decide +kernel⟩⟩

def rxPlain : List State := rxs { rec_ := 130, follow := some 2 }
def rxFull : List State := rxs { rxq := fullQ, busy := some 5 }
def rxMore : List State := [canP { busOff := true }, portOn [0, 1] (psiSetup 1) { syncs := [{ times := [0], had := 1 }] } {}, portOn [0, 1] (psiSetup 1) { syncs := [{ times := [0] }] } {}, portOn [0, 1] (psiSetup 1) { syncs := [{ times := [2 ^ 40] }, { times := [0] }] } {}, portOn [0, 1] (psiSetup 1) {} {},
  portOn [0, 1, 2, 3] spiSetup { busy := some 5 } { addr1 := 3 }, portOn [0, 1, 2, 3] spiSetup { busy := some 5, rxq := fullQ } { addr1 := 3 }, portOn [0, 1] i3cSetup { busy := some 5 } { addr2 := 3 * 2 ^ 16 },
  { portOn [0, 1] i3cSetup { busy := some 5 } { addr2 := 3 * 2 ^ 16 } with mode := (st .test).mode, ptu := { rxCorrupt := [(0, 3)] } }]

theorem test_meets_PortReceives :
    (∃ (p : PortId) (s : State) (stamp : Nat) (steps : Nat) (c : WireContent), s.settled = true ∧ s.portActive ↑p = true ∧ s.corrupts ↑p = true ∧
      s.portReceives ↑p { content := c, stamp := stamp, stepsSince := steps } = true) ∧
    (∃ (p : PortId) (s : State), s.settled = true ∧ s.portActive ↑p = true ∧ s.corrupts ↑p = false ∧ s.portType ↑p = 1 ∧
      (s.port ↑p).busOff = true) ∧
    (∃ (p : PortId) (s : State) (f : CanFrame) (bytes : List Byte), s.settled = true ∧ s.portActive ↑p = true ∧ s.corrupts ↑p = false ∧ s.portType ↑p = 1 ∧
      (s.port ↑p).busOff = false ∧ f.error = 0 ∧ (f.fdf = false ∨ s.setup (↑p) 3 0 1 = 1) ∧
      (f.id < if f.ide = true then 2 ^ 29 else 2 ^ 11) ∧ f.dlc < 16 ∧
      (f.rtr = true ∧ f.fdf = false ∧ bytes = (fun n ↦ leBytes 4 (f.id + flag f.ide 29 + flag f.rtr 30) ++ leBytes 4 n) f.dlc ∨ f.rtr = false ∧ f.data.length = dlcBytes f.dlc f.fdf ∧ bytes = (fun n ↦ leBytes 4 (f.id + flag f.ide 29 + flag f.rtr 30) ++ leBytes 4 n) (f.dlc + flag f.fdf 4 + flag (f.brs && f.fdf) 5 + flag (f.esi && f.fdf) 6) ++ f.data) ∧
      (s.port ↑p).rec_ ≤ 127 ∧ s.rxFull (↑p) bytes.length = false) ∧
    (∃ (p : PortId) (s : State) (f : CanFrame) (bytes : List Byte), s.settled = true ∧ s.portActive ↑p = true ∧ s.corrupts ↑p = false ∧ s.portType ↑p = 1 ∧
      (s.port ↑p).busOff = false ∧ f.error = 0 ∧ (f.fdf = false ∨ s.setup (↑p) 3 0 1 = 1) ∧
      (f.id < if f.ide = true then 2 ^ 29 else 2 ^ 11) ∧ f.dlc < 16 ∧
      (f.rtr = true ∧ f.fdf = false ∧ bytes = (fun n ↦ leBytes 4 (f.id + flag f.ide 29 + flag f.rtr 30) ++ leBytes 4 n) f.dlc ∨ f.rtr = false ∧ f.data.length = dlcBytes f.dlc f.fdf ∧ bytes = (fun n ↦ leBytes 4 (f.id + flag f.ide 29 + flag f.rtr 30) ++ leBytes 4 n) (f.dlc + flag f.fdf 4 + flag (f.brs && f.fdf) 5 + flag (f.esi && f.fdf) 6) ++ f.data) ∧
      (s.port ↑p).rec_ ≤ 127 ∧ s.rxFull (↑p) bytes.length = true) ∧
    (∃ (p : PortId) (s : State) (f : CanFrame) (bytes : List Byte), s.settled = true ∧ s.portActive ↑p = true ∧ s.corrupts ↑p = false ∧ s.portType ↑p = 1 ∧
      (s.port ↑p).busOff = false ∧ f.error = 0 ∧ (f.fdf = false ∨ s.setup (↑p) 3 0 1 = 1) ∧
      (f.id < if f.ide = true then 2 ^ 29 else 2 ^ 11) ∧ f.dlc < 16 ∧
      (f.rtr = true ∧ f.fdf = false ∧ bytes = (fun n ↦ leBytes 4 (f.id + flag f.ide 29 + flag f.rtr 30) ++ leBytes 4 n) f.dlc ∨ f.rtr = false ∧ f.data.length = dlcBytes f.dlc f.fdf ∧ bytes = (fun n ↦ leBytes 4 (f.id + flag f.ide 29 + flag f.rtr 30) ++ leBytes 4 n) (f.dlc + flag f.fdf 4 + flag (f.brs && f.fdf) 5 + flag (f.esi && f.fdf) 6) ++ f.data) ∧
      127 < (s.port ↑p).rec_) ∧
    (∃ (p : PortId) (s : State) (f : CanFrame), s.settled = true ∧ s.portActive ↑p = true ∧ s.corrupts ↑p = false ∧ s.portType ↑p = 1 ∧
      (s.port ↑p).busOff = false ∧ f.error = 0 ∧ f.fdf = true ∧ s.setup (↑p) 3 0 1 = 0) ∧
    (∃ (p : PortId) (s : State) (f : CanFrame), s.settled = true ∧ s.portActive ↑p = true ∧ s.corrupts ↑p = false ∧ s.portType ↑p = 1 ∧
      (s.port ↑p).busOff = false ∧ f.error ≠ 0) ∧
    (∃ (p : PortId) (s : State) (cal : Nat) (pulses : List Nat), s.settled = true ∧ s.portActive ↑p = true ∧ s.corrupts ↑p = false ∧ s.portType ↑p = 2 ∧
      (s.port ↑p).due = [] ∧ s.sentNibbles (↑p) cal pulses = none) ∧
    (∃ (p : PortId) (s : State) (cal : Nat) (pulses : List Nat) (l : List Nat), s.settled = true ∧ s.portActive ↑p = true ∧ s.corrupts ↑p = false ∧ s.portType ↑p = 2 ∧
      (s.port ↑p).due = [] ∧ s.sentNibbles (↑p) cal pulses = some l ∧ s.setup (↑p) 1 15 2 = 0 ∧
      s.rxFull (↑p) (sentFast cal l).length = false) ∧
    (∃ (p : PortId) (s : State) (cal : Nat) (pulses : List Nat) (l : List Nat), s.settled = true ∧ s.portActive ↑p = true ∧ s.corrupts ↑p = false ∧ s.portType ↑p = 2 ∧
      (s.port ↑p).due = [] ∧ s.sentNibbles (↑p) cal pulses = some l ∧ s.setup (↑p) 1 15 2 = 0 ∧
      s.rxFull (↑p) (sentFast cal l).length = true) ∧
    (∃ (p : PortId) (s : State) (stamp : Nat) (steps : Nat) (data : Nat) (bits : Nat) (check : Nat) (violation : Bool), s.settled = true ∧ s.portActive ↑p = true ∧ s.corrupts ↑p = false ∧ s.portType ↑p = 3 ∧
      s.psiWindow ↑p { content := WireContent.psi data bits check violation, stamp := stamp, stepsSince := steps } = none) ∧
    (∃ (p : PortId) (s : State) (stamp : Nat) (steps : Nat) (data : Nat) (bits : Nat) (check : Nat) (violation : Bool) (j : Nat) (k : Nat), s.settled = true ∧ s.portActive ↑p = true ∧ s.corrupts ↑p = false ∧ s.portType ↑p = 3 ∧
      s.psiWindow ↑p { content := WireContent.psi data bits check violation, stamp := stamp, stepsSince := steps } = some (j, k) ∧
      (violation = true ∨ s.psiPasses (↑p) data bits check = false ∨ s.setup (↑p) 1 1 1 = 1 ∧ (s.port ↑p).windowHad j k = true)) ∧
    (∃ (p : PortId) (s : State) (stamp : Nat) (steps : Nat) (data : Nat) (bits : Nat) (check : Nat) (violation : Bool) (j : Nat) (k : Nat), s.settled = true ∧ s.portActive ↑p = true ∧ s.corrupts ↑p = false ∧ s.portType ↑p = 3 ∧
      s.psiWindow ↑p { content := WireContent.psi data bits check violation, stamp := stamp, stepsSince := steps } = some (j, k) ∧
      violation = false ∧ s.psiPasses (↑p) data bits check = true ∧
      (¬(s.setup (↑p) 1 1 1 = 1 ∧ (s.port ↑p).windowHad j k = true)) ∧
      s.rxFull (↑p) (leBytes 4 (field data 0 28) ++ leBytes 4 (place (s.setup (↑p) 1 2 5) 0 5 + place k 5 3 + place (if s.setup (↑p) 1 1 1 = 1 then ((s.port ↑p).syncCount + 2 ^ 16 - j % 2 ^ 16) % 2 ^ 16 else 0) 8 16)).length = false) ∧
    (∃ (p : PortId) (s : State) (stamp : Nat) (steps : Nat) (data : Nat) (bits : Nat) (check : Nat) (violation : Bool) (j : Nat) (k : Nat), s.settled = true ∧ s.portActive ↑p = true ∧ s.corrupts ↑p = false ∧ s.portType ↑p = 3 ∧
      s.psiWindow ↑p { content := WireContent.psi data bits check violation, stamp := stamp, stepsSince := steps } = some (j, k) ∧
      violation = false ∧ s.psiPasses (↑p) data bits check = true ∧
      (¬(s.setup (↑p) 1 1 1 = 1 ∧ (s.port ↑p).windowHad j k = true)) ∧
      s.rxFull (↑p) (leBytes 4 (field data 0 28) ++ leBytes 4 (place (s.setup (↑p) 1 2 5) 0 5 + place k 5 3 + place (if s.setup (↑p) 1 1 1 = 1 then ((s.port ↑p).syncCount + 2 ^ 16 - j % 2 ^ 16) % 2 ^ 16 else 0) 8 16)).length = true) ∧
    (∃ (p : PortId) (s : State), s.settled = true ∧ s.portActive ↑p = true ∧ s.corrupts ↑p = false ∧
      (s.portType ↑p = 4 ∨ s.portType ↑p = 5) ∧ s.transferOf ↑p = none) ∧
    (∃ (p : PortId) (s : State) (i : Nat) (len : Nat) (ccc : Bool) (data : List Byte), s.settled = true ∧ s.portActive ↑p = true ∧ s.corrupts ↑p = false ∧ (s.port ↑p).due = [] ∧
      s.transferOf ↑p = some (i, len, ccc) ∧ s.portType ↑p = 4 ∧ data.length = len ∧
      (s.rxFull (↑p) (if s.sigBound (↑p) 2 = true then (s.partner i).spiWords data else List.map (fun x ↦ 0) data).length = false)) ∧
    (∃ (p : PortId) (s : State) (i : Nat) (len : Nat) (ccc : Bool) (data : List Byte), s.settled = true ∧ s.portActive ↑p = true ∧ s.corrupts ↑p = false ∧ (s.port ↑p).due = [] ∧
      s.transferOf ↑p = some (i, len, ccc) ∧ s.portType ↑p = 4 ∧ data.length = len ∧
      (s.rxFull (↑p) (if s.sigBound (↑p) 2 = true then (s.partner i).spiWords data else List.map (fun x ↦ 0) data).length = true)) ∧
    (∃ (p : PortId) (s : State) (i : Nat) (len : Nat) (ccc : Bool) (data : List Byte), s.settled = true ∧ s.portActive ↑p = true ∧ s.corrupts ↑p = false ∧ (s.port ↑p).due = [] ∧
      s.transferOf ↑p = some (i, len, ccc) ∧ s.portType ↑p = 5 ∧
      s.rxFull (↑p) (leBytes 4 (flag (decide (data.length < len)) 9 + flag ccc 10) ++ List.take len data).length = false) ∧
    (∃ (p : PortId) (s : State) (i : Nat) (len : Nat) (ccc : Bool) (data : List Byte), s.settled = true ∧ s.portActive ↑p = true ∧ s.corrupts ↑p = false ∧ (s.port ↑p).due = [] ∧
      s.transferOf ↑p = some (i, len, ccc) ∧ s.portType ↑p = 5 ∧
      s.rxFull (↑p) (leBytes 4 (flag (decide (data.length < len)) 9 + flag ccc 10) ++ List.take len data).length = true) ∧
    (∃ (p : PortId) (s : State) (i : Nat) (len : Nat) (ccc : Bool), s.settled = true ∧ s.portActive ↑p = true ∧ s.corrupts ↑p = false ∧ (s.port ↑p).due = [] ∧
      s.transferOf ↑p = some (i, len, ccc) ∧ s.portType ↑p = 5 ∧ i < 4096) ∧
    (∃ (p : PortId) (s : State) (bytes : List Byte), s.settled = true ∧ s.portActive ↑p = true ∧ s.corrupts ↑p = false ∧ s.portType ↑p = 6 ∧
      6 ≤ bytes.length ∧ s.t1sAccepts (↑p) bytes = false) ∧
    (∃ (p : PortId) (s : State) (bytes : List Byte) (error : Bool), s.settled = true ∧ s.portActive ↑p = true ∧ s.corrupts ↑p = false ∧ s.portType ↑p = 6 ∧
      s.t1sAccepts (↑p) bytes = true ∧ error = false ∧
      t1sLength (List.take (bytes.length - 4) bytes) = true ∧
      List.drop (bytes.length - 4) bytes = wordBytes (fcs (List.take (bytes.length - 4) bytes)) ∧
      s.rxFull (↑p) (List.take (bytes.length - 4) bytes).length = false) ∧
    (∃ (p : PortId) (s : State) (bytes : List Byte) (error : Bool), s.settled = true ∧ s.portActive ↑p = true ∧ s.corrupts ↑p = false ∧ s.portType ↑p = 6 ∧
      s.t1sAccepts (↑p) bytes = true ∧ error = false ∧
      t1sLength (List.take (bytes.length - 4) bytes) = true ∧
      List.drop (bytes.length - 4) bytes = wordBytes (fcs (List.take (bytes.length - 4) bytes)) ∧
      s.rxFull (↑p) (List.take (bytes.length - 4) bytes).length = true) ∧
    (∃ (p : PortId) (s : State) (bytes : List Byte) (error : Bool), s.settled = true ∧ s.portActive ↑p = true ∧ s.corrupts ↑p = false ∧ s.portType ↑p = 6 ∧
      s.t1sAccepts (↑p) bytes = true ∧
      (error = true ∨ ¬(t1sLength (List.take (bytes.length - 4) bytes) = true ∧ List.drop (bytes.length - 4) bytes = wordBytes (fcs (List.take (bytes.length - 4) bytes))))) ∧
    (∃ (p : PortId) (s : State) (f : RxFrame) (rest : List RxFrame), s.settled = true ∧ (s.port ↑p).rxq = f :: rest ∧ s.matchFrame (↑p) f = none) ∧
    (∃ (p : PortId) (s : State) (f : RxFrame) (rest : List RxFrame) (i : Nat), s.settled = true ∧ (s.port ↑p).rxq = f :: rest ∧ s.matchFrame (↑p) f = some i ∧
      ((s.partner i).arm = 0 ∨ (s.partner i).areaSize < (List.map Stored.units (s.partner i).frames).sum + (16 + f.payload.length + 63) / 64)) ∧
    (∃ (p : PortId) (s : State) (f : RxFrame) (rest : List RxFrame) (i : Nat), s.settled = true ∧ (s.port ↑p).rxq = f :: rest ∧ s.matchFrame (↑p) f = some i ∧
      (s.partner i).arm ≠ 0 ∧
      (List.map Stored.units (s.partner i).frames).sum + (16 + f.payload.length + 63) / 64 ≤ (s.partner i).areaSize ∧
      memWf 0 s.harbour = true) :=
  ⟨⟨(0 : PortId), rxMore[8]'(by decide), (0 : Nat), (0 : Nat), wires[4]'(by decide), by decide +kernel⟩,
   ⟨(0 : PortId), rxMore[0]'(by decide), by decide +kernel⟩,
   ⟨(0 : PortId), received[0]'(by decide), canFrames[0]'(by decide), canPayload (can 3 false 0), by decide +kernel⟩,
   ⟨(0 : PortId), rxFull[0]'(by decide), canFrames[0]'(by decide), canPayload (can 3 false 0), by decide +kernel⟩,
   ⟨(0 : PortId), rxPlain[0]'(by decide), canFrames[0]'(by decide), canPayload (can 3 false 0), by decide +kernel⟩,
   ⟨(0 : PortId), rxPlain[0]'(by decide), canFrames[1]'(by decide), by decide +kernel⟩,
   ⟨(0 : PortId), rxPlain[0]'(by decide), canFrames[2]'(by decide), by decide +kernel⟩,
   ⟨(0 : PortId), rxPlain[1]'(by decide), (0 : Nat), nibPulses[0]'(by decide), by decide +kernel⟩,
   ⟨(0 : PortId), rxPlain[1]'(by decide), 504000, nibPulses[0]'(by decide), nibbles[0]'(by decide), by decide +kernel⟩,
   ⟨(0 : PortId), rxFull[1]'(by decide), 504000, nibPulses[0]'(by decide), nibbles[0]'(by decide), by decide +kernel⟩,
   ⟨(0 : PortId), rxMore[1]'(by decide), (0 : Nat), 3, (0 : Nat), (0 : Nat), (0 : Nat), false, by decide +kernel⟩,
   ⟨(0 : PortId), rxPlain[2]'(by decide), (0 : Nat), (0 : Nat), (0 : Nat), (0 : Nat), (0 : Nat), false, (0 : Nat), (0 : Nat), by decide +kernel⟩,
   ⟨(0 : PortId), rxPlain[2]'(by decide), (0 : Nat), (0 : Nat), (0 : Nat), 10, (0 : Nat), false, (0 : Nat), (0 : Nat), by decide +kernel⟩,
   ⟨(0 : PortId), rxFull[2]'(by decide), (0 : Nat), (0 : Nat), (0 : Nat), 10, (0 : Nat), false, (0 : Nat), (0 : Nat), by decide +kernel⟩,
   ⟨(0 : PortId), rxPlain[3]'(by decide), by decide +kernel⟩,
   ⟨(0 : PortId), rxMore[5]'(by decide), 5, 3, false, [(1 : Byte), 2, 3], by decide +kernel⟩,
   ⟨(0 : PortId), rxMore[6]'(by decide), 5, 3, false, [(1 : Byte), 2, 3], by decide +kernel⟩,
   ⟨(0 : PortId), rxMore[7]'(by decide), 5, 3, false, [(1 : Byte), 2, 3], by decide +kernel⟩,
   ⟨(0 : PortId), rxFull[4]'(by decide), 5, (0 : Nat), false, [(1 : Byte), 2, 3], by decide +kernel⟩,
   ⟨(0 : PortId), rxFull[4]'(by decide), 5, (0 : Nat), false, by decide +kernel⟩,
   ⟨(0 : PortId), rxPlain[5]'(by decide), canPayload (can 3 false 0), by decide +kernel⟩,
   ⟨(0 : PortId), rxPlain[5]'(by decide), t1sBytes[0]'(by decide), false, by decide +kernel⟩,
   ⟨(0 : PortId), rxFull[5]'(by decide), t1sBytes[0]'(by decide), false, by decide +kernel⟩,
   ⟨(0 : PortId), rxPlain[5]'(by decide), t1sBytes[0]'(by decide), true, by decide +kernel⟩,
   ⟨(0 : PortId), received[0]'(by decide), frm (canBytes 5 [1]), ([] : List RxFrame), by decide +kernel⟩,
   ⟨(0 : PortId), received[1]'(by decide), frm (canBytes 4 [1]), [frm []], 5, by decide +kernel⟩,
   ⟨(0 : PortId), received[2]'(by decide), frm (canBytes 4 [1]), ([] : List RxFrame), 5, by decide +kernel⟩⟩

def outcomes : List WireOutcome := [{ reason := 0, stamp := 2 ^ 64 + 3 }, { reason := 0, stamp := 3, errors := [{ kind := 2 }] }, { reason := 0, stamp := 3, collisions := 2 }, { reason := 6, stamp := 1, nacks := 2 }, { reason := 7, stamp := 1, errors := [{ kind := 2 }, { kind := 3, eights := 2 }] }, { reason := 8, stamp := 1, collisions := 16 }, { reason := 4, stamp := 3 }]
def esi : TxFrame := { ring := 0, partner := 5, bytes := [1, 0, 0, 0, 0x72, 0, 0, 0] }

theorem test_meets_PortSends :
    (∃ (p : PortId) (s : State) (f : TxFrame) (rest : List TxFrame) (o : WireOutcome), s.settled = true ∧ s.portActive ↑p = true ∧ (s.port ↑p).txq = f :: rest ∧ (s.port ↑p).due = [] ∧
      s.outcomeOk (↑p) o = true ∧ (s.port ↑p).busOff = false ∧ (s.portType ↑p ≠ 1 ∨ o.errors = []) ∧
      o.reason = 0 ∧ (s.port ↑p).tec ≤ 255) ∧
    (∃ (p : PortId) (s : State) (f : TxFrame) (rest : List TxFrame) (o : WireOutcome), s.settled = true ∧ s.portActive ↑p = true ∧ (s.port ↑p).txq = f :: rest ∧ (s.port ↑p).due = [] ∧
      s.outcomeOk (↑p) o = true ∧ (s.port ↑p).busOff = false ∧ (s.portType ↑p ≠ 1 ∨ o.errors = []) ∧
      o.reason ≠ 0 ∧ (s.port ↑p).tec ≤ 255) ∧
    (∃ (p : PortId) (s : State) (f : TxFrame) (rest : List TxFrame) (o : WireOutcome), s.settled = true ∧ s.portActive ↑p = true ∧ (s.port ↑p).txq = f :: rest ∧ (s.port ↑p).due = [] ∧
      s.outcomeOk (↑p) o = true ∧ (s.port ↑p).busOff = false ∧ s.portType ↑p = 1 ∧
      255 < List.foldl canTec (s.port ↑p).tec o.errors) ∧
    (∃ (p : PortId) (s : State) (f : TxFrame) (rest : List TxFrame), s.settled = true ∧ s.portActive ↑p = true ∧ (s.port ↑p).txq = f :: rest ∧ (s.port ↑p).due = [] ∧
      s.portType ↑p = 1 ∧ s.setup (↑p) 3 7 9 ≠ 0) ∧
    (∃ (p : PortId) (s : State) (cause : Fin 4), s.settled = true ∧ s.mode.mode ≠ Mode.reset ∧ (s.port ↑p).seen = s.portState ↑p ∧
      (s.port ↑p).retired = false ∧ ↑cause ≠ 0) ∧
    (∃ (p : PortId) (s : State), s.settled = true ∧ s.mode.mode ≠ Mode.reset ∧ (s.port ↑p).seen = s.portState ↑p ∧ s.x1Holds = false) :=
  ⟨⟨(0 : PortId), (sends ++ [waitTx (canP { txq := [esi] })])[0]'(by decide), txf 0, [txf 3], outcomes[0]'(by decide), by decide +kernel⟩,
   ⟨(0 : PortId), (sends ++ [waitTx (canP { txq := [esi] })])[4]'(by decide), txf 0, [txf 3], outcomes[3]'(by decide), by decide +kernel⟩,
   ⟨(0 : PortId), (sends ++ [waitTx (canP { txq := [esi] })])[6]'(by decide), txf 0, ([] : List TxFrame), outcomes[1]'(by decide), by decide +kernel⟩,
   ⟨(0 : PortId), (sends ++ [waitTx (canP { txq := [esi] })])[7]'(by decide), txf 0, [txf 32], by decide +kernel⟩,
   ⟨(0 : PortId), (sends ++ [waitTx (canP { txq := [esi] })])[0]'(by decide), 2, by decide +kernel⟩,
   ⟨(0 : PortId), (sends ++ [waitTx (canP { txq := [esi] })])[0]'(by decide), by decide +kernel⟩⟩

def later (s : State) : State := s.modTb fun t => { t with sec := 1 }
def proto : List State := List.map later
  [canP { busOff := true, recovering := true, tec := 256 }, portOn [0, 1] (sentSetup 1) { requested := some 2 } { arm := 2, addr0 := 2 }, portOn [0, 1] (psiSetup 1) { slotSeen := 3 } { arm := 2 },
   portOn [0, 1] i3cSetup {} { addr0 := 2 ^ 16 + 8 }, portOn [0, 1] i3cSetup { starting := true } { addr0 := 8 + 4 * 2 ^ 8 + 2 ^ 15 + 2 ^ 16, addr1 := 7 },
   portOn [0, 1, 2, 3] spiSetup {} { arm := 1, trigger := some 5, addr1 := 3 + 9 * 2 ^ 16 }, portOn [0, 1] i3cSetup {} { arm := 1, trigger := some 5, addr0 := 9 }, portOn [0, 1] (sentSetup 1) {} { arm := 1, trigger := some 5, addr0 := 2 },
   portOn [0, 1, 2, 3] spiSetup { skipped := 2 ^ 32 - 1 } { arm := 2, addr1 := 3 + 9 * 2 ^ 16 }]

theorem test_meets_PortProtocols :
    (∃ (p : PortId) (s : State), s.settled = true ∧ s.portType ↑p = 1 ∧ s.mode.mode ≠ Mode.reset ∧ s.x1Holds = false) ∧
    (∃ (p : PortId) (s : State), s.settled = true ∧ s.portType ↑p = 1 ∧ s.portActive ↑p = true ∧ (s.port ↑p).busOff = true ∧
      (s.port ↑p).recovering = true) ∧
    (∃ (p : PortId) (s : State) (slot : Nat), s.settled = true ∧ s.portActive ↑p = true ∧ s.portType ↑p = 2 ∧ (s.port ↑p).due = [] ∧
      (s.port ↑p).requested = some slot) ∧
    (∃ (p : PortId) (s : State) (i : PartnerId), s.settled = true ∧ s.portActive ↑p = true ∧ s.portType ↑p = 3 ∧ s.setup (↑p) 1 1 1 = 1 ∧
      (s.partner ↑i).valid = true ∧ (s.partner ↑i).port = ↑p ∧ (s.partner ↑i).arm = 2 ∧
      (s.partner ↑i).trigger = none) ∧
    (∃ (p : PortId) (s : State) (da : Nat) (data : List Byte), s.settled = true ∧ s.portActive ↑p = true ∧ s.portType ↑p = 5 ∧
      (∃ e ∈ s.partnersOf ↑p, e.2.addr0.testBit 16 = true ∧ field e.2.addr0 0 7 = da) ∧
      s.corrupts ↑p = false ∧ s.rxFull (↑p) (4 + min 255 data.length) = false) ∧
    (∃ (p : PortId) (s : State) (da : Nat), s.settled = true ∧ s.portActive ↑p = true ∧ s.portType ↑p = 5 ∧
      (∀ e ∈ s.partnersOf ↑p, e.2.addr0.testBit 16 = false ∨ field e.2.addr0 0 7 ≠ da)) ∧
    (∃ (p : PortId) (s : State), s.settled = true ∧ s.portActive ↑p = true ∧ s.portType ↑p = 5 ∧ s.x1Holds = false) ∧
    (∃ (p : PortId) (s : State) (scan : I3cScan), s.settled = true ∧ s.portActive ↑p = true ∧ s.portType ↑p = 5 ∧ (s.port ↑p).starting = true ∧
      (s.port ↑p).due = [] ∧
      (∀ pid ∈ scan.pids, ((fun pid ↦ List.find? (fun y ↦ y.addr1 + 2 ^ 32 * field y.addr2 0 16 == pid) (s.i3cPartners ↑p)) pid).isSome = true)) ∧
    (∃ (i : PartnerId) (s : State) (time : Nat), s.settled = true ∧ (s.partner ↑i).valid = true ∧ (s.partner ↑i).port < 96 ∧
      s.portActive (s.partner ↑i).port = true ∧ (s.partner ↑i).arm ≠ 0 ∧
      (s.partner ↑i).trigger = some time ∧ time ≤ time64 s.tb.sec s.tb.nsec) ∧
    (∃ (i : PartnerId) (s : State), s.settled = true ∧ (s.partner ↑i).valid = true ∧ (s.partner ↑i).port < 96 ∧
      s.portActive (s.partner ↑i).port = true ∧ (s.partner ↑i).arm ≠ 0 ∧ (s.partner ↑i).arm = 2 ∧
      (s.partner ↑i).trigger = none ∧ s.portType (s.partner ↑i).port = 2 ∧
      s.setup (s.partner ↑i).port 1 17 1 = 1) ∧
    (∃ (i : PartnerId) (s : State), s.settled = true ∧ (s.partner ↑i).valid = true ∧ (s.partner ↑i).port < 96 ∧
      s.portActive (s.partner ↑i).port = true ∧ (s.partner ↑i).arm ≠ 0 ∧ (s.partner ↑i).arm = 2 ∧
      (s.partner ↑i).trigger = none ∧ s.portType (s.partner ↑i).port = 4) :=
  ⟨⟨(0 : PortId), proto[0]'(by decide), by decide +kernel⟩,
   ⟨(0 : PortId), proto[0]'(by decide), by decide +kernel⟩,
   ⟨(0 : PortId), proto[1]'(by decide), (2 : Nat), by decide +kernel⟩,
   ⟨(0 : PortId), proto[2]'(by decide), (5 : PartnerId), by decide +kernel⟩,
   ⟨(0 : PortId), proto[3]'(by decide), 8, [(4 : Byte), 5], by decide +kernel⟩,
   ⟨(0 : PortId), proto[3]'(by decide), (2 : Nat), by decide +kernel⟩,
   ⟨(0 : PortId), proto[3]'(by decide), by decide +kernel⟩,
   ⟨(0 : PortId), proto[4]'(by decide), ({ acks := [], pids := [] } : I3cScan), by decide +kernel⟩,
   ⟨(5 : PartnerId), proto[5]'(by decide), 5, by decide +kernel⟩,
   ⟨(5 : PartnerId), proto[1]'(by decide), by decide +kernel⟩,
   ⟨(5 : PartnerId), proto[8]'(by decide), by decide +kernel⟩⟩

def partnerWith (x : Partner) : State := { canP with partners := [(5, { x with port := 0, areaSize := 4 })], link := { up := true }, fns := [(0, { mse := true })] }

theorem test_meets_Partners :
    (∃ (who : Requester) (i : PartnerId) (s : State) (v : Word), s.settled = true ∧ s.mode.mode ≠ Mode.reset ∧ s.behind = [] ∧ s.outstanding who = false ∧
      ownedBy (s.partnerOwner ↑i) (reqTenant who) = true ∧
      (∀ (q : Nat), who = Requester.window q → s.reachable q = true) ∧ (s.partner ↑i).valid = false ∧
      field (BitVec.toNat v) 0 7 < 96) ∧
    (∃ (who : Requester) (i : PartnerId) (s : State) (v : Word), s.settled = true ∧ s.mode.mode ≠ Mode.reset ∧ s.behind = [] ∧ s.outstanding who = false ∧
      ownedBy (s.partnerOwner ↑i) (reqTenant who) = true ∧
      (∀ (q : Nat), who = Requester.window q → s.reachable q = true) ∧ (s.partner ↑i).valid = true ∧
      (BitVec.toNat v).testBit 7 = true) ∧
    (∃ (who : Requester) (i : PartnerId) (s : State), s.settled = true ∧ s.mode.mode ≠ Mode.reset ∧ s.behind = [] ∧ s.outstanding who = false ∧
      ownedBy (s.partnerOwner ↑i) (reqTenant who) = true ∧
      (∀ (q : Nat), who = Requester.window q → s.reachable q = true ∧ s.forcedFull 4 = false) ∧
      s.partnerBad = []) :=
  ⟨⟨Requester.keeper, (5 : PartnerId), partnerWith {}, (0 : Word), by and_intros <;> first | (intro _ h; cases h <;> decide +kernel) | decide +kernel⟩,
   ⟨Requester.keeper, (5 : PartnerId), partnerWith { valid := true, frames := [⟨0, 1, 3, 9, 0⟩], arm := 2, rejected := 3 }, 0x80, by and_intros <;> first | (intro _ h; cases h <;> decide +kernel) | decide +kernel⟩,
   ⟨Requester.keeper, (5 : PartnerId), partnerWith {}, by and_intros <;> first | (intro _ h; cases h <;> decide +kernel) | decide +kernel⟩⟩

end P

end Sys2Proof.Tests
end

section
/-! PROOF. The invariant of a step's end (R42, R49, R480, R493) taken apart, and the state after
reset. -/

namespace Sys2Proof.Machine

@[simp] theorem memWf_nil (d : Byte) : memWf d [] = true := rfl

namespace State

variable (s : State)

theorem settled_iff : s.settled = true ↔ s.log.staged = [] ∧ s.leave.stale = false := by
  simp [settled]

theorem shows_iff : s.shows = true ↔ s.mode.faultShown = s.faultLevel ∧
    (s.mode.trans = none → s.mode.mirror = s.supMode % 2 ^ 13) := by
  cases h : s.mode.trans <;> simp [shows, h]

theorem memoriesWf_iff : s.memoriesWf = true ↔ memWf 0 s.harbour = true ∧ memWf 0 s.progMem = true ∧
    memWf 0xFF s.flash.cells = true ∧ memWf 0 s.flash.buffer = true := by
  simp [memoriesWf, and_assoc]

/-- In RESET the device does not assert FAULT_N, whatever the logbook routes to it (R42). -/
theorem faultLevel_of_mode_reset (h : s.mode.mode = .reset) : s.faultLevel = false := by
  simp [faultLevel, h]

/-! ## The state after reset -/

theorem reset_settled : reset.settled = true :=
  reset.settled_iff.mpr ⟨rfl, rfl⟩

/-- FAULT_N is not asserted in RESET, and T1 is in progress, so R49 asks nothing of the mirror. -/
theorem reset_shows : reset.shows = true := by
  have level : reset.faultLevel = false := reset.faultLevel_of_mode_reset rfl
  have inT1 : reset.mode.trans ≠ none := Option.some_ne_none _
  exact reset.shows_iff.mpr ⟨level.symm, fun h => absurd h inT1⟩

theorem reset_memoriesWf : reset.memoriesWf = true :=
  reset.memoriesWf_iff.mpr ⟨memWf_nil 0, memWf_nil 0, memWf_nil 0xFF, memWf_nil 0⟩

end State

/-- Settles O4: nothing is staged, T1 is in progress with FAULT_N not asserted, and every byte memory
is empty. -/
theorem resetSettled : Obligations.ResetSettled :=
  ⟨State.reset_settled, State.reset_shows, State.reset_memoriesWf⟩

end Sys2Proof.Machine
end

section
/-! PROOF. Running an instruction of an Ovdor thread from its start to its end (R322, R325, R328): what
a run comes to, and PC and S after it. -/

namespace Sys2Proof.Machine

/-- An instruction with its outcome known, which it has yet to end with: what `State.endInstr` makes of it first. -/
def Cur.withEnd (st x : Nat) (c : Cur) : Cur := { c with fin := some (st, x), reply := none, dest := none }

/-- The state in which an instruction that starts runs its body. -/
def State.withStarted (s : State) (r : Nat) : State := s.modCur r (fun c => { c with started := true })

/-- PC and S of a thread, which the end of an instruction alone changes (R325, R328). -/
def Thread.counters (x : Thread) : Nat × Nat := (x.pc, x.s)

namespace State

variable (s : State)

/-! ## What leaves every thread alone -/

@[simp] theorem raise_threads (t v : Nat) : (s.raise t v).threads = s.threads := by
  rw [← beside_threads, raise_beside, beside_threads]

@[simp] theorem waterline_threads (r : Nat) : (s.waterline r).threads = s.threads := by
  unfold waterline
  dsimp only
  split
  · rfl
  · split
    · split
      · exact raise_threads _ _ _
      · rfl
    · split <;> rfl

@[simp] theorem retireItem_threads (r n : Nat) : (s.retireItem r n).threads = s.threads := by
  simp [retireItem, setHead]

@[simp] theorem retireRing_threads (r : Nat) (c : Cur) : (s.retireRing r c).threads = s.threads := by
  unfold retireRing
  split
  · exact s.retireItem_threads r _
  · split <;> rfl

@[simp] theorem retireNotice_threads (r : Nat) (c : Cur) : (s.retireNotice r c).threads = s.threads := by
  unfold retireNotice
  split
  · exact raise_threads _ _ _
  · rfl

@[simp] theorem retireFlushed_threads (r st : Nat) : (s.retireFlushed r st).threads = s.threads := by
  unfold retireFlushed
  split <;> rfl

theorem retireState_threads (r : Nat) (c : Cur) (st : Nat) (h : stops st = false) :
    (s.retireState r c st).threads = s.threads := by
  unfold retireState
  simp only [h, Bool.false_eq_true, if_false]
  split <;> rfl

theorem thr_congr {t u : State} (h : t.threads = u.threads) (q : Nat) : t.thr q = u.thr q := by
  simp only [thr, h]

theorem finish_thr (h : s.leave.stale = false) (q : Nat) : s.finish.thr q = s.thr q :=
  thr_congr (congrArg State.threads (s.finish_beside h)) q

/-! ## What leaves PC and S alone -/

theorem modThr_counters (r : Nat) (f : Thread → Thread) (hf : ∀ x, (f x).counters = x.counters) (q : Nat) :
    ((s.modThr r f).thr q).counters = (s.thr q).counters := by
  by_cases hq : q = r
  · subst hq; rw [modThr_thr_self, hf]
  · rw [modThr_thr_other _ _ _ _ hq]

theorem dropPair_counters (r q : Nat) : ((s.dropPair r).thr q).counters = (s.thr q).counters := by
  unfold dropPair
  split
  · rfl
  · exact modThr_counters s r (fun t => { t with pair := none }) (fun _ => rfl) q

theorem waitFor_counters (r : Nat) (w : Wait) (q : Nat) :
    ((s.waitFor r w).thr q).counters = (s.thr q).counters :=
  (modThr_counters _ r _ (fun _ => by rfl) q).trans (s.dropPair_counters r q)

theorem fetchProgram_threads (r : Nat) : (s.fetchProgram r).2.threads = s.threads := by
  unfold fetchProgram
  dsimp only
  split <;> rfl

theorem loadProgram_counters (r q : Nat) : ((s.loadProgram r).thr q).counters = (s.thr q).counters := by
  have taken : ∀ c, (((s.fetchProgram r).2.modThr r (fun t => { t with cur := some c })).thr q).counters =
      (s.thr q).counters := fun c =>
    (modThr_counters _ r _ (fun _ => by rfl) q).trans
      (congrArg Thread.counters (thr_congr (s.fetchProgram_threads r) q))
  unfold loadProgram
  dsimp only
  split
  · exact (dropPair_counters _ r q).trans (taken _)
  · exact taken _

theorem loadNext_counters (r q : Nat) : ((s.loadNext r).thr q).counters = (s.thr q).counters := by
  unfold loadNext
  dsimp only
  split
  · exact s.dropPair_counters r q
  · split
    · exact s.loadProgram_counters r q
    · split
      · exact modThr_counters _ r _ (fun _ => by rfl) q
      · split
        · exact s.waitFor_counters r _ q
        · exact dropPair_counters _ r q

theorem boundary_counters (r q : Nat) : ((s.boundary r).thr q).counters = (s.thr q).counters := by
  unfold boundary
  split
  · exact (modThr_counters _ r _ (fun _ => by rfl) q).trans (s.dropPair_counters r q)
  · split
    · exact s.dropPair_counters r q
    · split
      · rfl
      · split
        · rfl
        · exact s.loadNext_counters r q

/-! ## The end of an instruction -/

variable {s} {r st : Nat} {c : Cur}

theorem retire_counters (hop : c.opcode ≠ 0x42 ∨ st = 0) (hst : stops st = false) :
    ((s.retire r c st).thr r).counters = (c.next, if setsS c.opcode then st else (s.thr r).s) := by
  have threads : (s.retire r c st).threads = (s.retireThread r c st).threads := by
    unfold retire
    rw [retireState_threads _ _ _ _ hst, retireFlushed_threads, retireNotice_threads, retireRing_threads,
      endFrameLoad_other s r c st hop]
  rw [thr_congr threads, retireThread, modThr_thr_self]
  simp [Thread.counters, hst]

theorem finishLeft_of_none_begun (h : s.recordBegun r = false) : s.finishLeft r = (false, s) := by
  have none_begun : s.begunRing r = none := by simpa [recordBegun] using h
  simp [finishLeft, none_begun]

/-- An instruction for which no record is due, and that has left none begun, ends at once. -/
theorem tryRetire_of_no_record {x : Nat} (hcur : (s.thr r).cur = some c) (hfin : c.fin = some (st, x))
    (hrep : c.reply = none) (hbegun : s.recordBegun r = false) (hw : s.recordWanted r c st = false) :
    s.tryRetire r = (true, s.retire r c st) := by
  simp [tryRetire, hcur, hfin, finishLeft_of_none_begun hbegun, hrep, hw]

/-- The end of an instruction that waits for no record. -/
theorem endInstr_of_tryRetire {x : Nat} {u : State}
    (h : (s.modCur r (Cur.withEnd st x)).tryRetire r = (true, u)) : s.endInstr r st x = u.boundary r := by
  have ending : s.endInstr r st x =
      let a := (s.modCur r (Cur.withEnd st x)).tryRetire r
      if a.1 then a.2.boundary r else a.2 := rfl
  rw [ending, h]
  rfl

theorem endInstr_counters (x : Nat) (hcur : (s.thr r).cur = some c) (hbegun : s.recordBegun r = false)
    (hw : s.recordWanted r c st = false) (hop : c.opcode ≠ 0x42 ∨ st = 0) (hst : stops st = false) :
    ((s.endInstr r st x).thr r).counters = (c.next, if setsS c.opcode then st else (s.thr r).s) := by
  have cur : ((s.modCur r (Cur.withEnd st x)).thr r).cur = some (c.withEnd st x) := by
    simp [modCur, hcur]
  rw [endInstr_of_tryRetire (tryRetire_of_no_record cur rfl rfl hbegun hw), boundary_counters]
  refine (retire_counters hop hst).trans ?_
  simp only [modCur, modThr_thr_self]

/-- What an instruction has done in `t`, of which `s` is the outcome written down, is followed by its
end: the form in which the statements say that it ends. -/
theorem ends_of_endInstr {t : State} (x : Nat) (h : onlyEnds s t) (hset : s.settled = true)
    (hrings : t.rings = s.rings) (hbegun : s.recordBegun r = false) (hcur : (t.thr r).cur = some c)
    (hop : c.opcode ≠ 0x42 ∨ st = 0) (hst : stops st = false) :
    s.ends r c c.next st (answer (t.endInstr r st x)) := by
  have ending : onlyEnds s (t.endInstr r st x) := by
    refine onlyEnds_endInstr h r st x fun d hd => ?_
    rw [hcur] at hd
    cases hd
    exact hop
  have fresh : (t.endInstr r st x).leave.stale = false := by
    rw [ending.1]
    exact (s.settled_iff.mp hset).2
  refine ⟨_, rfl, onlyEnds_finish ending fresh, fun hw => ?_⟩
  have same_ring : t.ring r = s.ring r := by simp only [ring, hrings]
  have begun : t.recordBegun r = false := by
    rw [← hbegun]
    simp only [recordBegun, begunRing, ring, hrings]
  have wanted : t.recordWanted r c st = false := by
    rw [← hw]
    simp only [recordWanted, same_ring]
  have after := endInstr_counters x hcur begun wanted hop hst
  rw [finish_thr _ fresh]
  obtain ⟨hpc, hs⟩ := Prod.mk.inj after
  exact ⟨fun _ _ => hpc, fun hsets => by rw [hs, if_pos hsets]⟩

/-! ## The run of an instruction -/

/-- An instruction that starts, passes the checks of R322 and is not held runs its body. -/
theorem runInsn_of_starts {opcode : Nat → Bool} {check : Cur → Option Nat} (h : s.starts r c)
    (hop : opcode c.opcode = true) (hcheck : check c = none) (body : Cur → State → State)
    (strike : Cur → State → Strike) {held : Cur → State → Bool} (hheld : held c s = false) :
    s.runInsn r opcode check body strike held = body c (s.withStarted r) := by
  obtain ⟨⟨hcur, hpair, hwait, hunread, hfin, hmay, hstruck, -, -⟩, hstarted, -, -, hfence, hfenced⟩ := h
  have on : s.runsOn r opcode c = true := by simp [runsOn, hop, hwait, hunread, hfin, hmay]
  have unfenced : s.fenceWaits r c = false := by
    by_cases fence : c.flagF = true ∨ c.opcode = 1
    · rcases hfenced fence with done | unneeded
      · simp [fenceWaits, done]
      · simp [fenceWaits, unneeded]
    · simp [fenceWaits, Cur.behindFence, not_or.mp fence]
  simp [withStarted, runInsn, hstruck, runOp, hcur, on, hpair, hstarted, hfence, unfenced, hcheck, hheld]

end State

end Sys2Proof.Machine
end

section
/-! PROOF. The dense frame index (R20, R106): the index of a frame address and the address of an index,
part of frame space by part, and RD_DIA of a frame's data. -/

namespace Sys2Proof.Machine

/-! ## The fields of a frame address (R106) -/

section
variable {region column minor n : Nat}

theorem field_faddr_region (hr : region < 64) (hc : column < 32) (hm : minor < 32) :
    field (1024 * region + 32 * column + minor) 10 6 = region := by
  simp only [field, Nat.shiftRight_eq_div_pow]
  omega

theorem field_faddr_column (hc : column < 32) (hm : minor < 32) :
    field (1024 * region + 32 * column + minor) 5 5 = column := by
  simp only [field, Nat.shiftRight_eq_div_pow]
  omega

theorem field_faddr_minor (hm : minor < 32) :
    field (1024 * region + 32 * column + minor) 0 5 = minor := by
  simp only [field, Nat.shiftRight_eq_div_pow]
  omega

/-! ## From addresses to indices (R20) -/

/-- `denseOf` of an address given by its fields. -/
theorem denseOf_fields (hr : region < 64) (hc : column < 32) (hm : minor < 32) :
    denseOf (1024 * region + 32 * column + minor) =
      if region ≤ 47 then
        if column ≤ 15 then if minor ≤ 7 then some (region * 168 + column * 8 + minor) else none
        else if column = 16 then some (region * 168 + 128 + minor)
        else if column = 17 ∧ minor ≤ 7 then some (region * 168 + 160 + minor)
        else none
      else if region = 62 then
        if column ≤ 7 ∧ minor ≤ 11 then some (8064 + column * 12 + minor) else none
      else if region = 63 ∧ column = 0 then some (8160 + minor)
      else none := by
  simp only [denseOf, field_faddr_region hr hc hm, field_faddr_column hc hm, field_faddr_minor hm]

/-! ### Part by part: an island's blocks, lagoon and I/O column, the strait, the global frames -/

theorem denseOf_block (hr : region ≤ 47) (hc : column ≤ 15) (hm : minor ≤ 7) :
    denseOf (1024 * region + 32 * column + minor) = some (region * 168 + column * 8 + minor) := by
  rw [denseOf_fields (by omega) (by omega) (by omega), if_pos hr, if_pos hc, if_pos hm]

theorem denseOf_lagoon (hr : region ≤ 47) (hc : column = 16) (hm : minor < 32) :
    denseOf (1024 * region + 32 * column + minor) = some (region * 168 + 128 + minor) := by
  rw [denseOf_fields (by omega) (by omega) hm, if_pos hr, if_neg (by omega), if_pos hc]

theorem denseOf_io (hr : region ≤ 47) (hc : column = 17) (hm : minor ≤ 7) :
    denseOf (1024 * region + 32 * column + minor) = some (region * 168 + 160 + minor) := by
  rw [denseOf_fields (by omega) (by omega) (by omega), if_pos hr, if_neg (by omega), if_neg (by omega),
    if_pos ⟨hc, hm⟩]

theorem denseOf_strait (hr : region = 62) (hc : column ≤ 7) (hm : minor ≤ 11) :
    denseOf (1024 * region + 32 * column + minor) = some (8064 + column * 12 + minor) := by
  rw [denseOf_fields (by omega) (by omega) (by omega), if_neg (by omega), if_pos hr, if_pos ⟨hc, hm⟩]

theorem denseOf_global (hr : region = 63) (hc : column = 0) (hm : minor < 32) :
    denseOf (1024 * region + 32 * column + minor) = some (8160 + minor) := by
  rw [denseOf_fields (by omega) (by omega) hm, if_neg (by omega), if_neg (by omega), if_pos ⟨hr, hc⟩]

theorem faddrOf_block (hr : region ≤ 47) (hc : column ≤ 15) (hm : minor ≤ 7) :
    faddrOf (region * 168 + column * 8 + minor) = 1024 * region + 32 * column + minor := by
  unfold faddrOf
  dsimp only
  rw [if_pos (by omega), if_pos (by omega)]
  omega

theorem faddrOf_lagoon (hr : region ≤ 47) (hc : column = 16) (hm : minor < 32) :
    faddrOf (region * 168 + 128 + minor) = 1024 * region + 32 * column + minor := by
  unfold faddrOf
  dsimp only
  rw [if_pos (by omega), if_neg (by omega), if_pos (by omega)]
  omega

theorem faddrOf_io (hr : region ≤ 47) (hc : column = 17) (hm : minor ≤ 7) :
    faddrOf (region * 168 + 160 + minor) = 1024 * region + 32 * column + minor := by
  unfold faddrOf
  dsimp only
  rw [if_pos (by omega), if_neg (by omega), if_neg (by omega)]
  omega

theorem faddrOf_strait (hr : region = 62) (hc : column ≤ 7) (hm : minor ≤ 11) :
    faddrOf (8064 + column * 12 + minor) = 1024 * region + 32 * column + minor := by
  unfold faddrOf
  rw [if_neg (by omega), if_pos (by omega)]
  omega

theorem faddrOf_global (hr : region = 63) (hc : column = 0) :
    faddrOf (8160 + minor) = 1024 * region + 32 * column + minor := by
  unfold faddrOf
  rw [if_neg (by omega), if_neg (by omega)]
  omega

/-- Only the frames of the table of R106 have an index, and it is below 8,192 with that address. -/
theorem faddrOf_of_denseOf (hr : region < 64) (hc : column < 32) (hm : minor < 32)
    (h : denseOf (1024 * region + 32 * column + minor) = some n) :
    n < 8192 ∧ faddrOf n = 1024 * region + 32 * column + minor := by
  rw [denseOf_fields hr hc hm] at h
  split at h
  · next island =>
    split at h
    · next block =>
      split at h
      · next minor8 =>
        obtain rfl := Option.some.inj h
        exact ⟨by omega, faddrOf_block island block minor8⟩
      · nomatch h
    · split at h
      · next lagoon =>
        obtain rfl := Option.some.inj h
        exact ⟨by omega, faddrOf_lagoon island lagoon hm⟩
      · split at h
        · next io =>
          obtain rfl := Option.some.inj h
          exact ⟨by omega, faddrOf_io island io.1 io.2⟩
        · nomatch h
  · split at h
    · next strait =>
      split at h
      · next inside =>
        obtain rfl := Option.some.inj h
        exact ⟨by omega, faddrOf_strait strait inside.1 inside.2⟩
      · nomatch h
    · split at h
      · next global =>
        obtain rfl := Option.some.inj h
        exact ⟨by omega, faddrOf_global global.1 global.2⟩
      · nomatch h

/-! ## From indices to addresses -/

theorem denseOf_of_fields {v m : Nat} (hd : denseOf (1024 * region + 32 * column + minor) = some m)
    (hv : v = 1024 * region + 32 * column + minor) (hm : m = n) : denseOf v = some n := by
  rw [hv, hd, hm]

theorem faddrOf_lt (h : n < 8192) : faddrOf n < 65536 := by
  unfold faddrOf
  dsimp only
  split
  · split
    · omega
    · split <;> omega
  · split <;> omega

/-- Every index below 8,192 is the index of the address that `faddrOf` gives it. -/
theorem denseOf_faddrOf (h : n < 8192) : denseOf (faddrOf n) = some n := by
  unfold faddrOf
  dsimp only
  split
  · split
    · exact denseOf_of_fields (denseOf_block (region := n / 168) (column := n % 168 / 8) (minor := n % 168 % 8)
        (by omega) (by omega) (by omega)) (by omega) (by omega)
    · split
      · exact denseOf_of_fields (denseOf_lagoon (region := n / 168) (minor := n % 168 - 128)
          (by omega) rfl (by omega)) (by omega) (by omega)
      · exact denseOf_of_fields (denseOf_io (region := n / 168) (minor := n % 168 - 160)
          (by omega) rfl (by omega)) (by omega) (by omega)
  · split
    · exact denseOf_of_fields (denseOf_strait (column := (n - 8064) / 12) (minor := (n - 8064) % 12)
        rfl (by omega) (by omega)) (by omega) (by omega)
    · exact denseOf_of_fields (denseOf_global (minor := n - 8160) rfl rfl (by omega)) (by omega) (by omega)

end

/-! ## Reading a frame (R15, R18, R20) -/

theorem regionOf_eq_frames {a : Nat} (lo : 0x2000000 ≤ a) (hi : a < 0x2200000) : regionOf a = .frames := by
  simp only [regionOf, decide_eq_true_eq]
  rw [if_neg (by omega), if_neg (by omega), if_pos (by omega)]

namespace Thread

theorem setReg_cur (t : Thread) (k v : Nat) : (t.setReg k v).cur = t.cur := by
  unfold setReg
  split <;> rfl

theorem setReg_program (t : Thread) (o : Option Cur) (k v : Nat) :
    (({ t with cur := o } : Thread).setReg k v).program = (t.setReg k v).program := by
  unfold setReg
  split <;> rfl

end Thread

namespace State

variable {s : State} {r a : Nat} {c : Cur}

theorem src_modCur (f : Cur → Cur) (sel : Nat) : (s.modCur r f).src r sel = s.src r sel := by
  have rings : (s.modCur r f).ring r = s.ring r := rfl
  have time : (s.modCur r f).shadow = s.shadow := rfl
  have epoch : (s.modCur r f).shadowEpoch = s.shadowEpoch := rfl
  have regs : ∀ k, ((s.modCur r f).thr r).reg k = (s.thr r).reg k := fun k => by
    simp only [modCur, modThr_thr_self, Thread.reg]
  have status : ((s.modCur r f).thr r).s = (s.thr r).s := by simp only [modCur, modThr_thr_self]
  unfold src
  dsimp only
  rw [rings, time, epoch, status, regs]

/-- Word k of frame n is 32 bits of its data. -/
theorem frameWord_eq (n : Nat) {k : Nat} (hk : k < 64) :
    s.frameWord (n * 0x100 + 4 * k) = (s.frame n).data.toNat / 2 ^ (32 * k) % 2 ^ 32 := by
  have frame : (n * 0x100 + 4 * k) / 256 = n := by omega
  have word : (n * 0x100 + 4 * k) % 256 / 4 = k := by omega
  simp only [frameWord, field, Nat.shiftRight_eq_div_pow, frame, word]

/-- Tenant 0 may read every frame (R21). -/
theorem deniedTo_frame_tenant0 (hr : ringTenant r = 0) (hreg : regionOf a = .frames) :
    s.deniedTo (.ring r) a false = false := by
  simp [deniedTo, denies, reqTenant, hreg, mayReadFrame, hr]

theorem diaAccess_readFrame {who : Requester} (hreg : regionOf a = .frames) (ha : a % 4 = 0)
    (hden : s.deniedTo who a false = false) (opcode v : Nat) :
    s.diaAccess who opcode false a 4 v = (.done 0 (s.frameWord (a - 0x2000000)), s) := by
  simp [diaAccess, diaJudged, aligned, ha, hreg, hden, plainAccess, readWord]

/-- A read that no earlier access and no full crossing holds back can be made. -/
theorem accessHeld_read {d : DeviceAccess} (hd : d.write = false) (hown : s.behindOwn r = false)
    (hfull : s.forcedFull 12 = false) : s.accessHeld r d = false := by
  simp [accessHeld, hown, crossingHeld, readbackHeld, ldrDataHeld, hd, hfull]

theorem rdDiaCheck_eq_none (hlen : c.length = 2) (hheader : c.headerOk = true) (hsrc : c.op 1 4 5 ≤ 20)
    (hres : c.op 1 10 22 = 0) : rdDiaCheck c = none := by
  simp [rdDiaCheck, formatCheck, hlen, hheader, srcOk, hsrc, hres]

theorem access_of_done {d : DeviceAccess} {st v : Nat} {u : State} (hreply : c.reply = none)
    (h : s.diaAccess (.ring r) c.opcode d.write d.addr d.len d.value = (.done st v, u)) :
    s.access r c d = u.accessEnds r d st v := by
  simp only [access, hreply, h]

/-- An access answered OK fills XD where it is a read, and ends its instruction. -/
theorem accessEnds_ok {d : DeviceAccess} (hd : d.write = false) (hrun : (s.ring r).state = .running) (v : Nat) :
    s.accessEnds r d 0 v = (s.setReg r d.xd v).endInstr r 0 (if d.shown then lo32 v else 0) := by
  have running : ((s.setReg r d.xd v).ring r).state = .running := hrun
  simp [accessEnds, hd, endOk, running]

/-- What RD_DIA has done once its read has been answered OK: the state that the statements write down, with
the instruction marked as started. -/
theorem onlyEnds_setReg_started (xd v : Nat) :
    onlyEnds (s.modThr r (fun t => t.setReg xd v)) ((s.withStarted r).setReg r xd v) := by
  refine ⟨rfl, fun q => ?_, id, fun _ => ⟨rfl, rfl⟩⟩
  by_cases hq : q = r
  · subst hq
    simp only [setReg, withStarted, modCur, modThr_thr_self, Thread.setReg_program]
  · simp only [setReg, withStarted, modCur, modThr_thr_other _ _ _ _ hq]

/-- RD_DIA of an address at which a read is done at once (R355): XD takes the value, and the instruction ends. -/
theorem ends_rdDia {q : RingId} {v : Nat} (hset : s.settled = true) (h : s.starts q c) (hop : c.opcode = 0x20)
    (hcheck : rdDiaCheck c = none) (hheld : s.accessHeld q (s.rdDia q c) = false)
    (hread : (s.withStarted q).diaAccess (.ring q) 0x20 false (s.rdDia q c).addr (s.rdDia q c).len 0 =
      (.done 0 v, s.withStarted q)) :
    State.ends (s.modThr q (fun t => t.setReg (c.op 1 0 4) v)) q c c.next 0 (exec (.rdDia q) s) := by
  have run := runInsn_of_starts h (opcode := (· == 0x20)) (by simp [hop]) hcheck
    (fun c s => s.access q c (s.rdDia q c)) (fun c s => s.accessStrike q c (s.rdDia q c))
    (held := fun c s => c.reply.isNone && s.accessHeld q (s.rdDia q c)) (by simp [hheld])
  obtain ⟨⟨hcur, -, -, -, -, -, -, hrunning, hbegun⟩, -, hreply, -⟩ := h
  have addr : (s.withStarted q).rdDia q c = s.rdDia q c := by
    simp only [rdDia, diaAddr, withStarted, src_modCur]
  have made : (s.withStarted q).access q c (s.rdDia q c) =
      ((s.withStarted q).setReg q (c.op 1 0 4) v).endInstr q 0 (lo32 v) := by
    have running : ((s.withStarted q).ring q).state = .running := hrunning
    rw [access_of_done hreply (by rw [hop]; exact hread), accessEnds_ok rfl running v]
    rfl
  show State.ends _ _ _ _ _ (answer _)
  rw [run, addr, made]
  refine ends_of_endInstr (c := { c with started := true }) (lo32 v) (onlyEnds_setReg_started _ _) hset rfl hbegun ?_
    (.inr rfl) rfl
  simp [setReg, withStarted, modCur, Thread.setReg_cur, hcur]

/-- RD_DIA of a word of a frame by tenant 0 (R20, R21). -/
theorem ends_rdDia_frame {r : RingId} {n k : Nat} (hset : s.settled = true) (htenant : ringTenant r = 0)
    (h : s.starts r c) (hop : c.opcode = 0x20) (hlen : c.length = 2) (hsrc : c.op 1 4 5 ≤ 20)
    (hres : c.op 1 9 23 = 0) (hn : n < 8192) (hk : k < 64)
    (haddr : s.diaAddr r (c.op 1 4 5) (c.word 2) = 0x2000000 + n * 0x100 + 4 * k)
    (hfull : s.forcedFull 12 = false) (hown : s.behindOwn r = false) :
    State.ends (s.modThr r (fun t =>
      t.setReg (c.op 1 0 4) ((s.frame n).data.toNat / 2 ^ (32 * k) % 2 ^ 32))) r c c.next 0
      (exec (.rdDia r) s) := by
  obtain ⟨hnarrow, hres⟩ : bitAt (c.word 1) 9 = false ∧ c.op 1 10 22 = 0 := by
    simp only [bitAt, Cur.op, field, Nat.shiftRight_eq_div_pow, beq_eq_false_iff_ne] at hres ⊢
    omega
  have header : c.headerOk = true := by
    obtain ⟨-, -, -, header, -⟩ := h
    exact header
  have region : regionOf (0x2000000 + n * 0x100 + 4 * k) = .frames := regionOf_eq_frames (by omega) (by omega)
  refine ends_rdDia hset h hop (rdDiaCheck_eq_none hlen header hsrc hres) (accessHeld_read rfl hown hfull) ?_
  have frames : (s.withStarted r).frame n = s.frame n := rfl
  have word := diaAccess_readFrame (s := s.withStarted r) (who := .ring r) region (by omega)
    (deniedTo_frame_tenant0 htenant region) 0x20 0
  rw [show 0x2000000 + n * 0x100 + 4 * k - 0x2000000 = n * 0x100 + 4 * k by omega, frameWord_eq n hk, frames]
    at word
  simpa only [rdDia, haddr, hnarrow, Bool.false_eq_true, if_false] using word

end State

/-- Settles O60: each part of frame space by its lemma, both ways, and the read by RD_DIA's run on tenant 0's
thread. -/
theorem denseFrameIndex : Obligations.FrameIndex := by
  refine ⟨fun region column minor hr hc hm => ?_, fun n h => ⟨faddrOf_lt h, denseOf_faddrOf h⟩, ?_⟩
  · exact ⟨fun island => ⟨denseOf_block island, fun lagoon => denseOf_lagoon island lagoon hm, denseOf_io island⟩,
      denseOf_strait, fun global hcolumn => denseOf_global global hcolumn hm, fun n => faddrOf_of_denseOf hr hc hm⟩
  · intro r c s hset htenant h hop hlen hsrc hres n k hn hk haddr hfull houtstanding hbehind
    have tenant : ringTenant r = 0 := congrArg Fin.val htenant
    have own : s.behindOwn r = false := by simp [State.behindOwn, houtstanding, hbehind]
    exact State.ends_rdDia_frame hset tenant h hop hlen hsrc hres hn hk haddr hfull own

end Sys2Proof.Machine
end

section
/-! PROOF. Where a read of the harbour buffer does change the state: HP_BUF_CORRECTED (R414, R425)
saturates at 0xFFFFFFFF, and a state in which it stands past that, which the statements' hypotheses do not
exclude, is brought down to it by any read. Two statements say of every settled state that such a read changes nothing. -/

namespace Sys2Proof.Machine

/-- RD_DIA X0, [0 + 0]. -/
def readAtZero : Cur := { words := [0x20100000, 0, 0], pos := 0 }

/-- Thread 0 starts `readAtZero` in RUN, with more corrected errors counted than 32 bits hold. -/
def overCounted : State :=
  { mode := { mode := .run, trans := none }
    rings := [(0, { state := .running })]
    threads := [(0, { cur := some readAtZero, pair := some 0 })]
    bufCorrected := 2 ^ 32 }

theorem overCounted_starts : overCounted.starts 0 readAtZero := by
  unfold State.starts State.runs
  decide

theorem overCounted_clipped_by_keeper :
    (answered (exec (.diaAccess .keeper false 0 4 []) overCounted)).map State.bufCorrected =
      some 0xFFFFFFFF := by decide

theorem overCounted_clipped_by_rdDia :
    (answered (exec (.rdDia 0) overCounted)).map State.bufCorrected = some 0xFFFFFFFF := by rfl

section
variable {s : State} {o : Host.Outcome State Fault Refusal}

theorem bufCorrected_of_answersLike (h : answersLike o s) :
    (answered o).map State.bufCorrected = some s.bufCorrected := by
  obtain ⟨t, rfl, like⟩ := h
  have same := congrArg State.bufCorrected like
  exact congrArg some same

theorem bufCorrected_of_ends {r pc status : Nat} {c : Cur} (h : s.ends r c pc status o) :
    (answered o).map State.bufCorrected = some s.bufCorrected := by
  obtain ⟨t, rfl, ⟨ended, -⟩, -⟩ := h
  have same := congrArg State.bufCorrected ended
  exact congrArg some same

end

/-- Refutes O14: the keeper's read of address 0 in `overCounted` answers a count of 0xFFFFFFFF corrected
errors where 2^32 stood, although no word of the buffer holds an error. -/
theorem not_memoryAccesses : ¬ Obligations.MemoryAccesses := by
  unfold Obligations.MemoryAccesses
  intro h
  obtain ⟨-, unheld⟩ := h 0 0 overCounted (by decide) (by decide) (by decide) rfl
  obtain ⟨harbour, -⟩ := unheld (by decide)
  obtain ⟨-, read⟩ := harbour (by decide) rfl rfl
  have kept := bufCorrected_of_answersLike read
  rw [overCounted_clipped_by_keeper] at kept
  exact absurd kept (by decide)

/-- Refutes O48: RD_DIA of address 0 by tenant 0 in `overCounted` ends with a count of 0xFFFFFFFF corrected
errors where 2^32 stood, although no word of the buffer holds an error. -/
theorem not_deviceAccess : ¬ Obligations.DeviceAccess := by
  unfold Obligations.DeviceAccess
  intro h
  obtain ⟨made, -⟩ := h 0 readAtZero overCounted (by decide) overCounted_starts.1
  obtain ⟨rdDia, -⟩ := made overCounted_starts (by decide) (by decide)
  obtain ⟨harbour, -⟩ := rdDia (by decide) (by decide) (by decide)
  have kept := bufCorrected_of_ends (harbour (by decide) (by decide) (by decide) rfl rfl)
  exact absurd (overCounted_clipped_by_rdDia.symm.trans kept) (by decide)

end Sys2Proof.Machine
end

section
/-! PROOF. Two changes of one entry of a table are one change of it, whatever form the table has. -/

namespace Sys2Proof.Machine

section
variable {α : Type} (d : Nat → α) (t : Tab α) (k : Nat)

theorem tabDel_tabDel : tabDel (tabDel t k) k = tabDel t k := by
  simp [tabDel, List.filter_filter]

theorem tabDel_tabPut (v : α) : tabDel (tabPut t k v) k = tabDel t k := by
  induction t with
  | nil => simp [tabPut, tabDel]
  | cons e t ih =>
    obtain ⟨j, w⟩ := e
    unfold tabPut
    split
    · next same => simp [tabDel, same]
    · split
      · simp [tabDel]
      · simp only [tabDel, List.filter_cons] at ih ⊢
        rw [ih]

theorem tabPut_tabPut (v w : α) : tabPut (tabPut t k v) k w = tabPut t k w := by
  induction t with
  | nil => simp [tabPut]
  | cons e t ih =>
    obtain ⟨j, x⟩ := e
    by_cases same : j = k
    · simp [tabPut, same]
    · by_cases below : k < j
      · simp [tabPut, same, below]
      · simp [tabPut, same, below, ih]

/-- The second of two writes of one entry counts. The table of a state need not have its canonical form, so an entry
that the first write has removed must not come back. -/
theorem tabSet_tabSet [DecidableEq α] {v w : α} (h : v = d k → w = d k) :
    tabSet d (tabSet d t k v) k w = tabSet d t k w := by
  by_cases hw : w = d k
  · by_cases hv : v = d k
    · simp [tabSet, hv, hw, tabDel_tabDel]
    · simp [tabSet, hv, hw, tabDel_tabPut]
  · have hv : v ≠ d k := fun e => hw (h e)
    simp [tabSet, hv, hw, tabPut_tabPut]

theorem tabMod_tabMod [DecidableEq α] {f g : α → α} (h : f (tabGet d t k) = d k → g (d k) = d k) :
    tabMod d (tabMod d t k f) k g = tabMod d t k (g ∘ f) := by
  unfold tabMod
  rw [tabGet_tabSet_self, tabSet_tabSet d t k fun e => by rw [e, h e]]
  rfl

end

namespace State

variable (s : State) {i : Nat} {f g : Isl → Isl}

theorem modIsl_modIsl (h : f (s.isl i) = {} → g {} = {}) : (s.modIsl i f).modIsl i g = s.modIsl i (g ∘ f) := by
  simp only [modIsl]
  rw [tabMod_tabMod _ _ _ h]

theorem modIsl_congr (h : f (s.isl i) = g (s.isl i)) : s.modIsl i f = s.modIsl i g := by
  simp only [modIsl, tabMod]
  rw [show f (tabGet _ s.islands i) = g (tabGet _ s.islands i) from h]

end State

/-! ## The answer of a command -/

section
variable {s t : State}

theorem answersLike_answer (fresh : s.leave.stale = false) (h : t.beside = s.beside) : answersLike (answer t) s := by
  have leave := congrArg State.leave h
  rw [State.beside_leave, State.beside_leave] at leave
  exact ⟨_, rfl, (t.finish_beside (leave ▸ fresh)).trans h⟩

/-- A step that has asked for an evaluation of an empty leave queue (R480). -/
theorem answersLike_answer_of_empty (empty : t.leave.queue = [])
    (h : (t.modLeave (fun l => { l with stale := false })).beside = s.beside) : answersLike (answer t) s :=
  ⟨_, rfl, (t.finish_beside_empty empty).trans h⟩

end

end Sys2Proof.Machine
end

section
/-! PROOF. The register interface of an island (R74 to R76): what UACK and the end of the 4,096 cycles
make of the access outstanding there, and which access is presented after it. -/

namespace Sys2Proof.Machine

namespace State

variable {s : State} {i : IslandId} {a : FabAccess}

/-! ## The commands -/

theorem exec_uack_unsampled (h : (s.isl i).ureg.ack = none) : exec (.uack i) s = answer s := by
  show execUack i s = _
  cases hbusy : (s.isl i).ureg.busy <;> simp only [execUack, hbusy, h]

theorem exec_uack_half {d hi : Word} (hbusy : (s.isl i).ureg.busy = some a) (hheld : s.cplHeld a = false)
    (h : (s.isl i).ureg.ack = some d) (hupper : a.upper = some hi) :
    exec (.uack i) s = answer (s.present i { a with
      addr := a.addr + 1, data := hi, upper := none, got := if a.write then [] else a.got ++ [d] }) := by
  show execUack i s = _
  simp only [execUack, hbusy, h, hheld, hupper, Bool.false_eq_true, if_false]

theorem exec_uack_last {d : Word} (hbusy : (s.isl i).ureg.busy = some a) (hheld : s.cplHeld a = false)
    (h : (s.isl i).ureg.ack = some d) (hupper : a.upper = none) :
    exec (.uack i) s =
      answer ((s.nextAccess i).accessDone a 0 (if a.write then [] else a.got ++ [d])).serveBehind := by
  show execUack i s = _
  simp only [execUack, hbusy, h, hheld, hupper, Bool.false_eq_true, if_false]

theorem exec_fabricAccessTimeout_sampled {d : Word} (hbusy : (s.isl i).ureg.busy = some a)
    (h : (s.isl i).ureg.ack = some d) : exec (.fabricAccessTimeout i) s = answer s := by
  show execFabricAccessTimeout i s = _
  simp only [execFabricAccessTimeout, hbusy, h, Option.isSome_some, Bool.true_or, if_true]

theorem exec_fabricAccessTimeout_unsampled (hbusy : (s.isl i).ureg.busy = some a) (hheld : s.cplHeld a = false)
    (h : (s.isl i).ureg.ack = none) :
    exec (.fabricAccessTimeout i) s = answer ((s.nextAccess i).accessDone a 0x25 a.zeros).serveBehind := by
  show execFabricAccessTimeout i s = _
  simp only [execFabricAccessTimeout, hbusy, h, hheld, Option.isSome_none, Bool.or_self, Bool.false_eq_true, if_false]

/-! ## The next access -/

theorem madeOnce_frame (s : State) (who : Requester) :
    s.madeOnce who = { s with threads := (s.madeOnce who).threads } := by
  cases who <;> rfl

/-- Presenting the next access changes islands and threads alone. -/
theorem nextAccess_frame (s : State) (i : Nat) : s.nextAccess i =
    { s with islands := (s.nextAccess i).islands, threads := (s.nextAccess i).threads } := by
  unfold nextAccess
  split
  · rfl
  · unfold present
    rw [madeOnce_frame]
    rfl

theorem nextAccess_leave (s : State) (i : Nat) : (s.nextAccess i).leave = s.leave := by rw [nextAccess_frame]

theorem nextAccess_behind (s : State) (i : Nat) : (s.nextAccess i).behind = s.behind := by rw [nextAccess_frame]

theorem nextAccess_forcedFull (s : State) (i n : Nat) : (s.nextAccess i).forcedFull n = s.forcedFull n := by
  rw [nextAccess_frame]
  rfl

theorem nextAccess_of_none_waiting (h : (s.isl i).ureg.waiting = []) :
    s.nextAccess i = s.modIsl i (fun x => { x with ureg := { x.ureg with
      busy := none, shown := false, ack := none } }) := by
  simp only [nextAccess, h]

/-- The oldest access that waits becomes the outstanding one. -/
theorem nextAccess_of_waiting {b : FabAccess} {rest : List FabAccess} (hbusy : (s.isl i).ureg.busy = some a)
    (h : (s.isl i).ureg.waiting = b :: rest) :
    s.nextAccess i = (s.modIsl i (fun x => { x with ureg := { x.ureg with
      busy := some b, waiting := rest, shown := false, ack := none } })).madeOnce b.who := by
  have busy : ({ s.isl i with ureg := { (s.isl i).ureg with waiting := rest } } : Isl) ≠ {} := fun e => by
    have none_busy := congrArg (fun x : Isl => x.ureg.busy) e
    exact Option.some_ne_none a (hbusy.symm.trans none_busy)
  simp only [nextAccess, h, present]
  rw [modIsl_modIsl s fun e => absurd e busy]
  rfl

/-! ## The end of an access -/

/-- The completion of a window's access that X4 does not hold back is only put out (R19). -/
theorem accessDone_window_beside {q : Nat} (hwho : a.who = .window q)
    (hfree : a.write = true ∨ s.forcedFull 4 = false) (status : Nat) (words : List Word) :
    (s.accessDone a status words).beside = s.beside := by
  simp only [accessDone, hwho]
  split
  · rfl
  · next hread =>
    have free := hfree.resolve_left hread
    unfold complete
    split
    · rfl
    · rw [if_neg (by simp [free])]
      rfl

theorem window_free {q : Nat} (hwho : a.who = .window q) (hheld : s.cplHeld a = false) :
    a.write = true ∨ s.forcedFull 4 = false := by
  simp only [cplHeld, hwho, cplWaits, Bool.and_eq_false_iff, Bool.or_eq_false_iff, Bool.not_eq_false'] at hheld
  exact hheld.imp_right And.left

theorem serveBehind_of_none_behind (h : s.behind = []) : s.serveBehind = s := by
  obtain ⟨⟩ := s
  obtain rfl : _ = [] := h
  rfl

/-- Nothing waits behind the access that has ended (R16). -/
theorem answersLike_serveBehind {t : State} (fresh : s.leave.stale = false) (hbehind : s.behind = [])
    (h : t.beside = s.beside) : answersLike (answer t.serveBehind) s := by
  have behind : t.behind = s.behind := by
    have same := congrArg State.behind h
    exact same
  rw [serveBehind_of_none_behind (behind.trans hbehind)]
  exact answersLike_answer fresh h

section
variable (fresh : s.leave.stale = false) (hbehind : s.behind = [])
include fresh hbehind

theorem answersLike_accessDone_window {q : Nat} (hwho : a.who = .window q) (hheld : s.cplHeld a = false) (status : Nat)
    (words : List Word) :
    answersLike (answer ((s.nextAccess i).accessDone a status words).serveBehind) (s.nextAccess i) := by
  have free : a.write = true ∨ (s.nextAccess i).forcedFull 4 = false := by
    rw [nextAccess_forcedFull]
    exact window_free hwho hheld
  exact answersLike_serveBehind (by rw [nextAccess_leave]; exact fresh) (by rw [nextAccess_behind]; exact hbehind)
    (accessDone_window_beside hwho free status words)

/-- Both ways in which a window's access ends (R75, R76). -/
theorem window_access_ends {q : Nat} (hbusy : (s.isl i).ureg.busy = some a) (hheld : s.cplHeld a = false)
    (hwho : a.who = .window q) (d : Word) :
    ((s.isl i).ureg.ack = some d → a.upper = none → answersLike (exec (.uack i) s) (s.nextAccess i)) ∧
      ((s.isl i).ureg.ack = none → answersLike (exec (.fabricAccessTimeout i) s) (s.nextAccess i)) := by
  refine ⟨fun h hupper => ?_, fun h => ?_⟩
  · rw [exec_uack_last hbusy hheld h hupper]
    exact answersLike_accessDone_window fresh hbehind hwho hheld _ _
  · rw [exec_fabricAccessTimeout_unsampled hbusy hheld h]
    exact answersLike_accessDone_window fresh hbehind hwho hheld _ _

theorem answersLike_accessDone_ring {r : Nat} (hwho : a.who = .ring r) (hr : r < 32) (status : Nat)
    (words : List Word) :
    answersLike (answer ((s.nextAccess i).accessDone a status words).serveBehind)
      ((s.nextAccess i).modThr r (fun t => { t with
        wait := .none, cur := t.cur.map (fun c => { c with reply := some (status, wordsNat words) }) })) := by
  simp only [accessDone, hwho, wakeThread, hr, if_true]
  exact answersLike_serveBehind (by rw [modThr_leave, nextAccess_leave]; exact fresh)
    (by rw [modThr_behind, nextAccess_behind]; exact hbehind) rfl

end

end State

/-- A read that is not completed gives zero (R76). -/
theorem FabAccess.wordsNat_zeros (a : FabAccess) : wordsNat a.zeros = 0 := by
  unfold zeros
  split <;> rfl

/-- Settles O15: each command by its equation, and the access that follows by `State.nextAccess`. -/
theorem fabricHandshake : Obligations.FabricHandshake := by
  intro i d a s hset hbehind hbusy hheld
  have fresh : s.leave.stale = false := (s.settled_iff.mp hset).2
  refine ⟨fun h => ?_, fun h => ?_, fun h hi hupper => ?_, fun hwait => ⟨fun q hwho => ?_, fun r hwho hr _ => ?_⟩,
    fun b rest hwait q hwho => ?_⟩
  · rw [State.exec_uack_unsampled h]
    exact answersLike_answer fresh rfl
  · rw [State.exec_fabricAccessTimeout_sampled hbusy h]
    exact answersLike_answer fresh rfl
  · rw [State.exec_uack_half hbusy hheld h hupper]
    refine answersLike_answer ?_ rfl
    rw [State.madeOnce_frame]
    exact fresh
  · rw [← State.nextAccess_of_none_waiting hwait]
    exact State.window_access_ends fresh hbehind hbusy hheld hwho d
  · rw [← State.nextAccess_of_none_waiting hwait]
    refine ⟨fun h hupper => ?_, fun h => ?_⟩
    · rw [State.exec_uack_last hbusy hheld h hupper,
        show (if a.write then 0 else wordsNat (a.got ++ [d])) = wordsNat (if a.write then [] else a.got ++ [d]) by
          split <;> rfl]
      exact State.answersLike_accessDone_ring fresh hbehind hwho hr _ _
    · rw [State.exec_fabricAccessTimeout_unsampled hbusy hheld h, ← a.wordsNat_zeros]
      exact State.answersLike_accessDone_ring fresh hbehind hwho hr _ _
  · rw [← State.nextAccess_of_waiting hbusy hwait]
    exact State.window_access_ends fresh hbehind hbusy hheld hwho d

end Sys2Proof.Machine
end

section
/-! PROOF. The leave port of an island (R78, R485): what the unit makes of the rises and falls of LREQ that
the port has sampled, and which of them it samples. -/

namespace Sys2Proof.Machine

namespace State

variable {s : State} {i : IslandId} {later : List (Option Nat)}

theorem takeLeaveEdge_of_cons {e : Option Nat} (h : (s.isl i).leave.edges = e :: later) :
    s.takeLeaveEdge i = s.modIsl i (fun x => { x with leave := { x.leave with edges := later } }) :=
  modIsl_congr s (by simp [h])

theorem exec_lreqRise {sel : Nat} (h : (s.isl i).leave.edges = some sel :: later) :
    exec (.lreqRise i) s = answer ((s.takeLeaveEdge i).leaveAsk
      { who := .island i, cost := costOf (s.leave.iclsReg i sel), prio := prioOf (s.leave.iclsReg i sel)
        duration := durationOf (s.leave.iclsReg i sel), timeout := s.leave.defaultNs, at_ := s.coreNs }) := by
  show execLreqRise i s = _
  simp only [execLreqRise, h, List.head?_cons]

/-- The fall is the unit's, and no answer is on its way to the port any more (R78). -/
theorem exec_lreqFall (h : (s.isl i).leave.edges = none :: later) :
    exec (.lreqFall i) s = answer (((s.modIsl i (fun x => { x with leave := { x.leave with
      edges := later, granted := false, denied := false } })).leaveWithdraw (· == .island i)).leaveFree
        (· == .island i)) := by
  have port : (s.takeLeaveEdge i).modIsl i (fun x => { x with leave := { x.leave with
      granted := false, denied := false } }) = s.modIsl i (fun x => { x with leave := { x.leave with
        edges := later, granted := false, denied := false } }) := by
    rw [takeLeaveEdge_of_cons h, modIsl_modIsl s fun _ => rfl]
    rfl
  rw [← port]
  show execLreqFall i s = _
  simp only [execLreqFall, h, List.head?_cons]
  rfl

/-- A withdrawal where no request is queued, then a release: the evaluation of the queue (R480) finds nothing. -/
theorem answersLike_withdraw_free {p : Asker → Bool} (hqueue : s.leave.queue = []) :
    answersLike (answer ((s.leaveWithdraw p).leaveFree p)) (s.modLeave (fun l => { l with
      arriving := l.arriving.filter (fun q => !p q.who), leases := l.leases.filter (fun x => !p x.who)
      stale := false })) := by
  refine answersLike_answer_of_empty ?_ (congrArg State.beside ?_)
  · simp [leaveWithdraw, leaveFree, hqueue]
  · simp [leaveWithdraw, leaveFree, modLeave, hqueue]

end State

namespace LeavePort

variable {p : LeavePort} (n : Nat)

/-- A rise that the port takes for a request (R78). -/
theorem sample_rise (hseen : p.seen = false) (hgrant : p.lgrant = false) (hdeny : p.ldeny = false) :
    p.sample true n = { p with seen := true, asked := true, edges := p.edges ++ [some n] } := by
  simp [sample, hseen, hgrant, hdeny]

theorem sample_rise_ignored (hseen : p.seen = false) (h : p.lgrant = true ∨ p.ldeny = true) :
    p.sample true n = { p with seen := true } := by
  rcases h with h | h <;> simp [sample, hseen, h]

theorem sample_fall (hseen : p.seen = true) :
    (p.sample false n).edges = if p.asked then p.edges ++ [none] else p.edges := by
  cases h : p.asked <;> simp [sample, hseen, h]

end LeavePort

/-- Settles O16: the commands by their equations, and the port's sampling rise by rise. -/
theorem leavePorts : Obligations.LeavePorts := by
  intro i sel later s hset
  refine ⟨fun h => ?_, fun h hqueue => ?_, fun p n hseen => ⟨fun hgrant hdeny => ?_, fun hanswer hasked => ?_⟩⟩
  · rw [State.exec_lreqRise h, State.takeLeaveEdge_of_cons h]
    exact answersLike_answer (s.settled_iff.mp hset).2 rfl
  · rw [State.exec_lreqFall h]
    exact State.answersLike_withdraw_free hqueue
  · rw [LeavePort.sample_rise n hseen hgrant hdeny]
    exact ⟨rfl, by simp [LeavePort.sample_fall]⟩
  · rw [LeavePort.sample_rise_ignored n hseen hanswer, LeavePort.sample_fall n rfl]
    simp [hasked]

end Sys2Proof.Machine
end

section
/-! PROOF. A register of flags (`maskOf`) read bit by bit, a change of one island after the other, and what the end of a
step leaves alone. -/

namespace Sys2Proof.Machine

/-! ## Registers of flags -/

theorem maskOf_succ (n : Nat) (p : Nat → Bool) :
    maskOf (n + 1) p = if p n then maskOf n p + 2 ^ n else maskOf n p := by
  simp [maskOf, List.range_succ]

theorem maskOf_lt (n : Nat) (p : Nat → Bool) : maskOf n p < 2 ^ n := by
  induction n with
  | zero => simp [maskOf]
  | succ n ih =>
    rw [maskOf_succ, Nat.pow_succ]
    split <;> omega

theorem testBit_maskOf (n : Nat) (p : Nat → Bool) (j : Nat) :
    (maskOf n p).testBit j = (decide (j < n) && p j) := by
  induction n with
  | zero => simp [maskOf]
  | succ n ih =>
    have top : (maskOf n p).testBit n = false := Nat.testBit_lt_two_pow (maskOf_lt n p)
    rw [maskOf_succ]
    rcases Nat.lt_trichotomy j n with below | rfl | above
    · have low : (2 ^ n + maskOf n p).testBit j = (maskOf n p).testBit j := Nat.testBit_two_pow_add_gt below _
      rw [Nat.add_comm] at low
      split <;> simp [low, ih, below, Nat.lt_succ_of_lt below]
    · have here : (2 ^ j + maskOf j p).testBit j = !(maskOf j p).testBit j := Nat.testBit_two_pow_add_eq _ _
      rw [Nat.add_comm] at here
      split <;> simp_all
    · have high : maskOf (n + 1) p < 2 ^ j :=
        Nat.lt_of_lt_of_le (maskOf_lt _ p) (Nat.pow_le_pow_right (by decide) above)
      rw [← maskOf_succ, Nat.testBit_lt_two_pow high]
      simp [Nat.not_lt.mpr above]

theorem getLsbD_maskOf {n j : Nat} (h : j < n) (p : Nat → Bool) : (BitVec.ofNat n (maskOf n p)).getLsbD j = p j := by
  rw [BitVec.getLsbD_ofNat, testBit_maskOf]
  simp [h]

/-! ## Loops -/

/-- A loop of which no step does anything. -/
theorem overAll_id {n : Nat} {f : Nat → State → State} {s : State} (h : ∀ k, f k s = s) : overAll n f s = s :=
  overAll_keeps (· = s) n f (fun k _ same => same ▸ h k) s rfl

namespace State

/-- A change of every island below n, one after the other, where what it does to an island does not depend on the
islands: each is changed once, and no other unit is. -/
theorem overAll_modIsl {s : State} {f : State → Nat → Isl → Isl}
    (hf : ∀ t, t = { s with islands := t.islands } → f t = f s) (n : Nat) :
    let t := overAll n (fun i t => t.modIsl i (f t i)) s
    t = { s with islands := t.islands } ∧ ∀ j, t.isl j = if j < n then f s j (s.isl j) else s.isl j := by
  induction n with
  | zero => exact ⟨rfl, fun j => by simp [overAll]⟩
  | succ n ih =>
    obtain ⟨others, islands⟩ := ih
    have last : overAll (n + 1) (fun i t => t.modIsl i (f t i)) s =
        (overAll n (fun i t => t.modIsl i (f t i)) s).modIsl n (f s n) := by
      rw [← hf _ others]
      simp [overAll, List.range_succ]
    rw [last]
    refine ⟨congrArg (fun t : State => t.modIsl n (f s n)) others, fun j => ?_⟩
    by_cases same : j = n
    · subst same
      rw [modIsl_isl_self, islands]
      simp
    · rw [modIsl_isl_other _ _ _ _ same, islands]
      simp only [show j < n + 1 ↔ j < n by omega]

/-! ## The end of a step -/

/-- What the end of a step leaves as it is. -/
theorem finish_keeps {α : Type} {s : State} (f : State → α) (hf : ∀ t, f t.beside = f t)
    (fresh : s.leave.stale = false) : f s.finish = f s := by
  rw [← hf s.finish, s.finish_beside fresh, hf]

end State

end Sys2Proof.Machine
end

section
/-! PROOF. The synthesizers and the global lines (R94 to R97, R182): what each command comes to. -/

namespace Sys2Proof.Machine

namespace State

variable {s : State} {c : SynthId} {l : LineId}

/-! ## Synthesizers (R94 to R96) -/

theorem exec_synthLock_outside (h : s.synthSetupOk c = false) : exec (.synthLock c) s = answer s := by
  show execSynthLock c s = _
  simp only [execSynthLock, h, Bool.not_false, or_true, if_true]

/-- A lock, which is logged where it is a relock (R96). -/
theorem exec_synthLock_locks (hmode : s.mode.mode ≠ .reset) (hen : s.synthEn c = true)
    (hlock : s.clocks.lock.getLsbD c = false) (hok : s.synthSetupOk c = true) :
    let locked := (s.modClocks (fun k => { k with
      lock := k.lock ||| synthMask c, ran := k.ran ||| synthMask c
      waiting := k.waiting &&& ~~~synthMask c })).synthLeaseEnds c
    exec (.synthLock c) s =
      answer (if s.clocks.ran.getLsbD c then locked.event 0x0131 0 scopeG [(1, c)] else locked) := by
  show execSynthLock c s = _
  simp only [execSynthLock, hmode, hen, hlock, hok, Bool.not_true, Bool.false_eq_true, or_self, if_false]

theorem exec_synthLockWaitEnd (h : s.clocks.waiting.getLsbD c = true) :
    exec (.synthLockWaitEnd c) s = answer ((((s.modClocks (fun k => { k with
      waiting := k.waiting &&& ~~~synthMask c })).synthLeaseEnds c).event 0x0130 2 scopeG
        [(1, c), (1, 1)]).faultBit 8) := by
  show execSynthLockWaitEnd c s = _
  simp only [execSynthLockWaitEnd, h, if_true]

/-- Outputs that are all low stay as they are (R96). -/
theorem synthLow_of_lines_low (h : s.clocks.lineHigh = 0) (c : Nat) : s.synthLow c = s :=
  overAll_id fun l => by simp [h]

theorem exec_synthLossOfLock (h : s.clocks.lock.getLsbD c = true) (hlow : s.clocks.lineHigh = 0) :
    exec (.synthLossOfLock c) s = answer (((s.modClocks (fun k => { k with
      lock := k.lock &&& ~~~synthMask c, loss := k.loss ||| synthMask c })).event 0x0130 2 scopeG
        [(1, c), (1, 0)]).faultBit 8) := by
  show execSynthLossOfLock c s = _
  simp only [execSynthLossOfLock, h, if_true, synthLow_of_lines_low hlow]

/-! ## Global lines (R97, R182) -/

/-- The island clocks of an island that another line feeds. -/
def unfed (s : State) (l i : Nat) : BitVec 4 := BitVec.ofNat 4 (maskOf 4 (fun j => s.iclkLine i j != l))

theorem getLsbD_unfed (i : Nat) (j : Fin 4) : (s.unfed l i).getLsbD j = (s.iclkLine i j != l.val) :=
  getLsbD_maskOf j.isLt _

/-- What the registers of an island leave of its reset when a line has edges again (R182). -/
def restarted (s : State) (l i : Nat) (x : Isl) : Isl := { x with coldClocks := x.coldClocks &&& s.unfed l i }

/-- The lines that feed the island clocks stand in the global frames. -/
theorem restarted_congr {t : State} (h : t = { s with islands := t.islands }) (l : Nat) :
    t.restarted l = s.restarted l := by
  rw [h]
  rfl

/-- The state after a line has edges again (R182). -/
def restart (s : State) (l : LineId) : State :=
  if s.clocksRun then overAll 48 (fun i t => t.modIsl i (t.restarted l i)) (s.lineSeen l) else s.lineSeen l

theorem exec_globalLineRestart (h : s.lineRuns l = true) : exec (.globalLineRestart l) s = answer (s.restart l) := by
  show execGlobalLineRestart l s = _
  simp only [execGlobalLineRestart, h, if_true]
  rfl

/-- A restart marks its line as active, and changes the islands' clocks alone beside. -/
theorem restart_spec (s : State) (l : LineId) :
    s.restart l = { s.lineSeen l with islands := (s.restart l).islands } ∧
      ∀ i : IslandId, (s.restart l).isl i = if s.clocksRun then s.restarted l i (s.isl i) else s.isl i := by
  unfold restart
  split
  · obtain ⟨others, islands⟩ := overAll_modIsl (s := s.lineSeen l) (fun t h => restarted_congr h l) 48
    exact ⟨others, fun i => (islands i).trans (if_pos i.isLt)⟩
  · exact ⟨rfl, fun _ => rfl⟩

end State

/-- Settles O17: the commands of a synthesizer by their equations, the restart of a line by `State.restart_spec`. -/
theorem clocks : Obligations.Clocks := by
  refine ⟨fun c s hset hqueue => ⟨fun hmode hen hlock hok => ?_, fun houtside => ?_, fun hwait => ?_,
    fun hlock hlow => ?_⟩, fun l s hset => ⟨?_, fun hruns => ?_⟩⟩
  · rw [State.exec_synthLock_locks hmode hen hlock hok]
    split
    · exact answersLike_answer_of_empty hqueue rfl
    · exact answersLike_answer_of_empty hqueue rfl
  · rw [State.exec_synthLock_outside houtside]
    exact answersLike_answer (s.settled_iff.mp hset).2 rfl
  · rw [State.exec_synthLockWaitEnd hwait]
    exact answersLike_answer_of_empty hqueue rfl
  · rw [State.exec_synthLossOfLock hlock hlow]
    exact answersLike_answer (s.settled_iff.mp hset).2 rfl
  · exact answersLike_answer (s.settled_iff.mp hset).2 rfl
  · obtain ⟨others, islands⟩ := s.restart_spec l
    have fresh : (s.restart l).leave.stale = false := by
      rw [others]
      exact (s.settled_iff.mp hset).2
    have isl (i : IslandId) : (s.restart l).finish.isl i = if s.clocksRun then s.restarted l i (s.isl i) else s.isl i :=
      (State.finish_keeps (fun t => t.isl i) (fun _ => rfl) fresh).trans (islands i)
    refine ⟨_, State.exec_globalLineRestart hruns, ?_, fun hclocks i j => ?_, fun i => ?_, ?_, ?_, ?_⟩
    · rw [State.finish_keeps State.clocks (fun _ => rfl) fresh, others]
      rfl
    · rw [isl, if_pos hclocks, State.restarted, BitVec.getLsbD_and, State.getLsbD_unfed]
    · rw [isl]
      split
      · exact ⟨rfl, rfl⟩
      · exact ⟨rfl, rfl⟩
    · rw [State.finish_keeps State.frames (fun _ => rfl) fresh, others]
      rfl
    · rw [State.finish_keeps State.rings (fun _ => rfl) fresh, others]
      rfl
    · rw [State.finish_keeps State.threads (fun _ => rfl) fresh, others]
      rfl

end Sys2Proof.Machine
end

section
/-! PROOF. CAPTURE (R366, R102 to R105): its runs, the start of a capture and its end, and the two commands that
end the wait of one. -/

namespace Sys2Proof.Machine

/-! ## Operands (R366) -/

theorem Cur.captureIslands_eq_nil {c : Cur} (h : c.wide 2 = 0) : c.captureIslands = [] := by
  simp [Cur.captureIslands, h, bitAt]

theorem captureCheck_eq_none {c : Cur} (hlen : c.length = 4) (hheader : c.headerOk = true) (hsrc : c.op 1 4 5 ≤ 20)
    (hres : c.op 1 9 23 = 0) (hhigh : c.op 3 16 16 = 0) (hnamed : c.captureIslands ≠ []) : captureCheck c = none := by
  have named : c.wide 2 ≠ 0 := fun h => hnamed (Cur.captureIslands_eq_nil h)
  simp [captureCheck, formatCheck, hlen, hheader, srcOk, hsrc, hres, hhigh, named]

/-- The stamp is within 6 ns of the time (R104). -/
theorem edgeStamp_within (s : State) (time : Nat) :
    ∃ d : Fin 13, (s.edgeStamp time).1 = (time + 2 ^ 64 + d.val - 6) % 2 ^ 64 :=
  ⟨⟨Config.freeValue s.freeCounter % 13, Nat.mod_lt _ (by decide)⟩, rfl⟩

theorem edgeStamp_lt (s : State) (time : Nat) : (s.edgeStamp time).1 < 2 ^ 64 := Nat.mod_lt _ (by decide)

namespace State

variable {s t : State} {r l : Nat} {c : Cur}

/-! ## Runs -/

/-- An instruction that has started is run on (R332), unless what it does next is held. -/
theorem runInsn_of_started {opcode : Nat → Bool} (check : Cur → Option Nat) (h : s.runs r c)
    (hop : opcode c.opcode = true) (hstarted : c.started = true) (body : Cur → State → State)
    (strike : Cur → State → Strike) (held : Cur → State → Bool) :
    s.runInsn r opcode check body strike held = if held c s then s else body c s := by
  obtain ⟨hcur, hpair, hwait, hunread, hfin, hmay, hstruck, -, -⟩ := h
  have on : s.runsOn r opcode c = true := by simp [runsOn, hop, hwait, hunread, hfin, hmay]
  simp [runInsn, hstruck, runOp, hcur, on, hpair, hstarted]

/-! ## Writing the harbour buffer -/

theorem memPut_harbour {a : Nat} (ha : a < 0x800000) (hbad : s.harbourBad = []) (hsoft : s.harbourSoft = [])
    (bytes : List Byte) : s.memPut a bytes = { s with harbour := memWrite 0 s.harbour a bytes } := by
  simp only [memPut, if_pos ha, harbourWrite, hbad, hsoft, List.filter_nil]

/-- Ends of instructions and a write of the harbour buffer, whose order does not matter. -/
theorem onlyEnds_harbour (h : onlyEnds s t) (m : List (Nat × Byte)) :
    onlyEnds { s with harbour := m } { t with harbour := m } := by
  obtain ⟨ended, programs, undegraded⟩ := h
  exact ⟨congrArg (fun u : State => { u with harbour := m }) ended, programs, undegraded⟩

/-! ## The snapshot is written (R366) -/

theorem endOk_of_running (h : (s.ring r).state = .running) (x : Nat) : s.endOk r x = s.endInstr r 0 x := by
  simp [endOk, h]

/-- CAPTURE ends where it writes its snapshot, in a state `t` that has only drawn a stamp since `s`. -/
theorem ends_captureEnds {a : Nat} (h : onlyEnds s t) (hset : s.settled = true) (hrings : t.rings = s.rings)
    (hrun : (s.ring r).state = .running) (hbegun : s.recordBegun r = false) (hcur : (t.thr r).cur = some c)
    (ha : a < 0x800000) (hbad : s.harbourBad = []) (hsoft : s.harbourSoft = []) (mask : Nat) (bytes : List Byte) :
    State.ends { s with harbour := memWrite 0 s.harbour a bytes } r c c.next 0
      (answer (t.captureEnds r a mask bytes)) := by
  have harbour : t.harbour = s.harbour ∧ t.harbourBad = [] ∧ t.harbourSoft = [] := by
    rw [h.1]
    exact ⟨rfl, hbad, hsoft⟩
  obtain ⟨same, bad, soft⟩ := harbour
  have running : (t.ring r).state = .running := by
    rw [← hrun]
    simp only [ring, hrings]
  have written : t.captureEnds r a mask bytes = (({ t with harbour := memWrite 0 s.harbour a bytes }).modCur r (fun c =>
      { c with progress := countBelow 48 (bitAt mask), staged := none })).endInstr r 0 (lo32 mask) := by
    rw [captureEnds, memPut_harbour ha bad soft, same]
    exact endOk_of_running (by exact running) _
  rw [written]
  refine ends_of_endInstr (c := { c with progress := countBelow 48 (bitAt mask), staged := none }) (lo32 mask)
    (onlyEnds_modCur (onlyEnds_harbour h _) r _) hset hrings hbegun ?_ (.inr rfl) rfl
  simp only [modCur, modThr_thr_self]
  exact congrArg (Option.map _) hcur

/-! ## The start (R366, R105) -/

/-- CAPTURE that starts, with its format right and nothing holding it back. -/
theorem exec_ovCapture_starts {r : RingId} (h : s.starts r c) (hop : c.opcode = 0x45) (hcheck : captureCheck c = none)
    (hheld : s.mode.frozen = false ∨ s.behindOwn r = false) :
    exec (.ovCapture r) s = answer ((s.withStarted r).captureStart r c) := by
  have reply : c.reply = none := by
    obtain ⟨-, -, reply, -⟩ := h
    exact reply
  have held : ((c.reply.isSome || s.mode.frozen) && s.behindOwn r) = false := by
    rcases hheld with free | free <;> simp [reply, free]
  have run := runInsn_of_starts h (opcode := (· == 0x45)) (by simp [hop]) hcheck (fun c s => s.capture r c)
    (State.waitStrike r (fun c s => s.capture r c))
    (held := fun c s => (c.reply.isSome || s.mode.frozen) && s.behindOwn r) held
  show execOvCapture r s = _
  rw [execOvCapture, run]
  simp only [capture, reply]

/-- CAPTURE that waits for an edge of its line, its snapshot's address kept (R103). -/
def captureWaits (s : State) (r a : Nat) (c : Cur) : State :=
  ((s.keepRange r 0 a (16 + 72 * c.captureIslands.length)).setCapture (c.op 1 0 4)
    (some { ring := r, islands := BitVec.ofNat 48 (c.wide 2) })).modThr r (fun t =>
      { t with wait := .capture (c.op 1 0 4) })

/-- What the start of CAPTURE comes to where it passes its checks: a snapshot at once while the fabric is frozen,
and a wait otherwise. -/
theorem captureStart_of_checks {a : Nat} (haddr : s.diaAddr r (c.op 1 4 5) (c.word 4) = a)
    (hfits : inMemory a (16 + 72 * c.captureIslands.length) = true)
    (hislands : ∀ i ∈ c.captureIslands, s.ownsIsland r i = true)
    (hbytes : s.ownsBytes r a (16 + 72 * c.captureIslands.length) = true) (hfree : s.captureOn (c.op 1 0 4) = none) :
    s.captureStart r c =
      if s.mode.frozen then
        let got := s.captured (c.op 1 0 4) c.captureIslands
        let stamp := s.edgeStamp (time64 s.tb.sec s.tb.nsec)
        stamp.2.captureEnds r a (capturedMask got) (captureBytes stamp.1 got)
      else s.captureWaits r a c := by
  have own : c.captureIslands.find? (fun i => !s.ownsIsland r i) = none := by
    simpa using hislands
  simp [captureStart, haddr, hfits, own, hbytes, hfree, captureWaits]

theorem diaAddr_withStarted (sel imm : Nat) : (s.withStarted r).diaAddr r sel imm = s.diaAddr r sel imm := by
  simp only [diaAddr, withStarted, src_modCur]

theorem captured_withStarted (l : Nat) (islands : List Nat) :
    (s.withStarted r).captured l islands = s.captured l islands := rfl

theorem captureWaits_units (s : State) (r a : Nat) (c : Cur) : (s.captureWaits r a c).islands = s.islands ∧
    (s.captureWaits r a c).harbour = s.harbour ∧ (s.captureWaits r a c).rings = s.rings := by
  simp only [captureWaits, setCapture, keepRange, modCur, modThr_islands, modThr_harbour, modThr_rings,
    modClocks_islands, modClocks_harbour, modClocks_rings, and_self]

theorem captureWaits_thr (s : State) (r a : Nat) (c : Cur) : (s.captureWaits r a c).thr r =
    { (s.keepRange r 0 a (16 + 72 * c.captureIslands.length)).thr r with wait := .capture (c.op 1 0 4) } :=
  modThr_thr_self _ r _

theorem captureWaits_captures (s : State) (r a : Nat) (c : Cur) :
    tabGet (fun _ => none) (s.captureWaits r a c).clocks.captures (c.op 1 0 4) =
      some { ring := r, islands := BitVec.ofNat 48 (c.wide 2) } := by
  have captures : (s.captureWaits r a c).clocks.captures = tabSet (fun _ => none) s.clocks.captures (c.op 1 0 4)
      (some { ring := r, islands := BitVec.ofNat 48 (c.wide 2) }) := rfl
  rw [captures, tabGet_tabSet_self]

/-- What the start of a CAPTURE that waits leaves: its thread keeps its pair (R103). -/
theorem captureWaits_finish (s : State) (r a : Nat) (c : Cur) (fresh : s.leave.stale = false) :
    let t := ((s.withStarted r).captureWaits r a c).finish
    (t.thr r).wait = .capture (c.op 1 0 4) ∧ (t.thr r).pair = (s.thr r).pair ∧
      tabGet (fun _ => none) t.clocks.captures (c.op 1 0 4) =
        some { ring := r, islands := BitVec.ofNat 48 (c.wide 2) } ∧
      t.islands = s.islands ∧ t.harbour = s.harbour ∧ t.rings = s.rings := by
  have waiting : ((s.withStarted r).captureWaits r a c).leave.stale = false := fresh
  obtain ⟨islands, harbour, rings⟩ := (s.withStarted r).captureWaits_units r a c
  refine ⟨?_, ?_, ?_, ?_, ?_, ?_⟩
  · rw [finish_thr _ waiting, captureWaits_thr]
  · rw [finish_thr _ waiting, captureWaits_thr]
    simp only [keepRange, withStarted, modCur, modThr_thr_self]
  · rw [finish_keeps State.clocks (fun _ => rfl) waiting, captureWaits_captures]
  · rw [finish_keeps State.islands (fun _ => rfl) waiting, islands, withStarted, modCur, modThr_islands]
  · rw [finish_keeps State.harbour (fun _ => rfl) waiting, harbour, withStarted, modCur, modThr_harbour]
  · rw [finish_keeps State.rings (fun _ => rfl) waiting, rings, withStarted, modCur, modThr_rings]

section
variable {r : RingId} {a : Nat} (hstarts : s.starts r c) (hop : c.opcode = 0x45)
  (hcheck : captureCheck c = none) (haddr : s.diaAddr r (c.op 1 4 5) (c.word 4) = a)
  (hfits : a + (16 + 72 * c.captureIslands.length) ≤ 0x800000)
  (hislands : ∀ i ∈ c.captureIslands, s.ownsIsland r i = true)
  (hbytes : s.ownsBytes r a (16 + 72 * c.captureIslands.length) = true) (hfree : s.captureOn (c.op 1 0 4) = none)
include hstarts hop hcheck haddr hfits hislands hbytes hfree

theorem ovCapture_waits (hfrozen : s.mode.frozen = false) :
    exec (.ovCapture r) s = answer ((s.withStarted r).captureWaits r a c) := by
  have start := captureStart_of_checks (s := s.withStarted r) ((s.diaAddr_withStarted _ _).trans haddr)
    (by simp [inMemory, hfits]) hislands hbytes hfree
  rw [exec_ovCapture_starts hstarts hop hcheck (.inl hfrozen), start]
  exact congrArg answer (if_neg (show ¬s.mode.frozen = true by simp [hfrozen]))

theorem ends_ovCapture_frozen (hset : s.settled = true) (hfrozen : s.mode.frozen = true) (hown : s.behindOwn r = false)
    (hbad : s.harbourBad = []) (hsoft : s.harbourSoft = []) :
    State.ends { s with harbour := memWrite 0 s.harbour a (captureBytes
      (s.edgeStamp (time64 s.tb.sec s.tb.nsec)).1 (s.captured (c.op 1 0 4) c.captureIslands)) } r c c.next 0
      (exec (.ovCapture r) s) := by
  have start := captureStart_of_checks (s := s.withStarted r) ((s.diaAddr_withStarted _ _).trans haddr)
    (by simp [inMemory, hfits]) hislands hbytes hfree
  have small : a < 0x800000 := by omega
  rw [exec_ovCapture_starts hstarts hop hcheck (.inr hown), start,
    if_pos (show (s.withStarted r).mode.frozen = true from hfrozen), captured_withStarted]
  obtain ⟨⟨hcur, -, -, -, -, -, -, hrun, hbegun⟩, -⟩ := hstarts
  have drawn : onlyEnds s ((s.withStarted r).edgeStamp (time64 s.tb.sec s.tb.nsec)).2 :=
    onlyEnds_draw (onlyEnds_modCur (onlyEnds_refl s) r _)
  refine ends_captureEnds (c := { c with started := true }) drawn hset rfl hrun hbegun ?_ small hbad hsoft _ _
  have cur : ((s.withStarted r).thr r).cur = some { c with started := true } := by
    simp only [withStarted, modCur, modThr_thr_self, hcur, Option.map_some]
  exact cur

end

/-! ## Running on after the wait (R366) -/

section
variable {r : RingId} {mask : Nat} {bytes : List Byte} (hruns : s.runs r c) (hop : c.opcode = 0x45)
  (hstarted : c.started = true) (hreply : c.reply = some (0, mask)) (hstaged : c.staged = some bytes)
include hruns hop hstarted hreply hstaged

theorem exec_ovCapture_replied : exec (.ovCapture r) s =
    answer (if s.behindOwn r then s else s.captureEnds r c.a1 mask bytes) := by
  show execOvCapture r s = _
  rw [execOvCapture, runInsn_of_started captureCheck hruns (by simp [hop]) hstarted]
  simp [capture, hreply, hstaged]

theorem ends_ovCapture_replied (hset : s.settled = true) (ha : c.a1 < 0x800000) (hown : s.behindOwn r = false)
    (hbad : s.harbourBad = []) (hsoft : s.harbourSoft = []) :
    State.ends { s with harbour := memWrite 0 s.harbour c.a1 bytes } r c c.next 0 (exec (.ovCapture r) s) := by
  rw [exec_ovCapture_replied hruns hop hstarted hreply hstaged, if_neg (by simp [hown])]
  obtain ⟨hcur, -, -, -, -, -, -, hrun, hbegun⟩ := hruns
  exact ends_captureEnds (onlyEnds_refl s) hset rfl hrun hbegun hcur ha hbad hsoft mask bytes

end

/-! ## The end of a wait (R103 to R105) -/

theorem exec_captureEdge_none {l : LineId} {cap : Capture} (hcap : s.captureOn l = some cap) (h : cap.edge = none) :
    exec (.captureEdge l) s = answer s := by
  obtain ⟨ring, islands, edge⟩ := cap
  obtain rfl : edge = none := h
  show execCaptureEdge l s = _
  simp only [execCaptureEdge, hcap]

theorem exec_captureEdge_some {l : LineId} {cap : Capture} {time : Nat} {got : List (Nat × Option (BitVec 576))}
    (hcap : s.captureOn l = some cap) (h : cap.edge = some (time, got)) :
    exec (.captureEdge l) s =
      answer ((s.edgeStamp time).2.takeCapture cap.ring l (s.edgeStamp time).1 got) := by
  obtain ⟨ring, islands, edge⟩ := cap
  obtain rfl : edge = some (time, got) := h
  show execCaptureEdge l s = _
  simp only [execCaptureEdge, hcap]

theorem exec_captureTimeout_none {l : LineId} {cap : Capture} (hcap : s.captureOn l = some cap) (h : cap.edge = none) :
    exec (.captureTimeout l) s = answer ((s.dropCapture l).wakeThread cap.ring 0x25 0) := by
  obtain ⟨ring, islands, edge⟩ := cap
  obtain rfl : edge = none := h
  show execCaptureTimeout l s = _
  simp only [execCaptureTimeout, hcap]

theorem exec_captureTimeout_some {l : LineId} {cap : Capture} {e : Nat × List (Nat × Option (BitVec 576))}
    (hcap : s.captureOn l = some cap) (h : cap.edge = some e) : exec (.captureTimeout l) s = answer s := by
  obtain ⟨ring, islands, edge⟩ := cap
  obtain rfl : edge = some e := h
  show execCaptureTimeout l s = _
  simp only [execCaptureTimeout, hcap]

/-- A capture that waited on line l has been taken off it, and the instruction in flight on its ring goes on as `x`;
no register, clock, memory, frame or other thread has changed. -/
def captureOver (s : State) (l ring : Nat) (x : Cur) (t : State) : Prop :=
  tabGet (fun _ => none) t.clocks.captures l = none ∧
    t.clocks = { s.clocks with captures := t.clocks.captures } ∧
    t.thr ring = { s.thr ring with wait := .none, cur := some x } ∧
    (∀ r : RingId, r.val ≠ ring → t.thr r = s.thr r) ∧
    t.islands = s.islands ∧ t.harbour = s.harbour ∧ t.rings = s.rings ∧ t.frames = s.frames

/-- The end of a step leaves it so. -/
theorem captureOver_finish {ring : Nat} {x : Cur} (fresh : t.leave.stale = false) (h : captureOver s l ring x t) :
    captureOver s l ring x t.finish := by
  unfold captureOver
  rw [finish_keeps State.clocks (fun _ => rfl) fresh, finish_keeps State.islands (fun _ => rfl) fresh,
    finish_keeps State.harbour (fun _ => rfl) fresh, finish_keeps State.rings (fun _ => rfl) fresh,
    finish_keeps State.frames (fun _ => rfl) fresh]
  simp only [t.finish_thr fresh]
  exact h

/-- A wait ends with the capture dropped, and with its ring's thread changed alone. -/
theorem captureOver_of_dropped {ring n : Nat} {x : Cur}
    (h : t = { s.dropCapture l with threads := t.threads, freeCounter := n })
    (hself : t.thr ring = { s.thr ring with wait := .none, cur := some x })
    (hother : ∀ r : RingId, r.val ≠ ring → t.thr r = s.thr r) : captureOver s l ring x t := by
  have clocks : t.clocks = (s.dropCapture l).clocks := by rw [h]
  have islands : t.islands = s.islands := by rw [h]; rfl
  have harbour : t.harbour = s.harbour := by rw [h]; rfl
  have rings : t.rings = s.rings := by rw [h]; rfl
  have frames : t.frames = s.frames := by rw [h]; rfl
  refine ⟨?_, ?_, hself, hother, islands, harbour, rings, frames⟩
  · rw [clocks]
    exact tabGet_tabSet_self (fun _ => none) s.clocks.captures l none
  · rw [clocks]
    rfl

section
variable {ring : Nat} (hring : ring < 32) (hcur : (s.thr ring).cur = some c) (fresh : s.leave.stale = false)
include hring hcur fresh

theorem captureOver_timeout : captureOver s l ring { c with reply := some (0x25, 0) }
    ((s.dropCapture l).wakeThread ring 0x25 0).finish := by
  have dropped : (s.dropCapture l).thr ring = s.thr ring := rfl
  rw [wakeThread, if_pos hring]
  refine captureOver_finish fresh (captureOver_of_dropped (n := s.freeCounter) rfl ?_ fun r other =>
    modThr_thr_other _ _ _ _ other)
  rw [modThr_thr_self, dropped, hcur]
  rfl

theorem captureOver_taken (time : Nat) (got : List (Nat × Option (BitVec 576))) :
    captureOver s l ring { c with
      staged := some (captureBytes (s.edgeStamp time).1 got), reply := some (0, capturedMask got) }
      ((s.edgeStamp time).2.takeCapture ring l (s.edgeStamp time).1 got).finish := by
  have dropped (q : Nat) : ((s.edgeStamp time).2.dropCapture l).thr q = s.thr q := rfl
  rw [takeCapture, Nat.mod_eq_of_lt (edgeStamp_lt s time), wakeThread, if_pos hring, modCur]
  refine captureOver_finish fresh (captureOver_of_dropped (n := s.freeCounter + 1) rfl ?_ fun r other => ?_)
  · rw [modThr_thr_self, modThr_thr_self, dropped, hcur]
    rfl
  · rw [modThr_thr_other _ _ _ _ other, modThr_thr_other _ _ _ _ other, dropped]

end

end State

/-- Settles O51: the runs of CAPTURE by `State.ovCapture_waits`, `State.ends_ovCapture_frozen` and
`State.ends_ovCapture_replied`, the ends of its wait by `State.captureOver`. -/
theorem captures : Obligations.Captures := by
  refine ⟨fun r c s hset hruns hop hbad hsoft =>
    ⟨fun hstarts hlen hsrc hres hhigh hnamed hfits hbytes hislands hfree => ?_,
    fun hstarted mask bytes hreply hstaged ha => ⟨fun hown => ?_, fun hown => ?_⟩⟩,
    fun l cap s hset hring hcap _ c hcur => ?_⟩
  · have header : c.headerOk = true := by
      obtain ⟨-, -, -, header, -⟩ := hstarts
      exact header
    have check := captureCheck_eq_none hlen header hsrc hres hhigh hnamed
    refine ⟨fun hfrozen => ?_, fun hfrozen hown => ⟨edgeStamp_within s _, ?_⟩⟩
    · exact ⟨_, State.ovCapture_waits hstarts hop check rfl hfits hislands hbytes hfree hfrozen,
        s.captureWaits_finish r _ c (s.settled_iff.mp hset).2⟩
    · exact State.ends_ovCapture_frozen hstarts hop check rfl hfits hislands hbytes hfree hset hfrozen hown hbad hsoft
  · exact State.ends_ovCapture_replied hruns hop hstarted hreply hstaged hset ha hown hbad hsoft
  · rw [State.exec_ovCapture_replied hruns hop hstarted hreply hstaged, if_pos hown]
    exact answersLike_answer (s.settled_iff.mp hset).2 rfl
  · have fresh : s.leave.stale = false := (s.settled_iff.mp hset).2
    refine ⟨fun hedge => ⟨?_, ?_⟩, fun time got hedge => ⟨edgeStamp_within s time, ?_, ?_⟩⟩
    · rw [State.exec_captureEdge_none hcap hedge]
      exact answersLike_answer fresh rfl
    · exact ⟨_, State.exec_captureTimeout_none hcap hedge, State.captureOver_timeout hring hcur fresh⟩
    · exact ⟨_, State.exec_captureEdge_some hcap hedge, State.captureOver_taken hring hcur fresh time got⟩
    · rw [State.exec_captureTimeout_some hcap hedge]
      exact answersLike_answer fresh rfl

end Sys2Proof.Machine
end

section
/-! PROOF. Three statements of loading and startup that leave out a change of the model: the notices of a port that
leaves ACTIVE in a wake's step 4 (R157, R410), the note that microcode lies outside its container's range (R141,
R144), and the credits for the frames that a stopped device no longer sends on (R150). Each is refuted in a settled
state that meets its hypotheses; that no run from reset may come to such a state, the hypotheses do not say. -/

namespace Sys2Proof.Machine

section
variable {α : Type} {s : State} {o : Host.Outcome State Fault Refusal}

/-- What `State.beside` keeps of a state stands in the answer. -/
theorem answered_of_answersLike (f : State → α) (hf : ∀ t : State, f t.beside = f t) (h : answersLike o s) :
    (answered o).map f = some (f s) := by
  obtain ⟨t, rfl, like⟩ := h
  have same : f t = f s := by rw [← hf t, like, hf s]
  exact congrArg some same

end

/-! ## A wake's step 4 -/

/-- A wake after its step 3. Port 0, whose TYPE is 0 by now, was last seen in ACTIVE, and thread 0 waits for room in
its X19. -/
def portSeenActive : State :=
  { mode := { mode := .wake, trans := none, wakeStep := 3 }
    ports := [(0, { seen := 4 })]
    threads := [(0, { wait := .txSpace 0 })] }

/-- The port has left ACTIVE, and what waits for its X19 looks again. -/
theorem portSeenActive_wakes_thread :
    (answered (exec .wakeBankOutputEnable portSeenActive)).map (fun t => (t.thr 0).wait) = some .none := by
  decide +kernel

/-- Refutes O10: step 4 of a wake looks at every port's state again, and in `portSeenActive` that ends the wait of
thread 0, where the statement leaves every thread as it was. -/
theorem not_wake : ¬ Obligations.Wake := by
  unfold Obligations.Wake
  rintro ⟨steps, -⟩
  obtain ⟨-, -, -, step4, -⟩ := steps portSeenActive (by decide) rfl
  obtain ⟨t, answers, -, -, -, -, -, threads⟩ := step4 rfl rfl
  have woken := portSeenActive_wakes_thread
  rw [answers] at woken
  have waits : (t.thr 0).wait = .txSpace 0 := congrArg Thread.wait (State.thr_congr threads 0)
  exact absurd (waits.symm.trans (Option.some.inj woken)) (by decide)

/-! ## The microcode of a copy that FORCE_BOOT has let through -/

/-- The first device has read the microcode section of copy A: PML 0xFFFF, no bytes, and a stamp whose PML range is
0 to 0. -/
def microcodeOutside : State :=
  { mode := { mode := .load, trans := none }
    ldr := { phase := .microcode, trying := 1 }
    flash := { cells := memWrite 0xFF (memWrite 0xFF [] 20 (List.replicate 4 0)) 104 (List.replicate 8 0) } }

theorem microcodeOutside_refused :
    (answered (exec .microcodeSectionLoaded microcodeOutside)).map (fun t => t.ldr.pmlRefused) = some true := by
  decide +kernel

/-- Refutes O12: `microcodeOutside` takes its microcode and notes that it lies outside the range of the stamp, where
the statement leaves that note as it was. -/
theorem not_levelsAndChain : ¬ Obligations.LevelsAndChain := by
  unfold Obligations.LevelsAndChain
  rintro ⟨sections, -⟩
  obtain ⟨-, microcode⟩ := sections microcodeOutside (by decide) rfl rfl rfl
  have kept := answered_of_answersLike (fun t => t.ldr.pmlRefused) (fun _ => rfl) (microcode rfl (by decide +kernel))
  rw [microcodeOutside_refused] at kept
  exact absurd kept (by decide)

/-! ## A stopped device that holds frames -/

/-- A device behind another in LOAD, with none behind it and no section of its own seen, that holds a frame to send
on. -/
def holdsFrame : State :=
  { mode := { mode := .load, trans := none }, chain := { txq := [(3, 0, [])] } }

/-- STREAM_END with SEQ 0. -/
def streamEndFrame : List Word := [0x4A5#32, crc32c (wordsBytes [0x4A5#32])]

theorem streamEndFrame_good : frameError true holdsFrame.chain.rxUp streamEndFrame false = none := by
  decide +kernel

/-- One CREDIT for STREAM_END, the STATUS, and one CREDIT for the frame that was held. -/
theorem holdsFrame_sends_three :
    (answered (exec (.chainStreamEnd streamEndFrame false) holdsFrame)).map (fun t => t.chain.seqUp) = some 3 := by
  decide +kernel

/-- Refutes O13: after STREAM_END `holdsFrame` stops, and gives a credit back for the frame it held beside that for
STREAM_END; the statement counts two frames sent, whatever was held. -/
theorem not_chainFrames : ¬ Obligations.ChainFrames := by
  unfold Obligations.ChainFrames
  rintro ⟨stream, -⟩
  obtain ⟨-, -, -, streamEnd, -⟩ :=
    stream streamEndFrame holdsFrame (by decide) rfl rfl rfl rfl rfl rfl streamEndFrame_good
  obtain ⟨-, unseen⟩ := streamEnd (by decide)
  have sent := answered_of_answersLike (fun t => t.chain.seqUp) (fun _ => rfl) (unseen rfl)
  rw [holdsFrame_sends_three] at sent
  exact absurd sent (by decide)

end Sys2Proof.Machine
end

section
/-! PROOF. The flash commands (R164, R165): what refuses one that is written, and what its end makes of the flash. -/

namespace Sys2Proof.Machine

/-- The row that writes a flash command (R164). -/
def FlashOp.row : FlashOp → Instr
  | .read => .flashRead
  | .program => .flashProgram
  | .erase => .flashErase64k
  | .verifyA => .flashVerifyA
  | .verifyB => .flashVerifyB

/-- The flash after a command that failed: what it acts on holds other bytes. -/
def Flash.spoiled (f : Flash) (j : FlashJob) (junk : List Byte) : Flash :=
  match j.op with
  | .read => { f with buffer := memWrite 0 f.buffer 0 junk }
  | .program | .erase => { f with cells := memWrite erased f.cells j.addr junk }
  | .verifyA | .verifyB => f

theorem Mode.serviceLike_iff {m : Mode} : m.serviceLike = true ↔ m = .service ∨ m = .test := by
  cases m <;> simp [Mode.serviceLike]

theorem leBytes_length (n v : Nat) : (leBytes n v).length = n := by
  induction n generalizing v with
  | zero => rfl
  | succ n ih => rw [leBytes, List.length_cons, ih]

section
variable (f : Flash) {j : FlashJob} {junk : List Byte}

theorem Flash.spoiled_cells_outside {a : Nat} (h : a < j.addr ∨ j.addr + junk.length ≤ a) :
    memByte 0xFF (f.spoiled j junk).cells a = memByte 0xFF f.cells a := by
  unfold spoiled
  split
  case h_2 => exact memByte_memWrite_other _ _ _ _ _ h
  case h_3 => exact memByte_memWrite_other _ _ _ _ _ h
  all_goals rfl

theorem Flash.spoiled_cells (hp : j.op ≠ .program) (he : j.op ≠ .erase) : (f.spoiled j junk).cells = f.cells := by
  unfold spoiled
  split
  case h_2 h => exact absurd h hp
  case h_3 h => exact absurd h he
  all_goals rfl

theorem Flash.spoiled_buffer (h : j.op ≠ .read) : (f.spoiled j junk).buffer = f.buffer := by
  unfold spoiled
  split
  case h_1 h' => exact absurd h' h
  all_goals rfl

theorem Flash.spoiled_registers : (f.spoiled j junk).addr = f.addr ∧ (f.spoiled j junk).len = f.len := by
  unfold spoiled
  split <;> exact ⟨rfl, rfl⟩

end

namespace State

variable {s : State} {op : FlashOp} {j : FlashJob}

/-! ## A command is written (R164, R165) -/

theorem supRow_taken (hx1 : s.x1Holds = false) (hmode : s.mode.mode ≠ .reset) (hunlock : s.mode.unlock = false)
    (f : State → State) : s.supRow f = f s := by
  simp [supRow, fromHost, supWriting, breakUnlock, hx1, hmode, hunlock]

theorem exec_flashRow (op : FlashOp) (s : State) :
    exec op.row s = answer (s.supRow (fun s => s.flashCommand op)) := by
  cases op <;> rfl

theorem flashRefusal_of_mode (h : s.mode.mode.serviceLike = false) : s.flashRefusal op = 1 := by
  simp [flashRefusal, h]

theorem flashRefusal_of_harmless (h : s.mode.mode.serviceLike = true) (hp : op ≠ .program) (he : op ≠ .erase) :
    s.flashRefusal op = 0 := by
  simp [flashRefusal, h, hp, he]

theorem inCopyUsed_iff (a n : Nat) : s.inCopyUsed a n = true ↔
    s.ldr.copy ≠ 0 ∧ a < copyBase s.ldr.copy + 0x1000000 ∧ copyBase s.ldr.copy < a + n := by
  simp [inCopyUsed]

theorem inCopyUsed_eq_false {a n : Nat} (h : ¬ (s.ldr.copy ≠ 0 ∧ a < copyBase s.ldr.copy + 0x1000000 ∧
    copyBase s.ldr.copy < a + n)) : s.inCopyUsed a n = false :=
  Bool.eq_false_iff.mpr fun used => h ((s.inCopyUsed_iff a n).mp used)

theorem inCopyUsed_of_none (h : s.ldr.copy = 0) (a n : Nat) : s.inCopyUsed a n = false := by
  simp [inCopyUsed, h]

section
variable (hservice : s.mode.mode.serviceLike = true) (hop : op = .program ∨ op = .erase)
include hservice hop

theorem flashRefusal_of_locked (hlock : s.locked .flashWriteLock = true) : s.flashRefusal op = 2 := by
  simp [flashRefusal, hservice, hop, hlock]

theorem flashRefusal_of_used (hlock : s.locked .flashWriteLock = false)
    (hused : s.inCopyUsed s.flash.addr (s.flash.span op) = true) : s.flashRefusal op = 3 := by
  simp [flashRefusal, hservice, hop, hlock, hused]

/-- A range that crosses the flash's end or a block, or an erase that does not start at a block. -/
theorem flashRefusal_of_range (hlock : s.locked .flashWriteLock = false)
    (hused : s.inCopyUsed s.flash.addr (s.flash.span op) = false)
    (hrange : 0x2000000 < s.flash.addr + s.flash.span op ∨
      s.flash.addr / 0x10000 ≠ (s.flash.addr + (s.flash.span op - 1)) / 0x10000 ∨
      (op = .erase ∧ s.flash.addr % 0x10000 ≠ 0)) : s.flashRefusal op = 4 := by
  simp only [flashRefusal, hservice, hop, hlock, hused, hrange, Bool.not_true, Bool.false_eq_true, if_false, if_true]

theorem flashRefusal_eq_zero (hlock : s.locked .flashWriteLock = false)
    (hused : s.inCopyUsed s.flash.addr (s.flash.span op) = false)
    (hrange : ¬ (0x2000000 < s.flash.addr + s.flash.span op ∨
      s.flash.addr / 0x10000 ≠ (s.flash.addr + (s.flash.span op - 1)) / 0x10000 ∨
      (op = .erase ∧ s.flash.addr % 0x10000 ≠ 0))) : s.flashRefusal op = 0 := by
  simp only [flashRefusal, hservice, hop, hlock, hused, hrange, Bool.not_true, Bool.false_eq_true, if_false, if_true]

end

section
variable (fresh : s.leave.stale = false) (hx1 : s.x1Holds = false) (hmode : s.mode.mode ≠ .reset)
  (hunlock : s.mode.unlock = false) (hbusy : s.flash.busy = none)
include fresh hx1 hmode hunlock hbusy

theorem flashRow_refused {r : Nat} (h : s.flashRefusal op = r) (hr : r ≠ 0) :
    answersLike (exec op.row s) (s.modFlash (fun f => { f with result := r })) := by
  rw [exec_flashRow, supRow_taken hx1 hmode hunlock]
  refine answersLike_answer fresh ?_
  simp only [flashCommand, hbusy, h, hr, Option.isSome_none, Bool.false_eq_true, if_false]
  rfl

theorem flashRow_begins (h : s.flashRefusal op = 0) :
    answersLike (exec op.row s) (s.modFlash (fun f => { f with
      result := 0
      busy := some { op := op, addr := f.addr, len := if op = .erase then 0x10000 else f.len
                     data := memRead 0 f.buffer 0 f.len } })) := by
  rw [exec_flashRow, supRow_taken hx1 hmode hunlock]
  refine answersLike_answer fresh ?_
  simp only [flashCommand, hbusy, h, Option.isSome_none, Bool.false_eq_true, if_false, if_true]
  rfl

end

/-! ## The end of a command (R164) -/

theorem flashEnds_beside (r : Nat) :
    (s.flashEnds r).beside = (s.modFlash (fun f => { f with busy := none, result := r })).beside :=
  raise_beside _ 0 13

theorem flashOver_absent (h : s.flash.busy = some j) (hfirst : s.mode.chainFirst = false) (failed : Bool) :
    s.flashOver failed = s.flashAbsent j := by
  simp only [flashOver, h, hfirst, Bool.not_false, if_true]

theorem flashOver_fails (h : s.flash.busy = some j) (hfirst : s.mode.chainFirst = true) :
    s.flashOver true = s.flashFails j := by
  simp only [flashOver, h, hfirst, Bool.not_true, Bool.false_eq_true, if_false, if_true]

theorem flashOver_does (h : s.flash.busy = some j) (hfirst : s.mode.chainFirst = true) :
    s.flashOver false = s.flashDoes j := by
  simp only [flashOver, h, hfirst, Bool.not_true, Bool.false_eq_true, if_false]

theorem flashDoes_read (h : j.op = .read) : s.flashDoes j =
    (s.modFlash (fun f => { f with
      buffer := memWrite 0 f.buffer 0 (memRead 0xFF f.cells j.addr j.len) })).flashEnds 0 := by
  simp only [flashDoes, h]
  rfl

theorem flashDoes_erase (h : j.op = .erase) : s.flashDoes j =
    (s.modFlash (fun f => { f with
      cells := memWrite 0xFF f.cells j.addr (List.replicate 0x10000 0xFF) })).flashEnds 0 := by
  have ones : erased = 0xFF := rfl
  simp only [flashDoes, h, ones]

theorem flashDoes_program (h : j.op = .program) :
    let got := List.zipWith (· &&& ·) (memRead 0xFF s.flash.cells j.addr j.len) j.data
    s.flashDoes j = (s.modFlash (fun f => { f with cells := memWrite 0xFF f.cells j.addr got })).flashEnds
      (if got = j.data then 0 else 5) := by
  simp only [flashDoes, h]
  rfl

theorem flashDoes_verifyA (h : j.op = .verifyA) :
    s.flashDoes j = (s.modFlash id).flashEnds (if s.flash.verify 1 then 7 else 6) := by
  simp only [flashDoes, h]
  rfl

theorem flashDoes_verifyB (h : j.op = .verifyB) :
    s.flashDoes j = (s.modFlash id).flashEnds (if s.flash.verify 2 then 7 else 6) := by
  simp only [flashDoes, h]
  rfl

/-- What a failure leaves: the flash and its buffer outside what the command acts on. -/
theorem flashFails_beside : (s.flashFails j).beside =
    (s.draw.2.modFlash (fun f => { f.spoiled j (leBytes j.len (Config.freeValue s.freeCounter)) with
      busy := none, result := 5 })).beside := by
  obtain ⟨op, a, n, data⟩ := j
  cases op <;> exact flashEnds_beside 5

section
variable (fresh : s.leave.stale = false) (h : s.flash.busy = some j)
include fresh h

/-- The end of a command at the first device whose effect on the flash is f. -/
theorem answersLike_flashDone {f : Flash → Flash} {r : Nat} (hfirst : s.mode.chainFirst = true)
    (does : s.flashDoes j = (s.modFlash f).flashEnds r) :
    answersLike (exec (.flashCmdDone false) s)
      (s.modFlash (fun x => { f x with busy := none, result := r })) := by
  show answersLike (answer (s.flashOver false)) _
  rw [flashOver_does h hfirst, does]
  exact answersLike_answer fresh (flashEnds_beside r)

/-- The end of a command that leaves bytes in the flash. -/
theorem answersLike_cellsDone {bytes : List Byte} {r : Nat} (hfirst : s.mode.chainFirst = true)
    (does : s.flashDoes j =
      (s.modFlash (fun f => { f with cells := memWrite 0xFF f.cells j.addr bytes })).flashEnds r) :
    answersLike (exec (.flashCmdDone false) s)
      ((s.modFlash (fun f => { f with busy := none, result := r })).modFlash (fun f => { f with
        cells := memWrite 0xFF f.cells j.addr bytes })) :=
  answersLike_flashDone fresh h hfirst does

theorem answersLike_flashAbsent (hfirst : s.mode.chainFirst = false) (failed : Bool) :
    answersLike (answer (s.flashOver failed)) (s.modFlash (fun f => { f with
      busy := none, result := if j.op = .verifyA ∨ j.op = .verifyB then 6 else 5 })) := by
  rw [flashOver_absent h hfirst]
  exact answersLike_answer fresh (flashEnds_beside _)

theorem flashFails_flash (hfirst : s.mode.chainFirst = true) :
    (s.flashOver true).finish.flash = { s.flash.spoiled j (leBytes j.len (Config.freeValue s.freeCounter)) with
      busy := none, result := 5 } := by
  have like := flashFails_beside (s := s) (j := j)
  have leave := congrArg State.leave like
  rw [beside_leave] at leave
  rw [flashOver_fails h hfirst]
  exact congrArg State.flash (((s.flashFails j).finish_beside (by rw [leave]; exact fresh)).trans like)

end

end State

/-- Settles O23: a command that is written by what `State.flashRefusal` gives, its end by the operation in
progress, and a failure by `Flash.spoiled`. -/
theorem flashCommands : Obligations.FlashCommands := by
  refine ⟨fun s hset hmode hunlock hx1 hbusy => ?_, fun j s hset hbusy => ?_⟩
  · have fresh : s.leave.stale = false := (s.settled_iff.mp hset).2
    have refused (op : FlashOp) {r : Nat} (h : s.flashRefusal op = r) (hr : r ≠ 0) :=
      State.flashRow_refused fresh hx1 hmode hunlock hbusy h hr
    have begins (op : FlashOp) (h : s.flashRefusal op = 0) :=
      State.flashRow_begins fresh hx1 hmode hunlock hbusy h
    refine ⟨fun hs ht => ?_, fun hservice => ?_⟩
    · have mode : s.mode.mode.serviceLike = false :=
        Bool.eq_false_iff.mpr fun h => (Mode.serviceLike_iff.mp h).elim hs ht
      have one (op : FlashOp) := refused op (State.flashRefusal_of_mode mode) Nat.one_ne_zero
      exact ⟨one .read, one .program, one .erase, one .verifyA, one .verifyB⟩
    have mode : s.mode.mode.serviceLike = true := Mode.serviceLike_iff.mpr hservice
    have harmless {op : FlashOp} := State.flashRefusal_of_harmless (op := op) mode
    refine ⟨begins .read (harmless nofun nofun), begins .verifyA (harmless nofun nofun),
      begins .verifyB (harmless nofun nofun), fun hlock => ?_, fun hlock => ⟨?_, ?_, ?_, ?_⟩,
      fun hlock hcopy => ⟨?_, ?_⟩⟩
    · exact ⟨refused .program (State.flashRefusal_of_locked mode (.inl rfl) hlock) (by decide),
        refused .erase (State.flashRefusal_of_locked mode (.inr rfl) hlock) (by decide)⟩
    · intro used
      exact refused .program (State.flashRefusal_of_used mode (.inl rfl) hlock ((s.inCopyUsed_iff _ _).mpr used))
        (by decide)
    · intro used
      exact refused .erase (State.flashRefusal_of_used mode (.inr rfl) hlock ((s.inCopyUsed_iff _ _).mpr used))
        (by decide)
    · intro unused hlen range
      refine refused .program (State.flashRefusal_of_range mode (.inl rfl) hlock (s.inCopyUsed_eq_false unused) ?_)
        (by decide)
      rw [← Nat.add_sub_assoc (show 1 ≤ s.flash.span .program from hlen)]
      exact range.imp_right .inl
    · intro unused range
      exact refused .erase (State.flashRefusal_of_range mode (.inr rfl) hlock (s.inCopyUsed_eq_false unused)
        (range.imp_right fun odd => .inr ⟨rfl, odd⟩)) (by decide)
    · intro hlen hend hblock
      refine begins .program (State.flashRefusal_eq_zero mode (.inl rfl) hlock (s.inCopyUsed_of_none hcopy _ _) ?_)
      rintro (past | crosses | ⟨⟨⟩, -⟩)
      · exact absurd past (Nat.not_lt.mpr hend)
      · rw [← Nat.add_sub_assoc (show 1 ≤ s.flash.span .program from hlen)] at crosses
        exact crosses hblock
    · intro hblock hend
      refine begins .erase (State.flashRefusal_eq_zero mode (.inr rfl) hlock (s.inCopyUsed_of_none hcopy _ _) ?_)
      have span : s.flash.span .erase = 0x10000 := rfl
      rw [span]
      omega
  · have fresh : s.leave.stale = false := (s.settled_iff.mp hset).2
    refine ⟨fun hfirst c hc => ?_, fun hfirst => ⟨fun hop => ?_, fun hop => ?_, fun hop => ?_, fun hop => ?_,
      fun hop => ?_, fun c hc => ?_⟩⟩
    · obtain rfl | ⟨e, rfl⟩ := hc
      · exact State.answersLike_flashAbsent fresh hbusy hfirst true
      · exact State.answersLike_flashAbsent fresh hbusy hfirst e
    · exact State.answersLike_flashDone fresh hbusy hfirst (State.flashDoes_read hop)
    · exact State.answersLike_cellsDone fresh hbusy hfirst (State.flashDoes_erase hop)
    · exact State.answersLike_cellsDone fresh hbusy hfirst (State.flashDoes_program hop)
    · exact State.answersLike_flashDone fresh hbusy hfirst (State.flashDoes_verifyA hop)
    · exact State.answersLike_flashDone fresh hbusy hfirst (State.flashDoes_verifyB hop)
    · have failed : exec c s = answer (s.flashOver true) := by
        obtain rfl | rfl := hc <;> rfl
      have flash := State.flashFails_flash fresh hbusy hfirst
      refine ⟨_, failed, ?_⟩
      rw [flash]
      generalize hjunk : leBytes j.len (Config.freeValue s.freeCounter) = junk
      have length : junk.length = j.len := by rw [← hjunk, leBytes_length]
      obtain ⟨addr, len⟩ := s.flash.spoiled_registers (j := j) (junk := junk)
      refine ⟨rfl, rfl, addr, len, fun a ha => ?_, fun hp he => ?_, fun hr => ?_⟩
      · exact s.flash.spoiled_cells_outside (by rwa [length])
      · exact s.flash.spoiled_cells hp he
      · exact s.flash.spoiled_buffer hr

end Sys2Proof.Machine
end

section
/-! PROOF. The TAP (R168, R169, R44): its instructions, the end of IEEE 1532 programming, and what becomes of a word
of ISC_PROGRAM at X17 (R24, R27). -/

namespace Sys2Proof.Machine

/-- BYPASS stands for the opcodes that R168 does not list. -/
theorem tapListed_eq_false {op : BitVec 8}
    (h : op = 0 ∨ (5 < op ∧ op < 0x10) ∨ (0x13 < op ∧ op < 0x20) ∨ 0x20 < op) : tapListed op.toNat = false := by
  have outside : ¬ ((1 ≤ op.toNat ∧ op.toNat ≤ 5) ∨ (0x10 ≤ op.toNat ∧ op.toNat ≤ 0x13) ∨ op.toNat = 0x20) := by
    bv_omega
  simpa [tapListed, and_assoc, or_assoc] using outside

namespace State

variable {s : State} {w : Word}

/-! ## Instructions -/

theorem tapDoes_low (h : s.jtag.trstLow = true) (f : State → State) : s.tapDoes f = s := by
  rw [tapDoes, if_pos h]

theorem tapDoes_high (h : s.jtag.trstLow = false) (f : State → State) : s.tapDoes f = f s := by
  simp only [tapDoes, h, Bool.false_eq_true, if_false]

/-- While TRST_N is low no instruction does anything (R209). -/
theorem exec_tap_low (h : s.jtag.trstLow = true) {c : Instr} (hc : c = .jtagIdcode ∨ c = .jtagClamp ∨ c = .jtagHighz ∨
    c = .iscEnable ∨ c = .iscDisable ∨ c = .iscNoop ∨ c = .jtagLoadStatus ∨ (∃ w, c = .iscProgram w) ∨
    (∃ x, c = .jtagSamplePreload x) ∨ (∃ x, c = .jtagExtest x) ∨ (∃ op, c = .jtagBypass op)) :
    exec c s = answer s := by
  have nothing (f : State → State) : answer (s.tapDoes f) = answer s := congrArg answer (tapDoes_low h f)
  obtain rfl | rfl | rfl | rfl | rfl | rfl | rfl | ⟨w, rfl⟩ | ⟨x, rfl⟩ | ⟨x, rfl⟩ | ⟨op, rfl⟩ := hc
  iterate 10 exact nothing _
  show answer (if tapListed op.toNat then s else s.tapDoes _) = _
  rw [tapDoes_low h, ite_self]

section
variable (fresh : s.leave.stale = false) (high : s.jtag.trstLow = false)
include fresh high

/-- An instruction of the TAP does what is written out. -/
theorem answersLike_tapDoes {f : State → State} {t : State} (h : (f s).beside = t.beside) (ht : t.leave = s.leave) :
    answersLike (answer (s.tapDoes f)) t := by
  rw [tapDoes_high high]
  exact answersLike_answer (by rw [ht]; exact fresh) h

theorem answersLike_jtagBypass {op : BitVec 8} (h : tapListed op.toNat = false) :
    answersLike (exec (.jtagBypass op) s) (s.selectIr .bypass 0) := by
  show answersLike (answer (if tapListed op.toNat then s else s.tapDoes _)) _
  rw [h, if_neg Bool.false_ne_true]
  exact answersLike_tapDoes fresh high rfl rfl

theorem answersLike_iscEnable_taken (hmode : s.mode.mode = .service ∨ s.mode.mode = .test ∨ s.mode.mode = .hold)
    (hlock : s.locked .jtagIspOff = false) (hisc : s.jtag.isc = false) :
    answersLike (exec .iscEnable s) (((s.selectIr .iscEnable 0).modJtag (fun j => { j with isc := true })).modLdr
      (fun l => { l with jtagDiscard := false })) := by
  have may : s.iscMay = true := by
    obtain h | h | h := hmode <;> simp [iscMay, h, hlock, Mode.serviceLike]
  refine answersLike_tapDoes fresh high ?_ rfl
  simp only [may, hisc, Bool.not_false, Bool.and_self, if_true]

theorem answersLike_iscEnable_refused (h : s.locked .jtagIspOff = true ∨ s.jtag.isc = true) :
    answersLike (exec .iscEnable s) (s.selectIr .iscEnable 0) := by
  have refused : (s.iscMay && !s.jtag.isc) = false := by
    obtain h | h := h <;> simp [iscMay, h]
  refine answersLike_tapDoes fresh high ?_ rfl
  simp only [refused, Bool.false_eq_true, if_false]

end

/-! ## The end of a load of the TAP (R130, R169) -/

theorem load_of_loadOn {p : Path} (h : s.loadOn p = true) : ∃ l, s.ldr.load = some l ∧ l.path = p := by
  simpa [loadOn, Option.any_eq_true] using h

theorem loadError_jtag_beside (code off far : Nat) : (s.loadError .jtag code off far).beside =
    (s.modLdr (fun l => { l with
      jtagDiscard := true, forceHost := false, lastError := code, lastPath := Path.jtag.code })).beside := by
  simp only [loadError, discardPath, event_beside]
  rfl

/-- A load of the TAP that leaves no island INCOMPLETE is stopped. -/
theorem stopLoad_jtag_beside (code : Nat) (h : s.loadOn .jtag = true) (hf : s.failedIslands = []) :
    (s.stopLoad code).beside = (s.modLdr (fun l => { l with
      load := none, jtagDiscard := true, forceHost := false, lastError := code
      lastPath := Path.jtag.code })).beside := by
  obtain ⟨l, hl, hp⟩ := load_of_loadOn h
  simp only [stopLoad, hl, failLoad, hf, hp, overList, List.foldl_nil, loadError_jtag_beside]
  rfl

theorem iscEnds_of_no_load (h : s.loadOn .jtag = false) : s.iscEnds =
    (s.modLdr (fun l => { l with jtagDiscard := false })).modJtag (fun j => { j with isc := false, x17 := [] }) := by
  simp only [iscEnds, h, Bool.false_eq_true, if_false]

theorem iscEnds_of_load (h : s.loadOn .jtag = true) (hf : s.failedIslands = []) : s.iscEnds.beside =
    ((s.modLdr (fun l => { l with
      load := none, jtagDiscard := false, forceHost := false, lastError := 0x12
      lastPath := Path.jtag.code })).modJtag (fun j => { j with isc := false, x17 := [] })).beside := by
  simp only [iscEnds, h, if_true, modJtag_beside, modLdr_beside, stopLoad_jtag_beside 0x12 h hf]
  rfl

section
variable (fresh : s.leave.stale = false) {t : State} (ends : s.iscEnds.beside = t.beside) (leave : t.leave = s.leave)
include fresh ends leave

theorem answersLike_tapReset (low : Bool) : answersLike (exec (.tapReset low) s)
    (t.modJtag (fun j => { j with ir := .idcode, dr := 0x148009E3, trstLow := low })) := by
  refine answersLike_answer (by rw [modJtag_leave, leave]; exact fresh) ?_
  simp only [selectIr, modJtag_beside, ends]
  rfl

theorem answersLike_iscDisable (high : s.jtag.trstLow = false) :
    answersLike (exec .iscDisable s) (t.modJtag (fun j => { j with ir := .iscDisable, dr := 0 })) := by
  refine answersLike_tapDoes fresh high ?_ leave
  simp only [selectIr, modJtag_beside, ends]
  rfl

end

/-! ## Words of ISC_PROGRAM (R24, R27, R169) -/

/-- Words of ISC_PROGRAM are not discarded or refused. -/
def programs (s : State) : Prop :=
  s.jtag.isc = true ∧ s.locked .jtagIspOff = false ∧ s.ldr.jtagDiscard = false

theorem loadOn_of_none (h : s.ldr.load = none) (p : Path) : s.loadOn p = false := by
  simp [loadOn, h]

theorem pathLocked_of_programs (h : s.programs) : s.pathLocked .jtag = false := by
  obtain ⟨hisc, hlock, -⟩ := h
  simp [pathLocked, hisc, hlock]

theorem discards_of_programs (h : s.programs) : s.discards .jtag = false := by
  obtain ⟨-, -, hdiscard⟩ := h
  exact hdiscard

/-- What becomes of a word that X17 has to take, by what stands in X17 and before the loader. -/
theorem tapWord_of_programs (h : s.programs) : s.tapWord w =
    if s.forcedFull 17 ∨ s.x17Full then
      (if s.loadOn .jtag then s.stopLoad 0x12 else s.loadError .jtag 0x12 0 0).setX17 []
    else if s.loaderHeld .jtag ∨ s.jtag.x17 ≠ [] then s.setX17 (s.jtag.x17 ++ [w])
    else s.streamWord .jtag w := by
  simp only [tapWord, discards_of_programs h, pathLocked_of_programs h, Bool.and_false, Bool.false_eq_true, if_false]

/-- Where ISC_PROGRAM's instruction has been selected, its word comes to X17. -/
theorem answersLike_iscProgram (fresh : s.leave.stale = false) (high : s.jtag.trstLow = false) {t : State}
    (h : ((s.selectIr .iscProgram w.toNat).tapWord w).beside = t.beside) (leave : t.leave = s.leave) :
    answersLike (exec (.iscProgram w) s) t :=
  answersLike_tapDoes fresh high h leave

theorem setX17_nil (s : State) : s.setX17 [] = s.modJtag (fun j => { j with x17 := [] }) := rfl

/-- A first word that X17, forced full, does not take. -/
theorem tapWord_lost_first (h : s.programs) (hload : s.ldr.load = none) (hfull : s.forcedFull 17 = true) :
    (s.tapWord w).beside = ((s.modLdr (fun l => { l with
      jtagDiscard := true, forceHost := false, lastError := 0x12, lastPath := Path.jtag.code })).modJtag
        (fun j => { j with x17 := [] })).beside := by
  rw [tapWord_of_programs h, if_pos (.inl hfull), loadOn_of_none hload, if_neg Bool.false_ne_true, setX17_nil,
    modJtag_beside, loadError_jtag_beside, modJtag_beside]

/-- A word that finds X17 full takes its load with it. -/
theorem tapWord_lost_load (h : s.programs) (hload : s.loadOn .jtag = true) (hf : s.failedIslands = [])
    (hfull : s.forcedFull 17 = true ∨ 8 ≤ s.jtag.x17.length) :
    (s.tapWord w).beside = ((s.modLdr (fun l => { l with
      load := none, jtagDiscard := true, forceHost := false, lastError := 0x12
      lastPath := Path.jtag.code })).modJtag (fun j => { j with x17 := [] })).beside := by
  have full : s.forcedFull 17 = true ∨ s.x17Full = true := hfull.imp_right decide_eq_true
  rw [tapWord_of_programs h, if_pos full, if_pos hload, setX17_nil, modJtag_beside, stopLoad_jtag_beside 0x12 hload hf]
  rfl

/-- The sync word opens a load where X17 is empty. -/
theorem tapWord_opens (h : s.programs) (hload : s.ldr.load = none) (hx17 : s.jtag.x17 = [])
    (hfull : s.forcedFull 17 = false) :
    s.tapWord syncWord = s.modLdr (fun l => { l with load := some { path := .jtag } }) := by
  have room : s.x17Full = false := by simp [x17Full, hx17]
  have unheld : s.loaderHeld .jtag = false := by simp [loaderHeld, hload]
  simp [tapWord_of_programs h, hfull, room, unheld, hx17, streamWord, discards_of_programs h, loadOn_of_none hload,
    openLoad, pathLocked_of_programs h, hload]

/-- A word waits in X17 while the loader waits at a frame boundary. -/
theorem tapWord_waits (h : s.programs) (hheld : s.loaderHeld .jtag = true) (hroom : s.jtag.x17.length < 8)
    (hfull : s.forcedFull 17 = false) : s.tapWord w =
    let t := s.modJtag (fun j => { j with x17 := j.x17 ++ [w] })
    if s.jtag.x17.length = 7 then t.modPtu (fun u => { u with qSeen := u.qSeen ||| 2 ^ 17 }) else t := by
  have room : s.x17Full = false := by simpa [x17Full] using hroom
  have test : s.mode.mode = .test := by
    simp only [loaderHeld, forcedFull, Bool.and_eq_true, beq_iff_eq, and_assoc] at hheld
    exact hheld.1
  have fills : (s.modJtag (fun j => { j with x17 := s.jtag.x17 ++ [w] })).x17Full = true ↔ s.jtag.x17.length = 7 := by
    simp only [x17Full, modJtag, List.length_append, List.length_singleton, decide_eq_true_eq]
    omega
  rw [tapWord_of_programs h, if_neg (by simp [hfull, room]), if_pos (.inl hheld)]
  simp only [setX17, fills]
  split
  · simp only [noteFull, modJtag_mode, test, if_true]
    rfl
  · rfl

end State

/-- Settles O24: each instruction by what it selects, the end of the programming by `State.iscEnds`, and a word by
`State.tapWord_of_programs`. -/
theorem tapInstructions : Obligations.TapInstructions := by
  intro s hset
  have fresh : s.leave.stale = false := (s.settled_iff.mp hset).2
  refine ⟨fun h low => ?_, fun h hf => ⟨fun low => ?_, fun high => ?_⟩, fun low c hc => ?_, fun high => ?_⟩
  · exact State.answersLike_tapReset fresh (congrArg State.beside (State.iscEnds_of_no_load h)) rfl low
  · exact State.answersLike_tapReset fresh (State.iscEnds_of_load h hf) rfl low
  · exact State.answersLike_iscDisable fresh (State.iscEnds_of_load h hf) rfl high
  · rw [State.exec_tap_low low hc]
    exact answersLike_answer fresh rfl
  have selects {f : State → State} {t : State} := State.answersLike_tapDoes (f := f) (t := t) fresh high
  refine ⟨selects rfl rfl, fun shifted => ⟨selects rfl rfl, selects rfl rfl⟩, selects rfl rfl, selects rfl rfl,
    selects rfl rfl, selects rfl rfl, fun op hop => State.answersLike_jtagBypass fresh high (tapListed_eq_false hop),
    State.answersLike_iscEnable_taken fresh high, State.answersLike_iscEnable_refused fresh high,
    fun h => State.answersLike_iscDisable fresh (congrArg State.beside (State.iscEnds_of_no_load h)) rfl high,
    fun hisc hlock hdiscard => ?_⟩
  have programs (w : Word) : (s.selectIr .iscProgram w.toNat).programs := ⟨hisc, hlock, hdiscard⟩
  refine ⟨⟨fun hload hfull w => ?_, fun hload hf hfull w => ?_⟩, fun hfull => ⟨fun hload hx17 => ?_,
    fun hheld hroom w => ?_⟩⟩
  · exact State.answersLike_iscProgram fresh high (State.tapWord_lost_first (programs w) hload hfull) rfl
  · exact State.answersLike_iscProgram fresh high (State.tapWord_lost_load (programs w) hload hf hfull) rfl
  · exact State.answersLike_iscProgram fresh high
      (congrArg State.beside (State.tapWord_opens (programs _) hload hx17 hfull)) rfl
  · refine State.answersLike_iscProgram fresh high
      (congrArg State.beside (State.tapWord_waits (programs w) hheld hroom hfull)) ?_
    dsimp only
    split <;> rfl

end Sys2Proof.Machine
end

section
/-! PROOF. Golden records on the chain (R149, R154, R194): what the first device sends for another device's request,
and what a device makes of the answer to its own. -/

namespace Sys2Proof.Machine

namespace State

variable {s t u : State}

/-! ## What a change of a frame does to islands, clocks and ports -/

/-- The state without its islands, clocks, ports, threads and logbook: edges of the global lines and changes of the
ports' states leave the rest as it is. -/
def aside (s : State) : State := { s with islands := [], clocks := {}, ports := [], threads := [], log := {} }

theorem overList_aside {α : Type} (l : List α) {f : α → State → State} (h : ∀ x s, (f x s).aside = s.aside)
    (s : State) : (overList l f s).aside = s.aside :=
  overList_keeps (fun t => t.aside = s.aside) l f (fun x t same => (h x t).trans same) s rfl

theorem overAll_aside (n : Nat) {f : Nat → State → State} (h : ∀ k s, (f k s).aside = s.aside) (s : State) :
    (overAll n f s).aside = s.aside := overList_aside (List.range n) h s

theorem wakeThread_aside (r st v : Nat) : (s.wakeThread r st v).aside = s.aside := by
  unfold wakeThread
  split <;> rfl

theorem wakeAll_aside (p : Wait → Bool) : (s.wakeAll p).aside = s.aside :=
  overAll_aside 32 (fun r t => by split <;> rfl) s

theorem modIsl_aside (i : Nat) (f : Isl → Isl) : (s.modIsl i f).aside = s.aside := rfl

theorem failTx_aside (p reason : Nat) : (s.failTx p reason).aside = s.aside := by
  unfold failTx
  dsimp only
  exact overList_aside _ (fun (f : TxFrame) t => wakeThread_aside f.ring 0x13 reason) (s.modPort p _)

theorem portStops_aside (p : Nat) : (s.portStops p).aside = s.aside := by
  have stopped (t : State) (c v n : Nat) (l : List (Nat × Nat)) : (t.event c v n l).aside = t.aside := rfl
  unfold portStops
  dsimp only
  rw [stopped, wakeAll_aside, failTx_aside]
  rfl

theorem portStarts_aside (p : Nat) : (s.portStarts p).aside = s.aside := rfl

theorem refreshPort_aside (p : Nat) : (s.refreshPort p).aside = s.aside := by
  have stops (t : State) (n : Nat) : (if n = 4 then t.portStops p else t).aside = t.aside := by
    split
    · exact portStops_aside p
    · rfl
  have starts (t : State) (n : Nat) : (if n = 4 then t.portStarts p else t).aside = t.aside := by
    split
    · exact portStarts_aside p
    · rfl
  have fault (t : State) (n c v m : Nat) (l : List (Nat × Nat)) :
      (if n = 1 then t.event c v m l else t).aside = t.aside := by
    split <;> rfl
  unfold refreshPort
  dsimp only
  split
  · rfl
  · rw [fault, starts, stops]
    rfl

theorem asyncPass_aside : s.asyncPass.aside = s.aside := by
  unfold asyncPass
  exact overAll_aside 48 (fun i t => modIsl_aside i _) s

theorem unsettled_aside : s.unsettled.aside = s.aside := by
  unfold unsettled
  exact overAll_aside 48 (fun i t => modIsl_aside i _) s

theorem asyncSettle_aside (n : Nat) (s : State) : (asyncSettle n s).aside = s.aside := by
  induction n generalizing s with
  | zero => exact unsettled_aside
  | succ n ih =>
    rw [asyncSettle]
    split
    · rfl
    · exact (ih _).trans asyncPass_aside

theorem clockEdge_aside (l : Nat) (up : Bool) : (s.clockEdge l up).aside = s.aside := by
  unfold clockEdge
  dsimp only
  rw [asyncSettle_aside, overAll_aside 48 fun i t => modIsl_aside i _]
  rfl

theorem lineEdge_aside (l : Nat) (up : Bool) : (s.lineEdge l up).aside = s.aside := by
  have seen (f : Clocks → Clocks) : (s.modClocks f).aside = s.aside := rfl
  unfold lineEdge
  dsimp only
  generalize (if up then s.clocksRun else s.clocks.clockHigh.getLsbD l) = runs
  split
  · rw [clockEdge_aside, seen]
  · exact seen _

theorem synthLow_aside (c : Nat) : (s.synthLow c).aside = s.aside :=
  overAll_aside 16 (fun l t => by
    split
    · exact lineEdge_aside l false
    · rfl) s

theorem resynth_aside (before : State) : (s.resynth before).aside = s.aside :=
  overAll_aside 4 (fun c t => by
    split
    · rfl
    · exact synthLow_aside c) s

theorem stopHomePorts_aside (i : Nat) : (s.stopHomePorts i).aside = s.aside :=
  (refreshPort_aside _).trans (refreshPort_aside _)

theorem ioChanged_aside (n : Nat) : (s.ioChanged n).aside = s.aside := by
  unfold ioChanged
  split
  · exact (refreshPort_aside _).trans (refreshPort_aside _)
  · rfl

theorem synthChanged_aside (n : Nat) (before : State) : (s.synthChanged n before).aside = s.aside := by
  unfold synthChanged
  split
  · exact resynth_aside before
  · rfl

theorem stopIo_aside (n i : Nat) : (if 160 ≤ n % 168 then s.stopHomePorts i else s).aside = s.aside := by
  split
  · exact stopHomePorts_aside i
  · rfl

theorem frame_of_aside (h : t.aside = u.aside) (n : Nat) : t.frame n = u.frame n := by
  have same := congrArg (fun o : State => o.frame n) h
  exact same

theorem leave_of_aside (h : t.aside = u.aside) : t.leave = u.leave := by
  have same := congrArg State.leave h
  exact same

theorem chain_of_aside (h : t.aside = u.aside) : t.chain = u.chain := by
  have same := congrArg State.chain h
  exact same

theorem setFrame_frame_self (n : Nat) (f : Frame) : (s.setFrame n f).frame n = f := tabGet_tabSet_self _ _ _ _

theorem setFrame_frame_other {n m : Nat} (f : Frame) (h : m ≠ n) : (s.setFrame n f).frame m = s.frame m :=
  tabGet_tabSet_other _ _ _ _ _ h

/-! ## The golden data is written (R193) -/

variable {r : Repair} {i : Nat} {data : BitVec 2048}

/-- The frame as the frame engine writes it. -/
def written (s : State) (n : Nat) (data : BitVec 2048) : Frame :=
  { data := data, check := checkWord (faddrOf n) data
    logic := if s.heldWrite n then some ((s.frame n).logic.getD (s.frame n).data) else none }

theorem writeFrame_aside (n : Nat) : (s.writeFrame n data).aside = (s.setFrame n (s.written n data)).aside :=
  (synthChanged_aside n s).trans (ioChanged_aside n)

/-- A write that passes its test. -/
theorem writeGolden_good (s : State) (r : Repair) (i : Nat) (data : BitVec 2048) :
    ∃ f : Frame, f.data = data ∧ f.check = checkWord (faddrOf r.frame) data ∧
      (s.writeGolden r i data false).aside =
        (((s.setFrame r.frame f).markFrame r.frame).modTide (fun t => { t with
          now := some { r with rewritten := r.rewritten + 1, phase := .recheck } })).aside := by
  have stopped := s.stopIo_aside r.frame i
  revert stopped
  unfold writeGolden
  generalize (if 160 ≤ r.frame % 168 then s.stopHomePorts i else s) = u
  intro stopped
  refine ⟨u.written r.frame data, rfl, rfl, ?_⟩
  have wrote : (u.writeFrame r.frame data).aside = (s.setFrame r.frame (u.written r.frame data)).aside :=
    (writeFrame_aside _).trans (congrArg (fun o : State => o.setFrame r.frame (u.written r.frame data)) stopped)
  exact congrArg (fun o : State => (o.markFrame r.frame).modTide (fun t => { t with
    now := some { r with rewritten := r.rewritten + 1, phase := .recheck } })) wrote

/-- A repair that ends without success: its result, and nothing of its frames. -/
theorem repairEndsBad_beside (i n result : Nat) : (s.repairEndsBad i n result).beside =
    ((s.modTide (fun t => { t with now := none })).modIsl i (fun x => { x with repair := result })).beside :=
  raise_beside _ 0 8

theorem spoilFrame_aside (s : State) (n : Nat) :
    ∃ f : Frame, (s.spoilFrame n).aside = ((s.draw.2.setFrame n f).unmarkFrame n).aside :=
  ⟨_, ioChanged_aside n⟩

theorem repairEndsBad_frames (i n result : Nat) : (s.repairEndsBad i n result).frames = s.frames := by
  have same := congrArg State.frames (s.repairEndsBad_beside i n result)
  exact same

/-- A repair of an island has ended without success in `t`, which comes from `s`. -/
def repairOver (s t : State) (i result : Nat) : Prop :=
  t.leave = s.leave ∧ t.tide.now = none ∧ (t.isl i).repair = result ∧ t.chain.rxUp = s.chain.rxUp

theorem repairOver_endsBad {result : Nat} (n : Nat) (hleave : t.leave = s.leave)
    (hrx : t.chain.rxUp = s.chain.rxUp) : s.repairOver (t.repairEndsBad i n result) i result := by
  have ended := t.repairEndsBad_beside i n result
  refine ⟨?_, congrArg (fun o : State => o.tide.now) ended, ?_, ?_⟩
  · exact (congrArg State.leave ended).trans hleave
  · exact (congrArg (fun o : State => (o.isl i).repair) ended).trans (by simp)
  · exact (congrArg (fun o : State => o.chain.rxUp) ended).trans hrx

/-- The end of the step leaves it so. -/
theorem repairOver_finish {result : Nat} (h : s.repairOver t i result) (fresh : s.leave.stale = false) :
    t.finish.tide.now = none ∧ (t.finish.isl i).repair = result ∧ t.finish.frames = t.frames ∧
      t.finish.chain.rxUp = s.chain.rxUp := by
  obtain ⟨leave, now, repair, rx⟩ := h
  have fresh : t.leave.stale = false := by rw [leave]; exact fresh
  exact ⟨(finish_keeps (fun o => o.tide.now) (fun _ => rfl) fresh).trans now,
    (finish_keeps (fun o => (o.isl i).repair) (fun _ => rfl) fresh).trans repair,
    finish_keeps State.frames (fun _ => rfl) fresh,
    (finish_keeps (fun o => o.chain.rxUp) (fun _ => rfl) fresh).trans rx⟩

/-- A write that has failed its test twice. -/
theorem writeGolden_failed (s : State) (r : Repair) (i : Nat) (data : BitVec 2048) :
    s.repairOver (s.writeGolden r i data true) i 6 ∧
      ∀ m, m ≠ r.frame → (s.writeGolden r i data true).frame m = s.frame m := by
  have stopped := s.stopIo_aside r.frame i
  revert stopped
  unfold writeGolden
  generalize (if 160 ≤ r.frame % 168 then s.stopHomePorts i else s) = u
  intro stopped
  obtain ⟨f, spoiled⟩ := u.spoilFrame_aside r.frame
  have leave : u.leave = s.leave := leave_of_aside stopped
  have chain : u.chain = s.chain := chain_of_aside stopped
  refine ⟨repairOver_endsBad _ ((leave_of_aside spoiled).trans leave) ?_, fun m hm => ?_⟩
  · exact congrArg Chain.rxUp ((chain_of_aside spoiled).trans chain)
  · calc ((u.spoilFrame r.frame).repairEndsBad i r.frame 6).frame m
        = (u.spoilFrame r.frame).frame m := by simp only [frame, repairEndsBad_frames]
      _ = (u.setFrame r.frame f).frame m := frame_of_aside spoiled m
      _ = u.frame m := setFrame_frame_other f hm
      _ = s.frame m := frame_of_aside stopped m

/-! ## The answer to a repair's own request (R149, R194) -/

/-- What X11, forced full in TEST alone, and WAKE hold back does not wait in RUN and DEGRADED. -/
theorem answerHeld_of_inRun (h : s.inRun = true) (frame : List Word) (overflow : Bool) :
    s.answerHeld frame overflow = false := by
  have run : s.mode.mode = .run ∨ s.mode.mode = .degraded := by simpa [inRun] using h
  obtain run | run := run <;> simp [answerHeld, forcedFull, run]

theorem repairTraffic_of_inRun (h : s.inRun = true) : s.repairTraffic = true := by
  have run : s.mode.mode = .run ∨ s.mode.mode = .degraded := by simpa [inRun] using h
  obtain run | run := run <;> simp [repairTraffic, run]

theorem awake_of_inRun (h : s.inRun = true) : s.mode.mode ≠ .reset := fun reset => by simp [inRun, reset] at h

/-- A frame from the device above has been received, and the buffer that held it has emptied (R148, R150). -/
def received (s : State) : State := (s.modChain (fun c => { c with rxUp := (c.rxUp + 1) % 256 })).giveCredit

theorem exec_chainRepairData (h : s.inRun = true) (frame : List Word) (overflow failed : Bool) :
    exec (.chainRepairData frame overflow failed) s = answer (s.fromAbove 6 frame overflow (fun p s =>
      if !s.repairTraffic then s.giveCredit
      else if field (wordAt p 0) 16 3 = s.ldr.chainIndex then s.giveCredit.takeAnswer p failed
      else s.forward 6 0 p)) := by
  show execChainRepairData frame overflow failed s = _
  simp only [execChainRepairData, answerHeld_of_inRun h, Bool.false_eq_true, if_false]

section
variable {frame : List Word} {failed overflow : Bool}

section
variable (awake : s.mode.mode ≠ .reset) (behind : s.mode.chainFirst = false) {type : Nat}
  (f : List Word → State → State)
include awake behind

theorem fromAbove_good (hgood : frameError true s.chain.rxUp frame overflow = none) (htype : frameType frame = type) :
    s.fromAbove type frame overflow f =
      f (framePayload frame) (s.modChain (fun c => { c with rxUp := (c.rxUp + 1) % 256 })) := by
  simp [fromAbove, awake, behind, hgood, htype]

theorem fromAbove_bad {kind : Nat} (hbad : frameError true s.chain.rxUp frame overflow = some kind) :
    s.fromAbove type frame overflow f =
      let t := (s.modChain (fun c => { c with rxUp := (c.rxUp + 1) % 256 })).badFrame 0 kind frame
      if kind = 6 then t else t.sendUp 8 [] := by
  simp [fromAbove, awake, behind, hbad]

end

section
variable (hrun : s.inRun = true) (behind : s.mode.chainFirst = false)
include hrun behind

/-- A good answer for this device comes to the repair. -/
theorem exec_chainRepairData_good (hgood : frameError true s.chain.rxUp frame overflow = none)
    (htype : frameType frame = 6) (hindex : field (wordAt (framePayload frame) 0) 16 3 = s.ldr.chainIndex) :
    exec (.chainRepairData frame overflow failed) s =
      answer (s.received.takeAnswer (framePayload frame) failed) := by
  have traffic : (s.modChain (fun c => { c with rxUp := (c.rxUp + 1) % 256 })).repairTraffic = true :=
    repairTraffic_of_inRun hrun
  rw [exec_chainRepairData hrun, fromAbove_good (awake_of_inRun hrun) behind _ hgood htype]
  simp only [traffic, modChain_ldr, hindex, Bool.not_true, Bool.false_eq_true, if_false, if_true]
  rfl

end

/-- What the written record leaves where it passes its test, and where it does not (R193, R194). -/
theorem chainRepairData_writes (fresh : s.leave.stale = false) {r : Repair} {data : BitVec 2048}
    (takes : ∀ failed,
      exec (.chainRepairData frame overflow failed) s = answer (s.received.writeGolden r i data failed)) :
    (∃ t, exec (.chainRepairData frame overflow false) s = .next t ∧
      (t.frame r.frame).data = data ∧ (t.frame r.frame).check = checkWord (faddrOf r.frame) data ∧
      (∀ m, m ≠ r.frame → t.frame m = s.frame m) ∧
      t.tide.now = some { r with rewritten := r.rewritten + 1, phase := .recheck } ∧
      t.chain.rxUp = (s.chain.rxUp + 1) % 256) ∧
    (∃ t, exec (.chainRepairData frame overflow true) s = .next t ∧ t.tide.now = none ∧ (t.isl i).repair = 6 ∧
      (∀ m, m ≠ r.frame → t.frame m = s.frame m) ∧ t.chain.rxUp = (s.chain.rxUp + 1) % 256) := by
  refine ⟨⟨_, takes false, ?_⟩, ⟨_, takes true, ?_⟩⟩
  · obtain ⟨f, hdata, hcheck, wrote⟩ := s.received.writeGolden_good r i data
    have leave : (s.received.writeGolden r i data false).leave.stale = false := by
      rw [leave_of_aside wrote]
      exact fresh
    have frames (m : Nat) : (s.received.writeGolden r i data false).finish.frame m = (s.setFrame r.frame f).frame m :=
      (finish_keeps (fun o => o.frame m) (fun _ => rfl) leave).trans (frame_of_aside wrote m)
    refine ⟨?_, ?_, fun m hm => (frames m).trans (setFrame_frame_other f hm), ?_, ?_⟩
    · rw [frames, setFrame_frame_self, hdata]
    · rw [frames, setFrame_frame_self, hcheck]
    · refine (finish_keeps (fun o => o.tide.now) (fun _ => rfl) leave).trans ?_
      exact congrArg (fun o : State => o.tide.now) wrote
    · refine (finish_keeps (fun o => o.chain.rxUp) (fun _ => rfl) leave).trans ?_
      exact congrArg (fun o : State => o.chain.rxUp) wrote
  · obtain ⟨failedRepair, kept⟩ := s.received.writeGolden_failed r i data
    obtain ⟨now, repair, frames, rx⟩ := repairOver_finish failedRepair fresh
    refine ⟨now, repair, fun m hm => ?_, rx⟩
    refine Eq.trans ?_ (kept m hm)
    simp only [State.frame, frames]

/-! ### A framing error (R148, R194) -/

section
variable {r : Repair} (hnow : s.tide.now = some r) (hjob : r.job = .island i) (hphase : r.phase = .answer)
include hnow hjob hphase

theorem noAnswer_of_waits : s.noAnswer = s.repairEndsBad i r.frame 5 := by
  simp only [noAnswer, hnow, hjob, hphase]
  rfl

/-- A framing error ends the repair that waits for its answer. -/
theorem badFrame_of_waits (hrun : s.inRun = true) (side kind : Nat) (frame : List Word) :
    s.badFrame side kind frame =
      (s.event 0x0206 2 scopeG [(1, s.ldr.chainIndex), (1, side), (1, kind), (1, frameType frame)]).repairEndsBad i
        r.frame 5 := by
  have run : s.mode.mode = .run ∨ s.mode.mode = .degraded := by simpa [inRun] using hrun
  have running : s.mode.mode ≠ .load ∧ s.mode.mode ≠ .test := by obtain run | run := run <;> simp [run]
  obtain ⟨load, test⟩ := running
  have full : (if kind = 6 then s.noteFull 16 else s) = s := by simp [noteFull, test]
  rw [badFrame, full, ← noAnswer_of_waits (by exact hnow) hjob hphase]
  simp [chainError, attempting, load]

/-- A framing error of the frame that brings the answer ends the repair with NO_ANSWER. -/
theorem chainRepairData_noAnswer (fresh : s.leave.stale = false) (hrun : s.inRun = true)
    (behind : s.mode.chainFirst = false) (hbad : (frameError true s.chain.rxUp frame overflow).isSome = true) :
    ∃ t, exec (.chainRepairData frame overflow failed) s = .next t ∧ t.tide.now = none ∧ (t.isl i).repair = 5 ∧
      t.frames = s.frames ∧ t.chain.rxUp = (s.chain.rxUp + 1) % 256 := by
  obtain ⟨kind, hkind⟩ := Option.isSome_iff_exists.mp hbad
  let next := s.modChain (fun c => { c with rxUp := (c.rxUp + 1) % 256 })
  have ended : next.repairOver (next.badFrame 0 kind frame) i 5 ∧ (next.badFrame 0 kind frame).frames = s.frames := by
    rw [badFrame_of_waits (s := next) hnow hjob hphase hrun]
    exact ⟨repairOver_endsBad _ rfl rfl, repairEndsBad_frames _ _ _⟩
  have credited : next.repairOver (if kind = 6 then next.badFrame 0 kind frame
        else (next.badFrame 0 kind frame).sendUp 8 []) i 5 ∧
      (if kind = 6 then next.badFrame 0 kind frame
        else (next.badFrame 0 kind frame).sendUp 8 []).frames = s.frames := by
    split
    · exact ended
    · exact ended
  obtain ⟨failedRepair, same⟩ := credited
  obtain ⟨now, repair, frames, rx⟩ := repairOver_finish failedRepair fresh
  refine ⟨_, ?_, now, repair, frames.trans same, rx⟩
  rw [exec_chainRepairData hrun, fromAbove_bad (awake_of_inRun hrun) behind _ hkind]
  rfl

/-- What a good answer, whose frame is the one asked for, makes of the repair (R194). -/
theorem takeAnswer_of_waits {p : List Word} (hframe : field (wordAt p 0) 0 16 = faddrOf r.frame) :
    s.takeAnswer p failed =
      if bitAt (wordAt p 0) 19 then s.writeGolden r i 0 failed
      else if recordCrc (field (wordAt p 0) 0 16) ((p.drop 1).take 64) = p.getD 65 0 then
        s.writeGolden r i (BitVec.ofNat 2048 (wordsNat ((p.drop 1).take 64))) failed
      else s.repairEndsBad i r.frame 4 := by
  simp only [takeAnswer, hnow, hjob, hphase, hframe, ne_eq, not_true_eq_false, if_false]

end

end

/-! ## The answer of the first device (R149, R154) -/

section
variable {r : Repair} {a k : Nat}

theorem pump_of_no_credits (h : s.chain.credits = 0) : s.pump = s := by
  unfold pump
  cases hq : s.chain.txq with
  | nil => rfl
  | cons x rest =>
    rw [List.length_cons, pumpChain, hq]
    simp only [h, if_true]

theorem sendDown_beside {type idx : Nat} {words : List Word} (htype : type ≠ 5) (hfirst : s.mode.chainFirst = true) :
    (s.sendDown type idx words).beside = (s.modChain (fun c => { c with
      credits := c.credits - 1, seqDown := (c.seqDown + 1) % 256 })).beside := by
  unfold sendDown
  dsimp only
  rw [if_neg htype]
  split
  · rfl
  · next h => exact absurd hfirst h

/-- The one frame that waits goes out at the first device, which returns no CREDIT for it. -/
theorem pump_single {type idx : Nat} {words : List Word} (hq : s.chain.txq = [(type, idx, words)])
    (hcredits : s.chain.credits ≠ 0) (htype : type ≠ 5) (hfirst : s.mode.chainFirst = true) :
    s.pump.beside = (s.modChain (fun c => { c with
      txq := [], credits := c.credits - 1, seqDown := (c.seqDown + 1) % 256 })).beside := by
  have sent : s.pump = (s.modChain (fun c => { c with txq := [] })).sendDown type idx words := by
    rw [pump, hq, List.length_singleton, pumpChain, hq]
    simp only [hcredits, if_false, pumpChain]
  rw [sent]
  refine (sendDown_beside htype ?_).trans ?_
  · exact hfirst
  · rfl

/-- The flash has been read for another device (R154). -/
theorem exec_chainRepairAnswer (hnow : s.tide.now = some r) (hjob : r.job = .chain a k)
    (hheld : s.flash.holdsRead = false) (hfull : s.forcedFull 14 = false) (failed : Bool) :
    exec (.chainRepairAnswer failed) s = answer ((s.modTide (fun t => { t with now := none })).answerRepair a k
      (if failed then .lost else s.goldenFrame k r.frame)) := by
  show execChainRepairAnswer failed s = _
  simp only [execChainRepairAnswer, hnow, hjob, hheld, hfull, Bool.or_self, Bool.false_eq_true, if_false]
  rfl

end

/-! ### The words of REPAIR_DATA (R149) -/

theorem answerRepair_record (a k : Nat) (data : BitVec 2048) :
    s.answerRepair a k (.record data) = (s.queueDown 6 0 (reg32 [place a 0 16, place k 16 3] ::
      natWords 64 data.toNat ++ [recordCrc a (natWords 64 data.toNat)])).pump := by
  have header : reg32 [place a 0 16, place k 16 3, flag false 19] = reg32 [place a 0 16, place k 16 3] := by
    simp [reg32, flag]
  simp only [answerRepair, header]

theorem answerRepair_corrupt (a k : Nat) (data : BitVec 2048) (crc : Word) :
    s.answerRepair a k (.corrupt data crc) = (s.queueDown 6 0 (reg32 [place a 0 16, place k 16 3] ::
      natWords 64 data.toNat ++ [crc])).pump := by
  have header : reg32 [place a 0 16, place k 16 3, flag false 19] = reg32 [place a 0 16, place k 16 3] := by
    simp [reg32, flag]
  simp only [answerRepair, header]

theorem natWords_zero (n : Nat) : natWords n 0 = List.replicate n 0 := by
  induction n with
  | zero => rfl
  | succ n ih =>
    rw [natWords, Nat.zero_shiftRight, ih]
    rfl

theorem answerRepair_absent (a k : Nat) :
    s.answerRepair a k .absent = (s.queueDown 6 0 (reg32 [place a 0 16, place k 16 3, 2 ^ 19] ::
      List.replicate 64 0 ++ [recordCrc a (List.replicate 64 0)])).pump := by
  have header : reg32 [place a 0 16, place k 16 3, flag true 19] = reg32 [place a 0 16, place k 16 3, 2 ^ 19] := by
    simp only [flag, if_true]
  have zero : (0 : BitVec 2048).toNat = 0 := BitVec.toNat_zero
  simp only [answerRepair, header, zero, natWords_zero]

/-- A record that cannot go out yet waits for a credit. -/
theorem queueDown_waits (h : s.chain.credits = 0) (type idx : Nat) (words : List Word) :
    (s.queueDown type idx words).pump = s.modChain (fun c => { c with txq := c.txq ++ [(type, idx, words)] }) :=
  pump_of_no_credits h

theorem queueDown_sent (hq : s.chain.txq = []) (hcredits : s.chain.credits ≠ 0) (hfirst : s.mode.chainFirst = true)
    {type : Nat} (htype : type ≠ 5) (idx : Nat) (words : List Word) :
    (s.queueDown type idx words).pump.beside = (s.modChain (fun c => { c with
      credits := c.credits - 1, seqDown := (c.seqDown + 1) % 256 })).beside := by
  have one : (s.queueDown type idx words).chain.txq = [(type, idx, words)] := by
    show s.chain.txq ++ _ = _
    rw [hq, List.nil_append]
  have empty : s.chain = { s.chain with txq := [] } := by rw [← hq]
  rw [pump_single one hcredits htype hfirst]
  show (s.modChain (fun c => { c with
    txq := [], credits := c.credits - 1, seqDown := (c.seqDown + 1) % 256 })).beside = _
  unfold modChain
  rw [empty]

end State

/-- Settles O28: what the first device sends by `State.answerRepair` and the credits at hand, the answer to the
device's own request by `State.takeAnswer_of_waits`, and a framing error by `State.badFrame_of_waits`. -/
theorem repairTraffic : Obligations.RepairTraffic := by
  intro frame r s hset hnow
  have fresh : s.leave.stale = false := (s.settled_iff.mp hset).2
  refine ⟨fun a k hjob hheld hfull => ?_, fun i hjob hphase hrun behind => ?_⟩
  · have answers := State.exec_chainRepairAnswer hnow hjob hheld hfull
    have sends {g : GoldenResult} (hg : s.goldenFrame k r.frame = g) {t : State} (leave : t.leave = s.leave)
        (h : ((s.modTide (fun t => { t with now := none })).answerRepair a k g).beside = t.beside) :
        answersLike (exec (.chainRepairAnswer false) s) t := by
      rw [answers, if_neg Bool.false_ne_true, hg]
      exact answersLike_answer (by rw [leave]; exact fresh) h
    refine ⟨?_, fun lost => sends lost rfl rfl, fun data crc corrupt hcredits => sends corrupt rfl ?_,
      fun data record hcredits => sends record rfl ?_, fun data record hfirst hcredits hq => sends record rfl ?_,
      fun absent hcredits => sends absent rfl ?_⟩
    · rw [answers, if_pos rfl]
      exact answersLike_answer fresh rfl
    · rw [State.answerRepair_corrupt, State.queueDown_waits (by exact hcredits)]
    · rw [State.answerRepair_record, State.queueDown_waits (by exact hcredits)]
    · rw [State.answerRepair_record]
      refine State.queueDown_sent ?_ ?_ ?_ (by decide) 0 _
      · exact hq
      · exact hcredits
      · exact hfirst
    · rw [State.answerRepair_absent, State.queueDown_waits (by exact hcredits)]
  · intro p v words good writes ends
    have takes : good → ∀ failed,
        exec (.chainRepairData frame false failed) s = answer (s.received.takeAnswer p failed) :=
      fun ⟨_, hindex, htype, hgood⟩ failed => State.exec_chainRepairData_good hrun behind hgood htype hindex
    have taken (h : good) (failed : Bool) :=
      State.takeAnswer_of_waits (s := s.received) (failed := failed) hnow hjob hphase h.1
    refine ⟨fun h hnone => ?_, fun h hrecord hcrc => ?_, fun h hrecord hcrc failed => ?_, fun overflow hbad failed =>
      State.chainRepairData_noAnswer hnow hjob hphase fresh hrun behind hbad⟩
    · refine State.chainRepairData_writes fresh fun failed => ?_
      rw [takes h, taken h, if_pos hnone]
    · refine State.chainRepairData_writes fresh fun failed => ?_
      rw [takes h, taken h, if_neg (by rw [hrecord]; exact Bool.false_ne_true), if_pos hcrc]
    · obtain ⟨now, repair, frames, rx⟩ := State.repairOver_finish
        (State.repairOver_endsBad (s := s.received) (i := i) (result := 4) r.frame rfl rfl) fresh
      refine ⟨_, ?_, now, repair, frames.trans (State.repairEndsBad_frames _ _ _), rx⟩
      rw [takes h, taken h, if_neg (by rw [hrecord]; exact Bool.false_ne_true), if_neg hcrc]
      rfl

end Sys2Proof.Machine
end

section
/-! PROOF. The choice of a copy (R139 to R141, R144): SFDP discovery, what becomes of the first copy left, and T5
where none is left (R31). -/

namespace Sys2Proof.Machine

/-- The loader without what the end of a load changes of it. -/
def Loader.besideLoad (l : Loader) : Loader :=
  { l with load := none, hostDiscard := false, jtagDiscard := false, forceHost := false, lastError := 0, lastPath := 0 }

/-- Why a flash fails SFDP discovery, as FLASH_NOT_FOUND has it; 0 where it passes (R139). -/
def sfdpReason (sig : Bool) (density : Nat) (erase64 : Bool) : Nat :=
  if !sig then 1 else if density < 0x2000000 then 2 else if !erase64 then 3 else 0

theorem sfdpReason_ne_zero {sig erase64 : Bool} {density : Nat}
    (h : sig = false ∨ density < 0x2000000 ∨ erase64 = false) : sfdpReason sig density erase64 ≠ 0 := by
  unfold sfdpReason
  split
  · decide
  · split
    · decide
    · simp_all

theorem Flash.copyOrder_congr {f g : Flash} (h : f.cells = g.cells) : f.copyOrder = g.copyOrder := by
  have header (c : Nat) : f.headerOk c = g.headerOk c := by simp only [headerOk, word, num, bytes, h]
  have seq (c : Nat) : f.seqOf c = g.seqOf c := by simp only [seqOf, num, bytes, h]
  unfold copyOrder
  rw [header 1, header 2, seq 1, seq 2]

namespace State

variable {s t : State} {c : Nat} {rest : List Nat}

/-! ## The end of a load (R130, R176) -/

/-- The state without what a load that ends with an error changes: the loader's load, islands that are left
INCOMPLETE, their owners' fault blocks, and events. -/
def besideLoad (s : State) : State :=
  { s.beside with ldr := s.ldr.besideLoad, islands := [], tens := [], log := {} }

theorem besideLoad_of_beside (h : t.beside = s.beside) : t.besideLoad = s.besideLoad := by
  have same := congrArg (fun o : State => { o with ldr := o.ldr.besideLoad, islands := [], tens := [], log := {} }) h
  exact same

theorem incomplete_besideLoad (i : Nat) : (s.incomplete i).besideLoad = s.besideLoad := by
  have told (u : State) := besideLoad_of_beside (u.raise_beside ((s.islandOwner i).getD 0) 4)
  exact told _

theorem loadError_besideLoad (p : Path) (code off far : Nat) :
    (s.loadError p code off far).besideLoad = s.besideLoad := by
  cases p <;> rfl

theorem stopLoad_besideLoad (code : Nat) : (s.stopLoad code).besideLoad = s.besideLoad := by
  unfold stopLoad
  split
  · rfl
  · next l hl =>
    simp only [failLoad, hl]
    refine overList_keeps (fun t => t.besideLoad = s.besideLoad) _ _ (fun i t h => ?_) _ ?_
    · exact (incomplete_besideLoad i).trans h
    · exact loadError_besideLoad _ _ _ _

/-! ## T5 (R31) -/

theorem holdCause_of_load (hmode : s.mode.mode = .load) (htrans : s.mode.trans = none) (hc : c ≤ 4) :
    s.holdCause c = s.beginT5 c := by
  simp [holdCause, hmode, htrans, hc]

theorem beginT5_besideLoad (c : Nat) : (s.beginT5 c).besideLoad =
    (((s.preempt.modMode (fun m => { m with holdCause := c })).modLdr (fun l => { l with
      phase := .ended, forceBoot := false })).startTrans 5 .hold).besideLoad := by
  have stopped (u : State) : (match u.ldr.load with
      | some l => if l.path = Path.flash ∨ l.path = Path.chain then u.stopLoad 0x12 else u
      | none => u).besideLoad = u.besideLoad := by
    split
    · split
      · exact stopLoad_besideLoad 0x12
      · rfl
    · rfl
  have same := congrArg (fun o : State => (o.modLdr (fun l => { l with
    phase := .ended, forceBoot := false })).startTrans 5 .hold)
      (stopped (s.preempt.modMode (fun m => { m with holdCause := c })))
  exact same

/-- T5 is in progress in `t`, which comes from `s`, with this cause. -/
def holdBegun (s t : State) (cause : Nat) : Prop :=
  t.mode.trans = some { id := 5, target := .hold } ∧ t.mode.holdCause = cause ∧ t.mode.mode = s.mode.mode ∧
    t.ldr.phase = .ended ∧ t.ldr.left = s.ldr.left ∧ t.ldr.ownDone = s.ldr.ownDone ∧ t.flash = s.flash ∧
    t.frames = s.frames ∧ t.charter = s.charter

theorem beginT5_holdBegun (fresh : s.leave.stale = false) (cause : Nat) : s.holdBegun (s.beginT5 cause).finish cause := by
  have began := s.beginT5_besideLoad cause
  have leave := congrArg State.leave began
  have fresh : (s.beginT5 cause).leave.stale = false := (congrArg Leave.stale leave).trans fresh
  have same := (besideLoad_of_beside (finish_beside _ fresh)).trans began
  have keeps {α : Type} (f : State → α) (hf : ∀ u : State, f u.besideLoad = f u) :
      f (s.beginT5 cause).finish = f (((s.preempt.modMode (fun m => { m with holdCause := cause })).modLdr (fun l => {
        l with phase := .ended, forceBoot := false })).startTrans 5 .hold) := by
    rw [← hf, same, hf]
  exact ⟨keeps (fun o => o.mode.trans) fun _ => rfl, keeps (fun o => o.mode.holdCause) fun _ => rfl,
    keeps (fun o => o.mode.mode) fun _ => rfl, keeps (fun o => o.ldr.phase) fun _ => rfl,
    keeps (fun o => o.ldr.left) fun _ => rfl, keeps (fun o => o.ldr.ownDone) fun _ => rfl,
    keeps (fun o => o.flash) fun _ => rfl, keeps (fun o => o.frames) fun _ => rfl,
    keeps (fun o => o.charter) fun _ => rfl⟩

/-! ## SFDP discovery (R139, R140) -/

section
variable {sig erase64 suspends : Bool} {density : Nat} {modes : BitVec 4} (hmode : s.mode.mode = .load)
  (hphase : s.ldr.phase = .sfdp)
include hmode hphase

theorem exec_flashSfdpDiscovery_passed (hsig : sig = true) (hdensity : 0x2000000 ≤ density) (herase : erase64 = true)
    (horder : s.flash.copyOrder ≠ []) :
    exec (.flashSfdpDiscovery sig density erase64 modes suspends) s =
      answer ((s.modFlash (fun f => { f with
        readMode := readModeOf modes, found := true, suspends := suspends })).modLdr (fun l => { l with
          phase := .verify, left := s.flash.copyOrder })) := by
  show execFlashSfdpDiscovery sig density erase64 modes suspends s = _
  have order : ({ s.flash with
      readMode := readModeOf modes, found := true, suspends := suspends } : Flash).copyOrder = s.flash.copyOrder :=
    Flash.copyOrder_congr rfl
  simp [execFlashSfdpDiscovery, hmode, hphase, hsig, Nat.not_lt.mpr hdensity, herase, order, horder, modLdr, modFlash]

theorem exec_flashSfdpDiscovery_failed (h : sig = false ∨ density < 0x2000000 ∨ erase64 = false) :
    exec (.flashSfdpDiscovery sig density erase64 modes suspends) s =
      answer ((s.event 0x0205 3 scopeG
        [(1, sfdpReason sig density erase64), (3, 0), (4, density)]).holdCause 1) := by
  have reason := sfdpReason_ne_zero h
  show execFlashSfdpDiscovery sig density erase64 modes suspends s = _
  unfold sfdpReason at reason ⊢
  simp only [execFlashSfdpDiscovery, hmode, hphase, reason, ne_eq, not_true_eq_false, or_self, if_false,
    not_false_eq_true, if_true]

end

/-! ## The first of the copies left (R135, R140, R141) -/

/-- What is known of a copy that has verified. -/
def noted (s : State) (c : Nat) : State :=
  s.modLdr (fun l => { l with
    verifiedA := l.verifiedA || c == 1
    verifiedB := l.verifiedB || c == 2
    incompat := if s.flash.refusal c = 0 then l.incompat else (s.flash.kilOf c, s.flash.pmlOf c, s.flash.refusal c) })

section
variable (hmode : s.mode.mode = .load) (hphase : s.ldr.phase = .verify) (hleft : s.ldr.left = c :: rest)
include hmode hphase hleft

theorem exec_containerVerify_bad (h : s.flash.verify c = false) : exec .containerVerify s = answer (s.passOver c) := by
  show execContainerVerify s = _
  simp only [execContainerVerify, hleft, hmode, hphase, h, ne_eq, not_true_eq_false, or_self, if_false, Bool.not_false,
    if_true]

theorem exec_containerVerify_good (h : s.flash.verify c = true) : exec .containerVerify s =
    answer (if s.flash.refusal c ≠ 0 ∧ !s.forceBootNow then (s.noted c).passOver c
      else ((s.noted c).modLdr (fun l => { l with compatSeen := l.compatSeen + 1 })).startStream c 1) := by
  show execContainerVerify s = _
  simp only [execContainerVerify, hleft, hmode, hphase, h, ne_eq, not_true_eq_false, or_self, if_false, Bool.not_true,
    Bool.false_eq_true]
  rfl

theorem exec_containerVerify_refused (h : s.flash.verify c = true) (hwhy : s.flash.refusal c ≠ 0)
    (hforce : s.forceBootNow = false) : exec .containerVerify s = answer ((s.noted c).passOver c) := by
  rw [exec_containerVerify_good hmode hphase hleft h, if_pos ⟨hwhy, by rw [hforce]; rfl⟩]

theorem exec_containerVerify_starts (h : s.flash.verify c = true)
    (hwhy : s.flash.refusal c = 0 ∨ s.forceBootNow = true) : exec .containerVerify s =
      answer (((s.noted c).modLdr (fun l => { l with compatSeen := l.compatSeen + 1 })).startStream c 1) := by
  have taken : ¬(s.flash.refusal c ≠ 0 ∧ !s.forceBootNow) := by
    rintro ⟨refused, unforced⟩
    obtain hwhy | hforce := hwhy
    · exact refused hwhy
    · simp [hforce] at unforced
  rw [exec_containerVerify_good hmode hphase hleft h, if_neg taken]

end

theorem nextCopy_of_more (hphase : s.ldr.phase = .verify) (hleft : s.ldr.left = c :: rest) (hrest : rest ≠ []) :
    s.nextCopy = s.modLdr (fun l => { l with left := rest }) := by
  have verifies : { s.ldr with left := rest, phase := .verify } = { s.ldr with left := rest } := by rw [← hphase]
  simp [nextCopy, modLdr, hleft, hrest, verifies]

/-- A copy is passed over for the one after it. -/
theorem passOver_of_more (hphase : s.ldr.phase = .verify) (hleft : s.ldr.left = c :: rest) (hrest : rest ≠ [])
    (d : Nat) : (s.passOver d).beside = (s.draw.2.modLdr (fun l => { l with left := rest })).beside := by
  have more : s.ldr.left.drop 1 ≠ [] := by simpa [hleft] using hrest
  rw [passOver, if_neg more]
  dsimp only
  rw [nextCopy_of_more (c := c) (rest := rest)]
  · rfl
  · exact hphase
  · exact hleft
  · exact hrest

/-- The last copy is passed over. -/
theorem passOver_of_last (hleft : s.ldr.left = [c]) (d : Nat) : s.passOver d =
    (s.modLdr (fun l => { l with left := [], phase := .verify })).selectionEnds := by
  simp only [passOver, nextCopy, hleft, List.drop_succ_cons, List.drop_zero, if_true, modLdr]

/-- An attempt where no device is behind this one. -/
theorem startStream_alone (hdown : s.chain.downPresent = false) (hcredits : s.chain.credits = 0) (c a : Nat) :
    s.startStream c a = s.modLdr (fun l => { l with
      trying := c, attempt := a, phase := .firmware, devices := s.flash.sectionsOf c - 2
      override := s.flash.refusal c != 0 }) := by
  have chain : { s.chain with downPresent := false, credits := 0 } = s.chain := by rw [← hdown, ← hcredits]
  simpa [startStream, modChain, modLdr, hdown, hcredits] using chain

/-- HOLD_CAUSE where the copies are used up (R31 T5). -/
def usedUpCause (s : State) : Nat :=
  if (s.ldr.verifiedA || s.ldr.verifiedB) = true ∧ s.ldr.compatSeen = 0 then 2 else 1

theorem selectionEnds_holdBegun (fresh : s.leave.stale = false) (hmode : s.mode.mode = .load)
    (htrans : s.mode.trans = none) : s.holdBegun s.selectionEnds.finish s.usedUpCause := by
  unfold selectionEnds usedUpCause
  dsimp only
  split
  · rw [holdCause_of_load (s := s.event _ _ _ _) hmode htrans (by decide)]
    exact beginT5_holdBegun (s := s.event _ _ _ _) fresh 2
  · rw [holdCause_of_load hmode htrans (by decide)]
    exact beginT5_holdBegun fresh 1

/-- The last copy is passed over: T5 with the cause of copies that are used up. -/
theorem passOver_holdBegun (fresh : s.leave.stale = false) (hmode : s.mode.mode = .load)
    (htrans : s.mode.trans = none) (hleft : s.ldr.left = [c]) (d : Nat) :
    (s.modLdr (fun l => { l with left := [] })).holdBegun (s.passOver d).finish s.usedUpCause := by
  rw [passOver_of_last hleft]
  exact selectionEnds_holdBegun (s := s.modLdr (fun l => { l with left := [], phase := .verify })) fresh hmode htrans

theorem usedUpCause_noted (c : Nat) : (s.noted c).usedUpCause =
    if (s.ldr.verifiedA || s.ldr.verifiedB || (c == 1 || c == 2)) = true ∧ s.ldr.compatSeen = 0 then 2 else 1 := by
  have regroup (a b p q : Bool) : ((a || p) || (b || q)) = (a || b || (p || q)) := by
    cases a <;> cases b <;> cases p <;> rfl
  show (if ((s.ldr.verifiedA || c == 1) || (s.ldr.verifiedB || c == 2)) = true ∧ s.ldr.compatSeen = 0
    then 2 else 1) = _
  rw [regroup]

/-! ## The obligation's clauses -/

section
variable {sig erase64 suspends : Bool} {density : Nat} {modes : BitVec 4} (fresh : s.leave.stale = false)
  (hmode : s.mode.mode = .load)
include fresh hmode

theorem flashSfdpDiscovery_holds (hphase : s.ldr.phase = .sfdp)
    (h : sig = false ∨ density < 0x2000000 ∨ erase64 = false) (htrans : s.mode.trans = none) :
    ∃ t, exec (.flashSfdpDiscovery sig density erase64 modes suspends) s = .next t ∧ s.holdBegun t 1 := by
  refine ⟨_, exec_flashSfdpDiscovery_failed hmode hphase h, ?_⟩
  rw [holdCause_of_load (s := s.event _ _ _ _) hmode htrans (by decide)]
  exact beginT5_holdBegun (s := s.event _ _ _ _) fresh 1

/-- The last copy that is left is passed over, and nothing else is left to try. -/
theorem containerVerify_last (hphase : s.ldr.phase = .verify) (hleft : s.ldr.left = [c]) (htrans : s.mode.trans = none)
    (h : s.flash.verify c = false ∨ (s.flash.refusal c ≠ 0 ∧ s.forceBootNow = false)) :
    ∃ t, exec .containerVerify s = .next t ∧ (s.modLdr (fun l => { l with left := [] })).holdBegun t
      (if (s.ldr.verifiedA || s.ldr.verifiedB || (s.flash.verify c && (c == 1 || c == 2))) = true ∧
        s.ldr.compatSeen = 0 then 2 else 1) := by
  cases good : s.flash.verify c with
  | false =>
    refine ⟨_, exec_containerVerify_bad hmode hphase hleft good, ?_⟩
    rw [Bool.false_and, Bool.or_false]
    exact passOver_holdBegun fresh hmode htrans hleft c
  | true =>
    obtain ⟨hwhy, hforce⟩ := h.resolve_left (by simp [good])
    refine ⟨_, exec_containerVerify_refused hmode hphase hleft good hwhy hforce, ?_⟩
    rw [Bool.true_and, ← usedUpCause_noted]
    exact passOver_holdBegun (s := s.noted c) fresh hmode htrans hleft c

end

end State

/-- Settles O11: what becomes of the first copy left is read off SFDP discovery's and the verification's equations,
and each end of the choice is T5, which changes nothing of the flash, the frames and the charter. -/
theorem flashBoot : Obligations.FlashBoot := by
  refine ⟨fun sig erase64 suspends density modes s hs hmode hphase => ?_,
    fun c rest s hs hmode hphase hleft hdown hcredits => ?_⟩
  · obtain ⟨-, fresh⟩ := s.settled_iff.mp hs
    refine ⟨fun hsig hdensity herase horder => ?_, fun h htrans => ?_⟩
    · rw [State.exec_flashSfdpDiscovery_passed hmode hphase hsig hdensity herase horder]
      exact answersLike_answer fresh rfl
    · obtain ⟨t, answered, trans, cause, mode, -, -, -, flash, frames, charter⟩ :=
        State.flashSfdpDiscovery_holds fresh hmode hphase h htrans
      exact ⟨t, answered, trans, cause, mode.trans hmode, flash, frames, charter⟩
  · obtain ⟨-, fresh⟩ := s.settled_iff.mp hs
    refine ⟨fun bad hrest => ?_, fun good hwhy hforce hrest => ?_, fun hrest htrans h => ?_, fun good hwhy => ?_⟩
    · rw [State.exec_containerVerify_bad hmode hphase hleft bad]
      exact answersLike_answer fresh (State.passOver_of_more hphase hleft hrest c)
    · rw [State.exec_containerVerify_refused hmode hphase hleft good hwhy hforce]
      refine answersLike_answer fresh ((State.passOver_of_more (s := s.noted c) hphase hleft hrest c).trans ?_)
      simp [State.noted, State.modLdr, State.draw, hwhy]
    · obtain ⟨t, answered, trans, cause, mode, phase, left, own, flash, frames, charter⟩ :=
        State.containerVerify_last fresh hmode hphase (hrest ▸ hleft) htrans h
      exact ⟨t, answered, trans, mode.trans hmode, cause, phase, left, own, flash, frames, charter⟩
    · rw [State.exec_containerVerify_starts hmode hphase hleft good hwhy,
        State.startStream_alone (s := (s.noted c).modLdr _) hdown hcredits]
      exact answersLike_answer fresh rfl

end Sys2Proof.Machine
end

section
/-! PROOF. What a seal, a release and the home ports of one island leave alone (R170 to R173, R181, R410): every other
island, and of the threads all but the answers they wait for. -/

namespace Sys2Proof.Machine

/-- An instruction in flight without the answer that it waits for. -/
def Cur.unanswered (c : Cur) : Cur := { c with reply := none }

/-- A thread without what the end of a wait changes of it. -/
def Thread.unanswered (x : Thread) : Thread := { x with wait := .none, cur := x.cur.map Cur.unanswered }

/-- An island without what its pins keep (R171). -/
def Isl.unkept (x : Isl) : Isl := { x with keepEn := 0, keepLevel := 0 }

namespace State

variable {s t u : State} {i p r : Nat}

/-- The state without islands, ports, threads and banks, without the leave unit, and without what messages and events
change. -/
def apart (s : State) : State :=
  { s with
    islands := [], ports := [], threads := [], banks := [], leave := {}, link := {}, log := {}
    out := [], msix := [], tens := [], dma := {} }

/-- `t` follows from `s` by a change around island i: no other island has changed, no thread but for the answer it
waited for, no request has been queued, and nothing that `State.apart` keeps. -/
structure around (i : Nat) (s t : State) : Prop where
  apart : t.apart = s.apart
  other : ∀ j, j ≠ i → t.isl j = s.isl j
  threads : ∀ q, (t.thr q).unanswered = (s.thr q).unanswered
  queue : s.leave.queue = [] → t.leave.queue = []

theorem around_refl (i : Nat) (s : State) : around i s s := ⟨rfl, fun _ _ => rfl, fun _ => rfl, id⟩

theorem around_trans (h : around i s t) (h' : around i t u) : around i s u :=
  ⟨h'.apart.trans h.apart, fun j hj => (h'.other j hj).trans (h.other j hj),
    fun q => (h'.threads q).trans (h.threads q), fun empty => h'.queue (h.queue empty)⟩

/-- A change that touches neither islands nor threads. -/
theorem around_of (h : around i s t) (hapart : u.apart = t.apart) (hislands : u.islands = t.islands)
    (hthreads : u.threads = t.threads) (hqueue : t.leave.queue = [] → u.leave.queue = []) : around i s u :=
  around_trans h ⟨hapart, fun _ _ => by simp only [isl, hislands], fun q => by rw [thr_congr hthreads], hqueue⟩

theorem around_overList {α : Type} (h : around i s t) (l : List α) {f : α → State → State}
    (hf : ∀ x u, around i u (f x u)) : around i s (overList l f t) :=
  overList_keeps (around i s) l f (fun x u same => around_trans same (hf x u)) t h

/-! ## Updates -/

theorem around_modIsl (h : around i s t) (f : Isl → Isl) : around i s (t.modIsl i f) :=
  around_trans h ⟨rfl, fun _ hj => modIsl_isl_other _ _ _ _ hj, fun _ => rfl, id⟩

theorem around_event (h : around i s t) (c v n l) : around i s (t.event c v n l) := around_of h rfl rfl rfl id

theorem around_modPort (h : around i s t) (p : Nat) (f : Port → Port) : around i s (t.modPort p f) :=
  around_of h rfl rfl rfl id

theorem around_modTen (h : around i s t) (q : Nat) (f : Ten → Ten) : around i s (t.modTen q f) :=
  around_of h rfl rfl rfl id

theorem around_faultBit (h : around i s t) (n : Nat) : around i s (t.faultBit n) := around_of h rfl rfl rfl id

theorem around_modBank (h : around i s t) (b : Nat) (f : Bank → Bank) : around i s (t.modBank b f) :=
  around_of h rfl rfl rfl id

theorem around_leaveFree (h : around i s t) (w : Asker → Bool) : around i s (t.leaveFree w) :=
  around_of h rfl rfl rfl id

theorem around_leaveEnding (h : around i s t) (w : Asker → Bool) : around i s (t.leaveEnding w) :=
  around_of h rfl rfl rfl id

theorem around_leaveWithdraw (h : around i s t) (w : Asker → Bool) : around i s (t.leaveWithdraw w) :=
  around_of h rfl rfl rfl fun empty => by simp [leaveWithdraw, empty]

theorem around_raise (h : around i s t) (n v : Nat) : around i s (t.raise n v) := by
  have same := t.raise_offLog n v
  have apart := congrArg State.apart same
  have islands := congrArg State.islands same
  have leave := congrArg State.leave same
  exact around_of h apart islands (raise_threads t n v) fun empty => (congrArg Leave.queue leave).trans empty

theorem around_modThr (h : around i s t) (r : Nat) {f : Thread → Thread} (hf : ∀ x, (f x).unanswered = x.unanswered) :
    around i s (t.modThr r f) := by
  refine around_trans h ⟨rfl, fun _ _ => rfl, fun q => ?_, id⟩
  by_cases hq : q = r
  · subst hq; rw [modThr_thr_self, hf]
  · rw [modThr_thr_other _ _ _ _ hq]

theorem around_tenFault (h : around i s t) (q b l st : Nat) : around i s (t.tenFault q b l st) := by
  unfold tenFault
  exact around_raise (around_modTen h _ _) _ _

/-- What `State.apart` keeps is as it was. -/
theorem around_keeps {α : Type} (f : State → α) (hf : ∀ t, f t.apart = f t) (h : around i s t) : f t = f s := by
  rw [← hf t, h.apart, hf s]

/-! ## Threads that wait -/

theorem around_wakeThread (h : around i s t) (r st v : Nat) : around i s (t.wakeThread r st v) := by
  unfold wakeThread
  split
  · refine around_modThr h r fun x => ?_
    simp only [Thread.unanswered, Option.map_map]
    rfl
  · exact h

theorem around_wakeAll (h : around i s t) (p : Wait → Bool) : around i s (t.wakeAll p) :=
  overAll_keeps (around i s) 32 _ (fun r u same => by
    split
    · exact around_modThr same r fun _ => rfl
    · exact same) t h

theorem wakeThread_islands (r st v : Nat) : (s.wakeThread r st v).islands = s.islands := by
  unfold wakeThread
  split <;> rfl

theorem wakeAll_islands (p : Wait → Bool) : (s.wakeAll p).islands = s.islands :=
  overAll_keeps (fun t => t.islands = s.islands) 32 _ (fun r t same => by
    split
    · exact same
    · exact same) s rfl

/-! ## Home ports (R410) -/

theorem around_failTx (h : around i s t) (p reason : Nat) : around i s (t.failTx p reason) :=
  around_overList (around_modPort h p _) _ fun f u => around_wakeThread (around_refl i u) f.ring 0x13 reason

theorem around_keepPort (h : around (p / 2) s t) : around (p / 2) s (t.keepPort p) := around_modIsl h _

theorem around_portStops (h : around (p / 2) s t) : around (p / 2) s (t.portStops p) := by
  unfold portStops
  dsimp only
  exact around_event (around_wakeAll (around_failTx (around_modPort (around_keepPort h) p _) p 10) _) _ _ _ _

theorem around_portStarts (h : around i s t) (p : Nat) : around i s (t.portStarts p) :=
  around_event (around_modPort h p _) _ _ _ _

/-- A port whose state is looked at again is its island's affair. -/
theorem around_refreshPort (h : around i s t) (hp : p / 2 = i) : around i s (t.refreshPort p) := by
  subst hp
  unfold refreshPort
  dsimp only
  split
  · exact h
  · have stops (n : Nat) {u : State} (hu : around (p / 2) s u) :
        around (p / 2) s (if n = 4 then u.portStops p else u) := by
      split
      · exact around_portStops hu
      · exact hu
    have starts (n : Nat) {u : State} (hu : around (p / 2) s u) :
        around (p / 2) s (if n = 4 then u.portStarts p else u) := by
      split
      · exact around_portStarts hu p
      · exact hu
    split
    · exact around_event (starts _ (stops _ (around_modPort h p _))) _ _ _ _
    · exact starts _ (stops _ (around_modPort h p _))

theorem around_refreshHome (h : around i s t) : around i s (t.refreshHome i) :=
  around_refreshPort (around_refreshPort h (by omega)) (by omega)

theorem around_stopHomePorts (h : around i s t) : around i s (t.stopHomePorts i) :=
  around_refreshHome (around_modIsl h _)

/-! ## What a port's island keeps -/

theorem keepPort_unkept (p j : Nat) : ((s.keepPort p).isl j).unkept = (s.isl j).unkept := by
  by_cases hj : j = p / 2
  · subst hj
    rw [keepPort, modIsl_isl_self]
    rfl
  · rw [keepPort, modIsl_isl_other _ _ _ _ hj]

theorem isl_congr (h : t.islands = s.islands) (j : Nat) : t.isl j = s.isl j := by simp only [isl, h]

theorem failTx_islands (p reason : Nat) : (s.failTx p reason).islands = s.islands :=
  overList_keeps (fun t => t.islands = s.islands) _ _ (fun f _ same => (wakeThread_islands f.ring 0x13 reason).trans same)
    (s.modPort p _) rfl

theorem portStops_unkept (p j : Nat) : ((s.portStops p).isl j).unkept = (s.isl j).unkept := by
  have told (t : State) (c v n : Nat) (l : List (Nat × Nat)) : (t.event c v n l).islands = t.islands := rfl
  have islands : (s.portStops p).islands = (s.keepPort p).islands := by
    unfold portStops
    dsimp only
    rw [told, wakeAll_islands, failTx_islands]
    rfl
  rw [isl_congr islands, keepPort_unkept]

/-- A change of a port's state leaves its island as it is beside what the pins keep. -/
theorem refreshPort_unkept (p j : Nat) : ((s.refreshPort p).isl j).unkept = (s.isl j).unkept := by
  have stops (n : Nat) (u : State) : ((if n = 4 then u.portStops p else u).isl j).unkept = (u.isl j).unkept := by
    split
    · exact portStops_unkept p j
    · rfl
  have starts (n : Nat) (u : State) : (if n = 4 then u.portStarts p else u).isl j = u.isl j := by
    split <;> rfl
  have fault (n c v m : Nat) (l : List (Nat × Nat)) (u : State) :
      (if n = 1 then u.event c v m l else u).isl j = u.isl j := by
    split <;> rfl
  unfold refreshPort
  dsimp only
  split
  · rfl
  · rw [fault, starts, stops]
    rfl

theorem refreshHome_unkept (i j : Nat) : ((s.refreshHome i).isl j).unkept = (s.isl j).unkept :=
  (refreshPort_unkept _ j).trans (refreshPort_unkept _ j)

theorem stopHomePorts_unkept (i : Nat) :
    ((s.stopHomePorts i).isl i).unkept = { (s.isl i).unkept with portsStopped := true } := by
  have home := (s.modIsl i (fun x => { x with portsStopped := true })).refreshHome_unkept i i
  rw [modIsl_isl_self] at home
  exact home

/-! ## The end of an island's accesses (R76) -/

theorem around_accessDone (h : around i s t) (a : FabAccess) (st : Nat) (ws : List Word) :
    around i s (t.accessDone a st ws) := by
  unfold accessDone
  split
  · exact around_wakeThread h _ _ _
  · split
    · exact h
    · unfold complete
      split
      · exact h
      · split <;> exact around_of h rfl rfl rfl id
  · exact h
  · exact h

theorem accessDone_islands (a : FabAccess) (st : Nat) (ws : List Word) :
    (s.accessDone a st ws).islands = s.islands := by
  unfold accessDone
  split
  · exact wakeThread_islands _ _ _
  · split
    · rfl
    · unfold complete
      split
      · rfl
      · split <;> rfl
  · rfl
  · rfl

theorem around_endAccesses (h : around i s t) (st : Nat) : around i s (t.endAccesses i st) := by
  unfold endAccesses
  dsimp only
  refine around_overList (around_overList (around_modIsl h _) _ fun a u => ?_) _ fun a u => ?_
  · exact around_accessDone (around_refl i u) _ _ _
  · exact around_accessDone (around_refl i u) _ _ _

theorem endAccesses_islands (i st : Nat) :
    (s.endAccesses i st).islands = (s.modIsl i (fun x => { x with ureg := {} })).islands := by
  have done {f : FabAccess → Nat × List Word} (l : List FabAccess) (u : State) :
      (overList l (fun a s => s.accessDone a (f a).1 (f a).2) u).islands = u.islands :=
    overList_keeps (fun t => t.islands = u.islands) l _ (fun a t same => (accessDone_islands a _ _).trans same) u rfl
  unfold endAccesses
  dsimp only
  exact (done (f := fun a => (st, a.zeros)) _ _).trans (done _ _)

/-! ## The seal (R170, R171) -/

/-- What a seal reason makes of an island (R170, R171), beside what its pins keep. -/
def sealedBy (s : State) (i : Nat) (why : Reason) : Isl :=
  let x := s.isl i
  (if x.shut then x
    else { x with
      ureg := {}, user := s.initBits i, cause := 0, leave := {}
      release := if x.sealed then x.release.map (fun r => { r with left := false }) else x.release }).addReason why

theorem around_applySeal (h : around i s t) : around i s (t.applySeal i) := by
  unfold applySeal
  dsimp only
  exact around_modIsl (around_leaveFree (around_leaveWithdraw (around_endAccesses h 0x24) _) _) _

theorem around_sealAgain (h : around i s t) : around i s (t.sealAgain i) := by
  unfold sealAgain
  split
  · exact around_modIsl (around_applySeal h) _
  · exact h

theorem around_sealIsland (h : around i s t) (why : Reason) : around i s (t.sealIsland i why) := by
  unfold sealIsland
  split
  · exact around_modIsl (around_sealAgain h) _
  · exact around_event (around_modIsl (around_applySeal h) _) _ _ _ _

theorem initBits_of_apart (h : t.apart = s.apart) (i : Nat) : t.initBits i = s.initBits i := by
  have same := congrArg (fun o : State => o.initBits i) h
  exact same

theorem applySeal_unkept (s : State) (i : Nat) : ((s.applySeal i).isl i).unkept =
    { (s.isl i).unkept with ureg := {}, user := s.initBits i, cause := 0, leave := {} } := by
  have ended : (s.endAccesses i 0x24).isl i = { s.isl i with ureg := {} } := by
    rw [isl_congr (endAccesses_islands i 0x24), modIsl_isl_self]
  have init : (s.endAccesses i 0x24).initBits i = s.initBits i :=
    initBits_of_apart (around_endAccesses (around_refl i s) 0x24).apart i
  have left (t : State) (w : Asker → Bool) : ((t.leaveWithdraw w).leaveFree w).isl i = t.isl i := rfl
  unfold applySeal
  dsimp only
  rw [modIsl_isl_self, left, ended]
  exact congrArg (fun v => { (s.isl i).unkept with ureg := {}, user := v, cause := 0, leave := {} }) init

theorem addReason_unkept (x : Isl) (why : Reason) : (x.addReason why).unkept = x.unkept.addReason why := by
  cases why <;> rfl

theorem sealIsland_unkept (s : State) (i : Nat) (why : Reason) :
    ((s.sealIsland i why).isl i).unkept = (s.sealedBy i why).unkept := by
  have told (t : State) : (t.sealOn i why).isl i = t.isl i := rfl
  unfold sealIsland sealedBy
  dsimp only
  split
  · next sealed =>
    rw [modIsl_isl_self, addReason_unkept]
    unfold sealAgain
    split
    · next left =>
      have unshut : (s.isl i).shut = false := by simp [Isl.shut, left]
      have again (y : Isl) : ({ y with release := y.release.map (fun r => { r with left := false }) } : Isl).unkept =
          { y.unkept with release := y.unkept.release.map (fun r => { r with left := false }) } := rfl
      rw [modIsl_isl_self, again, applySeal_unkept]
      simp only [unshut, Bool.false_eq_true, if_false, addReason_unkept]
      rfl
    · next held =>
      have shut : (s.isl i).shut = true := by simp [Isl.shut, held, sealed]
      rw [if_pos shut, addReason_unkept]
  · next unsealed =>
    have unshut : (s.isl i).shut = false := by simp [Isl.shut, unsealed]
    rw [told, modIsl_isl_self, addReason_unkept, applySeal_unkept]
    simp only [unshut, Bool.false_eq_true, if_false, addReason_unkept]
    rfl

/-- What a field of an island is after a seal reason, where no pin shows it. -/
theorem sealIsland_field {α : Type} (f : Isl → α) (hf : ∀ x : Isl, f x.unkept = f x) (s : State) (i : Nat)
    (why : Reason) : f ((s.sealIsland i why).isl i) = f (s.sealedBy i why) := by
  rw [← hf, sealIsland_unkept, hf]

theorem addReason_reason (x : Isl) (why : Reason) : (x.addReason why).reason why = true := by
  cases why <;> rfl

theorem sealed_of_reason {x : Isl} {why : Reason} (h : x.reason why = true) : x.sealed = true := by
  cases why <;> simp_all [Isl.reason, Isl.sealed]

theorem addReason_qcount (x : Isl) (why : Reason) : (x.addReason why).qcount = x.qcount := by
  cases why <;> rfl

theorem sealIsland_reason (s : State) (i : Nat) (why : Reason) :
    ((s.sealIsland i why).isl i).reason why = true := by
  rw [sealIsland_field (fun x => x.reason why) (fun x => by cases why <;> rfl)]
  exact addReason_reason _ why

theorem sealIsland_qcount (s : State) (i : Nat) (why : Reason) :
    ((s.sealIsland i why).isl i).qcount = (s.isl i).qcount := by
  rw [sealIsland_field Isl.qcount (fun _ => rfl), sealedBy, addReason_qcount]
  split <;> rfl

/-- A step that may have asked for an evaluation of the leave queue, which is empty. -/
theorem finish_keeps_of_empty {α : Type} (f : State → α) (hf : ∀ t, f t.beside = f t)
    (hl : ∀ (t : State) (g : Leave → Leave), f (t.modLeave g) = f t) (h : s.leave.queue = []) : f s.finish = f s := by
  rw [← hf s.finish, s.finish_beside_empty h, hf, hl]

end State

end Sys2Proof.Machine
end

section
/-! PROOF. A quarantine (R190, R192): what the tide makes of an uncorrectable frame of an island. -/

namespace Sys2Proof.Machine

namespace State

variable {s t : State} {i n : Nat}

/-! ## The slot (R184, R186) -/

/-- Outside a burst the end of a slot moves the position and counts the sweep (R184). -/
theorem nextSlot_of_no_burst (h : s.tide.burst = false) :
    ∃ f : Tide → Tide, (∀ t, (f t).queue = t.queue) ∧ s.nextSlot = s.modTide f :=
  ⟨fun t => { t with
      position := (s.tide.position + 1) % 8192
      sweeps := if s.tide.position = 8191 then (t.sweeps + 1) % 65536 else t.sweeps }, fun _ => rfl, by
    simp [nextSlot, modTide, h]⟩

/-- A slot whose frame is read, X13 taking what is found. -/
theorem exec_tideSlot_acts (henabled : s.tide.enabled = true) (hrun : s.mode.mode = .run) (hnow : s.tide.now = none)
    (hskip : s.slotSkipped s.tide.position = false) :
    exec .tideSlot s = answer (s.actOn s.tide.position).nextSlot := by
  have runs : s.tideRuns = true := by simp [tideRuns, henabled, hrun, Mode.executes]
  have idle : s.rechecking = false := by simp [rechecking, hnow]
  have free : s.tideHeld s.tide.position = false := by simp [tideHeld, forcedFull, hrun]
  show execTideSlot s = _
  simp [execTideSlot, runs, idle, hskip, free]

theorem slotSkipped_of_idle (hisland : frameIsland n = some i) (hload : (s.isl i).loadState ≠ .open)
    (hnow : s.tide.now = none) : s.slotSkipped n = false := by
  simp [slotSkipped, hisland, hload, repairing, hnow]

theorem actOn_island (hisland : frameIsland n = some i) (hfails : (s.findingOf n).2.passes = false) :
    s.actOn n = (s.reportBad n (s.findingOf n).1 (s.findingOf n).2).quarantine i n := by
  have unclean : (s.findingOf n).2 ≠ .clean := fun clean => by simp [clean, Finding.passes] at hfails
  simp [actOn, unclean, hfails, hisland]

/-! ## The quarantine (R192) -/

/-- An uncorrectable finding counted, shown and logged changes three registers of the tide (R190). -/
theorem reportBad_offLog (n syn : Nat) (f : Finding) : ∃ g : Tide → Tide,
    (∀ t : Tide, (g t).queue = t.queue ∧ (g t).burst = t.burst) ∧
      (s.reportBad n syn f).offLog = (s.modTide g).offLog := by
  let miss := f == Finding.addressMismatch
  refine ⟨fun t => { t with
    uncorrectable := if miss then t.uncorrectable else satInc32 t.uncorrectable
    mismatch := if miss then satInc32 t.mismatch else t.mismatch
    lastFind := lastFindOf n syn f }, fun t => ⟨rfl, rfl⟩, ?_⟩
  have told (t : State) (c v m : Nat) (l : List (Nat × Nat)) : (t.event c v m l).offLog = t.offLog := rfl
  unfold reportBad tideNotice
  dsimp only
  rw [raise_offLog, told]

/-- The island quarantined, its fault told, its repair not asked for yet. -/
def sealedOff (s : State) (i n : Nat) : State :=
  let s := (s.sealIsland i .quarantine).modIsl i (fun x => { x with
    quarantined := true, healed := false, qframe := n, qcount := min 15 (x.qcount + 1)
    qtimes := ((s.sealIsland i .quarantine).coreNs :: x.qtimes).take 3 })
  let s := if 160 ≤ n % 168 then s.stopHomePorts i else s
  let s := s.event 0x0304 2 (scopeO (s.islandOwner i)) [(1, i), (1, 0), (2, faddrOf n), (1, (s.isl i).qcount)]
  (s.faultBit 0).unitFault (s.islandOwner i) 9

theorem around_sealedOff (s : State) (i n : Nat) : around i s (s.sealedOff i n) := by
  have sealed := around_modIsl (around_sealIsland (around_refl i s) .quarantine) fun x => { x with
    quarantined := true, healed := false, qframe := n, qcount := min 15 (x.qcount + 1)
    qtimes := ((s.sealIsland i .quarantine).coreNs :: x.qtimes).take 3 }
  have stopped {u : State} (h : around i s u) : around i s (if 160 ≤ n % 168 then u.stopHomePorts i else u) := by
    split
    · exact around_stopHomePorts h
    · exact h
  unfold sealedOff unitFault
  dsimp only
  exact around_tenFault (around_faultBit (around_event (stopped sealed) _ _ _ _) 0) _ _ _ _

/-- In RUN an island that is not quarantined yet is sealed off, its repair waits, and T8 starts (R31, R192). -/
theorem quarantine_of_run (hrun : s.mode.mode = .run) (htrans : s.mode.trans = none)
    (h : (s.isl i).quarantined = false) :
    s.quarantine i n = ((s.sealedOff i n).queueRepair i n).startTrans 8 .degraded := by
  have mode : (s.sealedOff i n).mode = s.mode := around_keeps State.mode (fun _ => rfl) (s.around_sealedOff i n)
  have stays : ¬((s.sealedOff i n).mode.mode = .hold ∨ (s.sealedOff i n).entersHold = true) := by
    simp [mode, hrun, entersHold, htrans]
  have unfolded : s.quarantine i n = (if (s.sealedOff i n).mode.mode = .hold ∨ (s.sealedOff i n).entersHold = true then
      (s.sealedOff i n).deferRepair i n else (s.sealedOff i n).queueRepair i n).degradeCause := by
    unfold quarantine
    rw [if_neg (by simp [h])]
    rfl
  have queued : ((s.sealedOff i n).queueRepair i n).mode = s.mode := mode
  rw [unfolded, if_neg stays, degradeCause, queued, htrans, hrun]
  rfl

/-- The island after its quarantine has begun. -/
theorem sealedOff_isl (s : State) (i n : Nat) :
    let x := (s.sealedOff i n).isl i
    x.sealed = true ∧ x.quarantine = true ∧ x.quarantined = true ∧ x.qcount = min 15 ((s.isl i).qcount + 1) := by
  have told (t : State) (q b l st : Nat) : (t.tenFault q b l st).isl i = t.isl i :=
    isl_congr (congrArg State.islands (raise_offLog (t.modTen q _) q 4)) i
  have marked (t : State) (c v m : Nat) (l : List (Nat × Nat)) : ((t.event c v m l).faultBit 0).isl i = t.isl i := rfl
  have stopped (t : State) : ∃ b, ((if 160 ≤ n % 168 then t.stopHomePorts i else t).isl i).unkept =
      { (t.isl i).unkept with portsStopped := b } := by
    split
    · exact ⟨true, stopHomePorts_unkept i⟩
    · exact ⟨(t.isl i).portsStopped, rfl⟩
  unfold sealedOff unitFault
  dsimp only
  rw [told, marked]
  obtain ⟨b, same⟩ := stopped ((s.sealIsland i .quarantine).modIsl i (fun x => { x with
    quarantined := true, healed := false, qframe := n, qcount := min 15 (x.qcount + 1)
    qtimes := ((s.sealIsland i .quarantine).coreNs :: x.qtimes).take 3 }))
  rw [modIsl_isl_self] at same
  have quarantine : ((s.sealIsland i .quarantine).isl i).quarantine = true := sealIsland_reason s i .quarantine
  have sealed : ((s.sealIsland i .quarantine).isl i).sealed = true := sealed_of_reason (sealIsland_reason s i .quarantine)
  refine ⟨?_, ?_, congrArg Isl.quarantined same, ?_⟩
  · exact (congrArg Isl.sealed same).trans sealed
  · exact (congrArg Isl.quarantine same).trans quarantine
  · exact (congrArg Isl.qcount same).trans (by simp only [Isl.unkept, sealIsland_qcount])

theorem sealedOff_faultStatus (s : State) (i n : Nat) : (s.sealedOff i n).log.faultStatus.getLsbD 0 = true := by
  unfold sealedOff unitFault tenFault
  dsimp only
  rw [raise_log]
  simp [faultBit]

/-- A quarantine of island i for frame n has begun in `t`, which comes from `s`: the island is sealed, its repair waits,
T8 is in progress, and no frame and no other island has changed (R192). -/
def quarantineBegun (s : State) (i n : Nat) (t : State) : Prop :=
  (t.isl i).sealed = true ∧ (t.isl i).quarantine = true ∧ (t.isl i).quarantined = true ∧
    (t.isl i).qcount = min 15 ((s.isl i).qcount + 1) ∧ (t.isl i).repair = 1 ∧
    t.tide.queue = s.tide.queue ++ [(.island i, n)] ∧
    t.mode.trans = some { id := 8, target := .degraded } ∧ t.log.faultStatus.getLsbD 0 = true ∧
    t.frames = s.frames ∧ (∀ j, j ≠ i → t.isl j = s.isl j)

theorem quarantineBegun_of_sealedOff (s : State) (i n : Nat) :
    s.quarantineBegun i n (((s.sealedOff i n).queueRepair i n).startTrans 8 .degraded) := by
  have off := s.around_sealedOff i n
  obtain ⟨sealed, quarantine, quarantined, qcount⟩ := s.sealedOff_isl i n
  have status := s.sealedOff_faultStatus i n
  revert off sealed quarantine quarantined qcount status
  generalize s.sealedOff i n = v
  intro off sealed quarantine quarantined qcount status
  have isl (j : Nat) : ((v.queueRepair i n).startTrans 8 .degraded).isl j =
      (v.modIsl i (fun x => { x with repair := 1 })).isl j := rfl
  have queue : ((v.queueRepair i n).startTrans 8 .degraded).tide.queue = v.tide.queue ++ [(.island i, n)] := rfl
  have frames : v.frames = s.frames := around_keeps State.frames (fun _ => rfl) off
  unfold quarantineBegun
  rw [queue, around_keeps State.tide (fun _ => rfl) off, isl i, modIsl_isl_self]
  exact ⟨sealed, quarantine, quarantined, qcount, rfl, rfl, rfl, status, frames,
    fun j hj => (isl j).trans ((modIsl_isl_other _ _ _ _ hj).trans (off.other j hj))⟩

/-- Neither the end of a slot nor the step's changes it. -/
theorem quarantineBegun_finish (h : s.quarantineBegun i n t) (hburst : t.tide.burst = false)
    (empty : t.leave.queue = []) : s.quarantineBegun i n t.nextSlot.finish := by
  obtain ⟨f, hf, slotEnds⟩ := nextSlot_of_no_burst hburst
  have kept {α : Type} (g : State → α) (hg : ∀ t : State, g t.beside = g t)
      (hl : ∀ (t : State) (l : Leave → Leave), g (t.modLeave l) = g t) : g t.nextSlot.finish = g (t.modTide f) := by
    rw [slotEnds]
    exact finish_keeps_of_empty g hg hl empty
  have status (t : State) : t.beside.log.faultStatus.getLsbD 0 = t.log.faultStatus.getLsbD 0 := by
    simp [beside, Log.beside]
  have queue : (t.modTide f).tide.queue = t.tide.queue := hf t.tide
  unfold quarantineBegun
  rw [kept (fun t => t.tide.queue) (fun _ => rfl) fun _ _ => rfl, queue,
    kept (fun t => t.mode.trans) (fun _ => rfl) fun _ _ => rfl,
    kept (fun t => t.log.faultStatus.getLsbD 0) status fun _ _ => rfl,
    kept State.frames (fun _ => rfl) fun _ _ => rfl]
  simp only [kept (fun t => t.isl _) (fun _ => rfl) fun _ _ => rfl]
  exact h

end State

/-- Settles O26: the slot acts on the frame by `State.quarantine_of_run`, and nothing of that is undone at its end. -/
theorem quarantines : Obligations.Quarantines := by
  intro i s _ empty henabled hrun htrans hnow hburst hisland hfresh hload hfails
  obtain ⟨g, same, told⟩ := s.reportBad_offLog s.tide.position (s.findingOf s.tide.position).1
    (s.findingOf s.tide.position).2
  have acts := State.exec_tideSlot_acts henabled hrun hnow (State.slotSkipped_of_idle hisland hload hnow)
  rw [State.actOn_island hisland hfails] at acts
  revert told acts
  generalize s.reportBad _ _ _ = u
  intro told acts
  have kept {α : Type} (f : State → α) (hf : ∀ t : State, f t.offLog = f t) : f u = f (s.modTide g) := by
    rw [← hf, told, hf]
  have isl (j : Nat) : u.isl j = s.isl j := kept (fun t => t.isl j) fun _ => rfl
  have mode : u.mode = s.mode := kept State.mode fun _ => rfl
  have tide : u.tide = g s.tide := kept State.tide fun _ => rfl
  have frames : u.frames = s.frames := kept State.frames fun _ => rfl
  have queue : u.leave.queue = [] := (kept (fun t => t.leave.queue) fun _ => rfl).trans empty
  rw [State.quarantine_of_run (by rw [mode, hrun]) (by rw [mode, htrans]) (by rw [isl, hfresh])] at acts
  have off := u.around_sealedOff i s.tide.position
  have burst : (u.sealedOff i s.tide.position).tide.burst = false := by
    rw [State.around_keeps State.tide (fun _ => rfl) off, tide, (same _).2, hburst]
  have begun := State.quarantineBegun_finish (u.quarantineBegun_of_sealedOff i s.tide.position) burst (off.queue queue)
  simp only [State.quarantineBegun, isl, tide, (same _).1, frames] at begun
  exact ⟨_, acts, begun⟩

end Sys2Proof.Machine
end

section
/-! PROOF. The end of an island's release (R178 to R182, R220): the state in which it is unsealed, its bank enabled, its
leases ending and the instructions that waited for it answered. -/

namespace Sys2Proof.Machine

/-! ## Loops -/

theorem overList_id_of_mem {α : Type} {f : α → State → State} {s : State} {l : List α} (h : ∀ x ∈ l, f x s = s) :
    overList l f s = s := by
  induction l with
  | nil => rfl
  | cons x l ih =>
    have first : overList (x :: l) f s = overList l f (f x s) := rfl
    rw [first, h x List.mem_cons_self]
    exact ih fun y hy => h y (List.mem_cons_of_mem x hy)

/-- What one step of a loop brings about, and none undoes, holds at its end. -/
theorem overList_reaches {α : Type} {P : State → Prop} {f : α → State → State} {x : α} {l : List α} (hx : x ∈ l)
    (reached : ∀ s, P (f x s)) (kept : ∀ y s, P s → P (f y s)) (s : State) : P (overList l f s) := by
  induction l generalizing s with
  | nil => nomatch hx
  | cons y l ih =>
    rcases List.mem_cons.mp hx with rfl | later
    · exact overList_keeps P l f kept _ (reached s)
    · exact ih later (f y s)

namespace State

variable {s t : State} {i : Nat} {rel : Release} {m : Mechanism}

/-! ## T9 (R31) -/

/-- T9, where the device is in DEGRADED without a cause left (R30). -/
def recovery (s : State) : Option Trans :=
  if s.mode.mode = .degraded ∧ s.anyQuarantine = false ∧ s.unitRetired = false then some { id := 9, target := .run }
  else none

def withTrans (s : State) (o : Option Trans) : State := s.modMode (fun m => { m with trans := o })

/-- The end of a quarantine while no transition is in progress: T9 starts where it was the last cause of DEGRADED. -/
theorem recoverCause_of_idle (htrans : s.mode.trans = none) : s.recoverCause = s.withTrans s.recovery := by
  have idle : s.withTrans none = s := by
    unfold withTrans modMode
    rw [← htrans]
  unfold recoverCause recovery
  rw [if_neg (by simp [htrans])]
  by_cases last : s.mode.mode = .degraded ∧ s.anyQuarantine = false ∧ s.unitRetired = false
  · rw [if_pos (by simpa using last), if_pos last]
    rfl
  · rw [if_neg (by simpa using last), if_neg last, idle]

theorem withTrans_isl (o : Option Trans) (j : Nat) : (s.withTrans o).isl j = s.isl j := rfl

/-! ## The threads that wait for a release -/

/-- Thread r has been answered OK. -/
def answeredOk (r : Nat) (s : State) : Prop :=
  (s.thr r).wait = .none ∧ ∀ c, (s.thr r).cur = some c → c.reply = some (0, 0)

theorem wakeThread_answeredOk {r : Nat} (hr : r < 32) (s : State) : answeredOk r (s.wakeThread r 0 0) := by
  unfold answeredOk wakeThread
  rw [if_pos hr, modThr_thr_self]
  refine ⟨rfl, fun c hc => ?_⟩
  obtain ⟨d, -, rfl⟩ := Option.map_eq_some_iff.mp hc
  rfl

theorem answeredOk_wakeThread {r : Nat} (q : Nat) (s : State) (h : answeredOk r s) : answeredOk r (s.wakeThread q 0 0) := by
  by_cases hq : r = q
  · subst hq
    by_cases hr : r < 32
    · exact wakeThread_answeredOk hr s
    · rw [wakeThread, if_neg hr]
      exact h
  · unfold wakeThread
    split
    · unfold answeredOk
      rw [modThr_thr_other _ _ _ _ hq]
      exact h
    · exact h

/-! ## Leases -/

theorem mem_leaveEnding {p : Asker → Bool} {z : Lease} (h : z ∈ (s.leaveEnding p).leave.leases) :
    ∃ y ∈ s.leave.leases, z.who = y.who ∧ (y.ending = true ∨ p y.who = true → z.ending = true) := by
  obtain ⟨y, hy, rfl⟩ := List.mem_map.mp h
  refine ⟨y, hy, ?_, fun ends => ?_⟩
  · split <;> rfl
  · split
    · rfl
    · next stays => exact ends.resolve_right stays

/-! ## The island and its bank -/

theorem banks_of_aside (h : t.aside = s.aside) : t.banks = s.banks := by
  have same := congrArg State.banks h
  exact same

theorem refreshHome_aside (i : Nat) : (s.refreshHome i).aside = s.aside :=
  (refreshPort_aside _).trans (refreshPort_aside _)

theorem bankPresent_congr (hbanks : t.banks = s.banks) (hframes : t.frames = s.frames) (b : Nat) :
    t.bankPresent b = s.bankPresent b := by
  have vcco : t.bankVcco b = s.bankVcco b := by simp only [bankVcco, cfg, frame, hframes]
  simp only [bankPresent, bankDeclared, vcco, bank, hbanks]

theorem around_unseal (h : around i s t) (m : Mechanism) : around i s (t.unseal i m) := by
  unfold State.unseal watchClocks
  exact around_refreshHome (around_event (around_modIsl (around_modIsl h _) _) _ _ _ _)

theorem unseal_unkept (s : State) (i : Nat) (m : Mechanism) : ∃ k : BitVec 576,
    ((s.unseal i m).isl i).unkept = { (s.isl i).unkept.endQuarantine with
      command := false, load := false, flr := false, hold := false
      loadState := .none, leaveDenied := false, portsStopped := false, release := none
      coldClocks := BitVec.ofNat 4 (s.deadClocks i), user := s.initBits i, ptclk := k } := by
  have told (t : State) (c v n : Nat) (l : List (Nat × Nat)) : (t.event c v n l).isl i = t.isl i := rfl
  unfold State.unseal watchClocks
  dsimp only
  rw [refreshHome_unkept, told, modIsl_isl_self, modIsl_isl_self]
  exact ⟨_, rfl⟩

theorem unseal_aside (s : State) (i : Nat) (m : Mechanism) : (s.unseal i m).aside = s.aside := by
  unfold State.unseal watchClocks
  exact refreshHome_aside i

theorem around_releaseBank (h : around i s t) (b : Nat) : around i s (t.releaseBank b) := by
  unfold releaseBank
  split
  · exact around_leaveEnding (around_modBank (around_leaveWithdraw h _) b _) _
  · exact h

theorem releaseBank_islands (b : Nat) : (s.releaseBank b).islands = s.islands := by
  unfold releaseBank
  split <;> rfl

theorem mem_releaseBank {b : Nat} {z : Lease} (hpresent : s.bankPresent b = true)
    (h : z ∈ (s.releaseBank b).leave.leases) (hz : z.who = .bank b) : z.ending = true := by
  rw [releaseBank, if_pos hpresent] at h
  obtain ⟨y, -, who, ends⟩ := mem_leaveEnding h
  exact ends (.inr (by simp [← who, hz]))

/-! ## The release (R181) -/

/-- The end of a release, T9 apart. -/
def released (s : State) (i : Nat) (rel : Release) : State :=
  overList rel.rings (fun r s => s.wakeThread r 0 0)
    ((((s.unseal i (s.releaseMech i rel)).releaseBank i).refreshHome i).leaveEnding (isRelease i))

theorem releaseEnds_eq (s : State) (i : Nat) (rel : Release) : s.releaseEnds i rel = (s.released i rel).recoverCause := rfl

theorem around_released (s : State) (i : Nat) (rel : Release) : around i s (s.released i rel) :=
  around_overList (around_leaveEnding (around_refreshHome (around_releaseBank (around_unseal (around_refl i s) _) i)) _) _
    fun r u => around_wakeThread (around_refl i u) r 0 0

theorem wakeThreads_aside (l : List Nat) : (overList l (fun r s => s.wakeThread r 0 0) s).aside = s.aside :=
  overList_aside l (fun r _ => wakeThread_aside r 0 0) s

theorem wakeThreads_islands (l : List Nat) : (overList l (fun r s => s.wakeThread r 0 0) s).islands = s.islands :=
  overList_keeps (fun t => t.islands = s.islands) l _ (fun r _ same => (wakeThread_islands r 0 0).trans same) s rfl

theorem released_unkept (s : State) (i : Nat) (rel : Release) : ((s.released i rel).isl i).unkept =
    ((s.unseal i (s.releaseMech i rel)).isl i).unkept := by
  have ending (t : State) (p : Asker → Bool) : (t.leaveEnding p).isl i = t.isl i := rfl
  unfold released
  rw [isl_congr (wakeThreads_islands _), ending, refreshHome_unkept, isl_congr (releaseBank_islands i)]

theorem released_banks (s : State) (i : Nat) (rel : Release) : (s.released i rel).banks =
    ((s.unseal i (s.releaseMech i rel)).releaseBank i).banks := by
  have ending (t : State) (p : Asker → Bool) : (t.leaveEnding p).banks = t.banks := rfl
  unfold released
  rw [banks_of_aside (wakeThreads_aside _), ending, banks_of_aside (refreshHome_aside i)]

theorem unseal_bankPresent (s : State) (i : Nat) (m : Mechanism) (b : Nat) :
    (s.unseal i m).bankPresent b = s.bankPresent b :=
  bankPresent_congr (banks_of_aside (unseal_aside s i m)) (around_keeps State.frames (fun _ => rfl)
    (around_unseal (around_refl i s) m)) b

theorem released_bank (s : State) (i : Nat) (rel : Release) :
    (s.bankPresent i = true → ((s.released i rel).bank i).enabled = true) ∧
      (s.bankPresent i = false → (s.released i rel).bank i = s.bank i) := by
  have banks : (s.released i rel).bank i = ((s.unseal i (s.releaseMech i rel)).releaseBank i).bank i := by
    simp only [bank, released_banks]
  rw [banks, ← unseal_bankPresent s i (s.releaseMech i rel)]
  refine ⟨fun present => ?_, fun absent => ?_⟩
  · rw [releaseBank, if_pos present]
    have ending (t : State) (p : Asker → Bool) : (t.leaveEnding p).bank i = t.bank i := rfl
    rw [ending, modBank_bank_self]
  · rw [releaseBank, if_neg (by simp [absent])]
    simp only [bank, banks_of_aside (unseal_aside s i (s.releaseMech i rel))]

/-- The leases of the release, and of its bank where it is present, run out their DURATION (R479). -/
theorem released_leases (s : State) (i : Nat) (rel : Release) : ∀ z ∈ (s.released i rel).leave.leases,
    isRelease i z.who = true ∨ (s.bankPresent i = true ∧ z.who = .bank i) → z.ending = true := by
  intro z hz hwho
  unfold released at hz
  rw [leave_of_aside (wakeThreads_aside _)] at hz
  obtain ⟨y, hy, who, ends⟩ := mem_leaveEnding hz
  rw [leave_of_aside (refreshHome_aside i)] at hy
  rw [who] at hwho
  rcases hwho with mine | ⟨present, bank⟩
  · exact ends (.inr mine)
  · exact ends (.inl (mem_releaseBank ((unseal_bankPresent s i _ i).trans present) hy bank))

theorem released_threads (s : State) (i : Nat) (rel : Release) {r : Nat} (hr : r < 32) (h : r ∈ rel.rings) :
    answeredOk r (s.released i rel) :=
  overList_reaches h (fun t => wakeThread_answeredOk hr t) (fun q t => answeredOk_wakeThread q t) _

/-! ## The command (R178, R181) -/

theorem exec_islandReleaseDone_frozen {i : IslandId} (hrel : (s.isl i).release = some rel)
    (hfrozen : s.mode.frozen = true) : exec (.islandReleaseDone i) s = answer s := by
  show execIslandReleaseDone i s = _
  simp [execIslandReleaseDone, hrel, hfrozen]

/-- The conditions of R178 that no reason keeps up: the load has completed, and the quarantine has ended. -/
structure releasable (s : State) (i : Nat) : Prop where
  loaded : (s.isl i).loadState = .none ∨ (s.isl i).loadState = .complete
  full : (s.isl i).load = true → s.fullLoading = false
  healed : (s.isl i).quarantine = true → (s.isl i).healed = true

theorem loadPending_of_releasable (h : s.releasable i) : s.loadPending (s.isl i) = false := by
  obtain ⟨loaded, full, -⟩ := h
  have finished : (s.isl i).unfinished = false := by rcases loaded with h | h <;> simp [Isl.unfinished, h]
  cases load : (s.isl i).load with
  | false => simp [loadPending, finished, load]
  | true => simp [loadPending, finished, full load]

theorem releaseRefusal_of_releasable (hrun : s.inRun = true) (h : s.releasable i) : s.releaseRefusal i = none := by
  have run : s.mode.mode = .run ∨ s.mode.mode = .degraded := by simpa [inRun] using hrun
  have executes : s.mode.mode.executes = true := by rcases run with h | h <;> simp [h, Mode.executes]
  have pending := loadPending_of_releasable h
  cases quarantine : (s.isl i).quarantine with
  | false => simp [releaseRefusal, executes, pending, quarantine]
  | true => simp [releaseRefusal, executes, pending, quarantine, h.healed quarantine]

/-- The mechanism of a release clears every reason that its island has (R179, R180). -/
def mechanismClears (rel : Release) (x : Isl) : Prop :=
  (rel.mech = .loadDone ∧ x.command = false ∧ x.flr = false ∧ x.hold = false ∧ x.quarantine = false) ∨
    (rel.mech = .repairEnd ∧ x.command = false ∧ x.flr = false ∧ x.hold = false ∧ x.load = false) ∨
    (rel.mech = .instruction ∧ rel.rings ≠ [])

theorem clearsAll_of_releasable (h : s.releasable i) (hmech : mechanismClears rel (s.isl i)) :
    s.clearsAll rel.mech i = true := by
  have pending := loadPending_of_releasable h
  have healed := h.healed
  simp only [clearsAll, Machine.clearsAll, pending, List.all_cons, List.all_nil, Isl.reason, mayClear, Bool.not_false,
    Bool.and_true]
  rcases hmech with ⟨mech, command, flr, hold, quarantine⟩ | ⟨mech, command, flr, hold, load⟩ | ⟨mech, -⟩
  · simp [mech, command, flr, hold, quarantine]
  · simp [mech, command, flr, hold, load]
    grind
  · simp [mech]
    grind

theorem releaseMech_of_releasable (h : s.releasable i) (hmech : mechanismClears rel (s.isl i)) :
    s.releaseMech i rel = rel.mech := by
  simp [releaseMech, clearsAll_of_releasable h hmech]

/-- The release of an island, written down anew with the instructions that still wait for it. -/
def withRelease (s : State) (i : Nat) (rel : Release) : State := s.modIsl i (fun x => { x with release := some rel })

theorem withRelease_isl (hrel : (s.isl i).release = some rel) (j : Nat) : (s.withRelease i rel).isl j = s.isl j := by
  by_cases hj : j = i
  · subst hj
    rw [withRelease, modIsl_isl_self, ← hrel]
  · rw [withRelease, modIsl_isl_other _ _ _ _ hj]

/-- A release whose leave has been granted comes to its end where the conditions of R178 hold. -/
theorem exec_islandReleaseDone_goes {i : IslandId} (hrun : s.inRun = true) (htrans : s.mode.trans = none)
    (hrel : (s.isl i).release = some rel) (hgranted : rel.granted = true) (hfrozen : s.mode.frozen = false)
    (hrings : s.ownerRings i rel = rel.rings) (hmech : mechanismClears rel (s.isl i)) (h : s.releasable i) :
    exec (.islandReleaseDone i) s = answer ((s.withRelease i rel).releaseEnds i rel) := by
  have run : s.mode.mode = .run ∨ s.mode.mode = .degraded := by simpa [inRun] using hrun
  have goes : (!rel.granted || s.mode.frozen || s.mode.mode == .wake || s.holds) = false := by
    rcases run with h | h <;> simp [hgranted, hfrozen, holds, h, entersHold, htrans]
  have waiting : ¬(rel.mech = .instruction ∧ rel.rings = []) := by
    rcases hmech with ⟨mech, -⟩ | ⟨mech, -⟩ | ⟨-, some⟩
    · simp [mech]
    · simp [mech]
    · exact fun h => some h.2
  have owners : overList rel.rings (fun r s' =>
      if (s'.ownerRings i rel).contains r then s' else s'.wakeThread r 0x21 0) s = s :=
    overList_id_of_mem fun r hr => if_pos (by rw [hrings]; exact List.contains_iff_mem.mpr hr)
  have self := withRelease_isl hrel i
  have same : (s.withRelease i rel).releasable i := by
    obtain ⟨loaded, full, healed⟩ := h
    exact ⟨by rw [self]; exact loaded, by rw [self]; exact full, by rw [self]; exact healed⟩
  have refusal := releaseRefusal_of_releasable (s := s.withRelease i rel) hrun same
  have clears := clearsAll_of_releasable same (by rw [self]; exact hmech)
  have mech := releaseMech_of_releasable same (by rw [self]; exact hmech)
  have anew : s.modIsl i (fun x => { x with release := some { rel with rings := rel.rings } }) = s.withRelease i rel := rfl
  show execIslandReleaseDone i s = _
  simp only [execIslandReleaseDone, hrel, goes, Bool.false_eq_true, if_false, hrings, if_neg waiting, owners, anew,
    refusal, mech, clears, if_true]

/-- Island i has been released in `t`, which comes from `s` (R181, R182, R220, R479). -/
def releaseOver (s : State) (i : Nat) (rel : Release) (t : State) : Prop :=
  (t.isl i).sealed = false ∧ (t.isl i).loadState = .none ∧ (t.isl i).release = none ∧
    (t.isl i).user = s.initBits i ∧ (t.isl i).quarantined = false ∧
    (∀ r ∈ rel.rings, r < 32 → answeredOk r t) ∧ t.mode.mode = s.mode.mode ∧
    t.mode.trans = (if s.mode.mode = .degraded ∧ t.anyQuarantine = false ∧ t.unitRetired = false
      then some { id := 9, target := .run } else none) ∧
    (t.isl i).leaveDenied = false ∧ (t.isl i).portsStopped = false ∧
    (s.bankPresent i = true → (t.bank i).enabled = true) ∧ (s.bankPresent i = false → t.bank i = s.bank i) ∧
    (∀ z ∈ t.leave.leases, isRelease i z.who = true ∨ (s.bankPresent i = true ∧ z.who = .bank i) → z.ending = true) ∧
    (∀ j, j ≠ i → t.isl j = s.isl j) ∧ t.frames = s.frames

theorem releaseOver_of_releaseEnds (htrans : s.mode.trans = none) (i : Nat) (rel : Release) :
    s.releaseOver i rel (s.releaseEnds i rel) := by
  have kept := s.around_released i rel
  have mode : (s.released i rel).mode = s.mode := around_keeps State.mode (fun _ => rfl) kept
  have frames : (s.released i rel).frames = s.frames := around_keeps State.frames (fun _ => rfl) kept
  obtain ⟨k, self⟩ := s.unseal_unkept i (s.releaseMech i rel)
  have field {α : Type} (f : Isl → α) (hf : ∀ x : Isl, f x.unkept = f x) := congrArg f
    ((s.released_unkept i rel).trans self)
  obtain ⟨present, absent⟩ := s.released_bank i rel
  have leases := s.released_leases i rel
  have threads (r : Nat) (h : r ∈ rel.rings) (hr : r < 32) := s.released_threads i rel hr h
  rw [releaseEnds_eq, recoverCause_of_idle (by rw [mode, htrans])]
  revert kept mode frames field present absent leases threads
  generalize s.released i rel = t
  intro kept mode frames field present absent leases threads
  have degraded : t.recovery = if s.mode.mode = .degraded ∧ t.anyQuarantine = false ∧ t.unitRetired = false
      then some { id := 9, target := .run } else none := by rw [recovery, mode]
  have modeKept : (t.withTrans t.recovery).mode.mode = s.mode.mode := by
    show t.mode.mode = _
    rw [mode]
  unfold releaseOver
  simp only [withTrans_isl]
  exact ⟨field Isl.sealed fun _ => rfl, field Isl.loadState fun _ => rfl, field Isl.release fun _ => rfl,
    field Isl.user fun _ => rfl, field Isl.quarantined fun _ => rfl, threads, modeKept, degraded,
    field Isl.leaveDenied fun _ => rfl, field Isl.portsStopped fun _ => rfl, present, absent, leases, kept.other, frames⟩

theorem releaseEnds_queue (htrans : s.mode.trans = none) (empty : s.leave.queue = []) (i : Nat) (rel : Release) :
    (s.releaseEnds i rel).leave.queue = [] := by
  have kept := s.around_released i rel
  have mode : (s.released i rel).mode = s.mode := around_keeps State.mode (fun _ => rfl) kept
  rw [releaseEnds_eq, recoverCause_of_idle (by rw [mode, htrans])]
  exact kept.queue empty

/-- The end of the step leaves it so. -/
theorem releaseOver_finish (h : s.releaseOver i rel t) (empty : t.leave.queue = []) : s.releaseOver i rel t.finish := by
  have kept {α : Type} (f : State → α) (hf : ∀ t : State, f t.beside = f t)
      (hl : ∀ (t : State) (g : Leave → Leave), f (t.modLeave g) = f t) : f t.finish = f t :=
    finish_keeps_of_empty f hf hl empty
  have leases : t.finish.leave.leases = t.leave.leases := by
    have same := congrArg (fun o : State => o.leave.leases) (t.finish_beside_empty empty)
    exact same
  unfold releaseOver answeredOk
  rw [leases]
  simp only [kept (fun t => t.isl _) (fun _ => rfl) fun _ _ => rfl, kept (fun t => t.bank _) (fun _ => rfl) fun _ _ => rfl,
    kept (fun t => t.thr _) (fun _ => rfl) fun _ _ => rfl, kept State.frames (fun _ => rfl) fun _ _ => rfl,
    kept State.anyQuarantine (fun _ => rfl) fun _ _ => rfl, kept State.unitRetired (fun _ => rfl) fun _ _ => rfl,
    kept (fun t => t.mode.mode) (fun _ => rfl) fun _ _ => rfl, kept (fun t => t.mode.trans) (fun _ => rfl) fun _ _ => rfl]
  exact h

end State

/-- Settles O29: `State.exec_islandReleaseDone_goes` brings the release to its end, and the end of the step changes
nothing of that. -/
theorem releaseEnds : Obligations.ReleaseEnds := by
  intro i rel s hset empty hrun htrans hrel hgranted
  refine ⟨fun hfrozen => ?_, fun hfrozen hload hfull hhealed howners hmech => ?_⟩
  · rw [State.exec_islandReleaseDone_frozen hrel hfrozen]
    exact answersLike_answer (s.settled_iff.mp hset).2 rfl
  · have hrings : s.ownerRings i rel = rel.rings := List.filter_eq_self.mpr howners
    have answers := State.exec_islandReleaseDone_goes hrun htrans hrel hgranted hfrozen hrings hmech ⟨hload, hfull, hhealed⟩
    have done := State.releaseOver_of_releaseEnds (s := s.withRelease i rel) htrans i rel
    have queue := State.releaseEnds_queue (s := s.withRelease i rel) htrans empty i rel
    have ended := State.releaseOver_finish done queue
    unfold State.releaseOver at ended
    simp only [State.withRelease_isl hrel] at ended
    exact ⟨_, answers, ended⟩

end Sys2Proof.Machine
end

section
/-! PROOF. A sweep that enters HOLD corrects what the I/O columns hold: the statement of the tide leaves every frame as
it was. -/

namespace Sys2Proof.Machine

/-- The sweep stands at frame 8,064, a strait frame whose check word is wrong, and frame 160, in an I/O column of
island 0, has one flipped bit: bit 1, under the check word of the data 1. -/
def straitUpset : State :=
  { mode := { mode := .run, trans := none }
    tide := { enabled := true, position := 8064 }
    frames := [(160, { data := 3, check := 35655683#32 }), (8064, {})] }

theorem straitUpset_uncorrectable : (straitUpset.findingOf 8064).2.passes = false := by
  decide +kernel

/-- The slot that begins T16 corrects frame 160. -/
theorem straitUpset_corrected :
    (answered (exec .tideSlot straitUpset)).map (fun t => (t.frame 160).data.toNat) = some 1 := by
  decide +kernel

/-- Refutes O25: the slot finds the strait frame of `straitUpset`, T16 begins, and its first step corrects frame 160,
where the statement keeps every frame. -/
theorem not_tide : ¬ Obligations.Tide := by
  unfold Obligations.Tide
  rintro ⟨slots, -⟩
  obtain ⟨-, -, -, upset⟩ := slots straitUpset (by decide) rfl rfl rfl rfl rfl (by decide)
  obtain ⟨t, answers, -, -, -, frames, -⟩ := upset straitUpset_uncorrectable (by decide) (by decide)
  have corrected := straitUpset_corrected
  rw [answers] at corrected
  have kept : (t.frame 160).data.toNat = 3 := by
    simp only [State.frame, frames]
    decide +kernel
  exact absurd (kept.symm.trans (Option.some.inj corrected)) (by decide)

end Sys2Proof.Machine
end

section
/-! PROOF. Repairs (R193 to R197): their start, the golden frame that is written or cannot be, and the re-check that ends
them. -/

namespace Sys2Proof.Machine

namespace State

variable {s t u v : State} {r : Repair} {i n : Nat} {rest : List (RepairJob × Nat)}

/-! ## The start (R193, R197) -/

theorem repairFailed_beside (s : State) (i n result : Nat) :
    (s.repairFailed i n result).beside = (s.modIsl i (fun x => { x with repair := result })).beside :=
  raise_beside _ 0 8

/-- The repair that waits longest starts. -/
theorem exec_repairStart_island (hrun : s.inRun = true) (htrans : s.mode.trans = none) (hnow : s.tide.now = none)
    (hrechecks : s.tide.rechecks = []) (hqueue : s.tide.queue = (.island i, n) :: rest) :
    exec .repairStart s = answer ((s.modTide (fun t => { t with queue := rest })).startRepair i n) := by
  have run : s.mode.mode = .run ∨ s.mode.mode = .degraded := by simpa [inRun] using hrun
  have executes : s.mode.mode.executes = true := by rcases run with h | h <;> simp [h, Mode.executes]
  show execRepairStart s = _
  simp [execRepairStart, executes, hnow, hrechecks, executing, entersHold, htrans, startQueued, hqueue, modTide]

theorem startRepair_repeats (h : (s.isl i).repeats = true) : s.startRepair i n =
    (s.repairFailed i n 7).event 0x0309 2 (scopeO (s.islandOwner i))
      [(1, i), (1, 0), (2, faddrOf n), (1, (s.isl i).qcount)] := if_pos h

theorem startRepair_replaced (h : (s.isl i).repeats = false) (hreplaced : (s.isl i).replaced = true) :
    s.startRepair i n = s.repairFailed i n 3 := by
  simp [startRepair, h, hreplaced]

theorem startRepair_seeks (h : (s.isl i).repeats = false) (hreplaced : (s.isl i).replaced = false) :
    s.startRepair i n = s.seekGolden { job := .island i, frame := n, first := n } n := by
  simp [startRepair, h, hreplaced]

theorem seekGolden_first (h : s.mode.chainFirst = true) :
    s.seekGolden r n = s.modTide (fun t => { t with now := some { r with frame := n, phase := .golden } }) := by
  simp [seekGolden, h]

theorem seekGolden_behind (h : s.mode.chainFirst = false) : (s.seekGolden r n).beside =
    ((s.modTide (fun t => { t with now := some { r with frame := n, phase := .answer } })).modChain
      (fun c => { c with seqUp := (c.seqUp + 1) % 256 })).beside := by
  simp [seekGolden, h, requestRepair, sendUp]

/-! ## The golden frame (R165, R193) -/

theorem exec_goldenFrameRead_held (h : s.flash.holdsRead = true ∨ s.mode.mode = .wake) (failed : Bool) :
    exec (.goldenFrameRead failed) s = answer s := by
  show execGoldenFrameRead failed s = _
  rcases h with h | h
  · simp [execGoldenFrameRead, h]
  · simp [execGoldenFrameRead, h, Mode.executes]

/-- What the flash gave of the frame is taken. -/
def takeGolden (s : State) (r : Repair) (i : Nat) (failed : Bool) : GoldenResult → State
  | .lost | .corrupt _ _ => s.repairEndsBad i r.frame 4
  | .absent => s.writeGolden r i 0 failed
  | .record data => s.writeGolden r i data failed

theorem exec_goldenFrameRead_takes (hnow : s.tide.now = some r) (hjob : r.job = .island i) (hphase : r.phase = .golden)
    (hexec : s.mode.mode.executes = true) (hheld : s.flash.holdsRead = false) (hdata : s.forcedFull 11 = false)
    (hflash : s.forcedFull 14 = false) (failed : Bool) :
    exec (.goldenFrameRead failed) s =
      answer (s.takeGolden r i failed (s.goldenFrame s.ldr.chainIndex r.frame)) := by
  show execGoldenFrameRead failed s = _
  cases golden : s.goldenFrame s.ldr.chainIndex r.frame <;>
    simp only [execGoldenFrameRead, hexec, hheld, hdata, hflash, hnow, hjob, hphase, golden, takeGolden, Bool.not_true,
      Bool.or_self, Bool.false_eq_true, if_false]

/-- The golden frame stands written when the step has ended, and its re-check follows. -/
theorem finish_writeGolden_good (fresh : s.leave.stale = false) (r : Repair) (i : Nat) (data : BitVec 2048) :
    let t := (s.writeGolden r i data false).finish
    (t.frame r.frame).data = data ∧ (t.frame r.frame).check = checkWord (faddrOf r.frame) data ∧
      (∀ m, m ≠ r.frame → t.frame m = s.frame m) ∧
      t.tide.now = some { r with rewritten := r.rewritten + 1, phase := .recheck } := by
  obtain ⟨f, hdata, hcheck, wrote⟩ := s.writeGolden_good r i data
  have leave : (s.writeGolden r i data false).leave.stale = false := by
    rw [leave_of_aside wrote]
    exact fresh
  have frames (m : Nat) : (s.writeGolden r i data false).finish.frame m = (s.setFrame r.frame f).frame m :=
    (finish_keeps (fun o => o.frame m) (fun _ => rfl) leave).trans (frame_of_aside wrote m)
  refine ⟨?_, ?_, fun m hm => (frames m).trans (setFrame_frame_other f hm), ?_⟩
  · rw [frames, setFrame_frame_self, hdata]
  · rw [frames, setFrame_frame_self, hcheck]
  · exact (finish_keeps (fun o => o.tide.now) (fun _ => rfl) leave).trans (congrArg (fun o : State => o.tide.now) wrote)

/-- A write that has failed its test twice ends the repair. -/
theorem finish_writeGolden_failed (fresh : s.leave.stale = false) (r : Repair) (i : Nat) (data : BitVec 2048) :
    let t := (s.writeGolden r i data true).finish
    t.tide.now = none ∧ (t.isl i).repair = 6 ∧ ∀ m, m ≠ r.frame → t.frame m = s.frame m := by
  obtain ⟨failedRepair, kept⟩ := s.writeGolden_failed r i data
  obtain ⟨now, repair, frames, -⟩ := repairOver_finish failedRepair fresh
  refine ⟨now, repair, fun m hm => Eq.trans ?_ (kept m hm)⟩
  simp only [frame, frames]

/-! ## The re-check (R192 step 5) -/

/-- A re-check whose frames are all clean changes nothing but the cycles of a burst (R190). -/
theorem recheckFrames_of_clean (left : Nat) (s : State) (n : Nat) (h : ∀ k, k < left → (s.findingOf (n + k)).2 = .clean) :
    ∃ b, s.recheckFrames left n = (.clean, s.modTide (fun t => { t with burstCycles := b })) := by
  induction left generalizing s n with
  | zero => exact ⟨s.tide.burstCycles, rfl⟩
  | succ left ih =>
    have first : (s.findingOf n).2 = .clean := h 0 (Nat.succ_pos left)
    have passes : s.tideHeld n = false := by simp [tideHeld, first, Finding.passes]
    obtain ⟨b, later⟩ := ih (s.modTide (fun t => { t with
      burstCycles := if t.burst then t.burstCycles + 50 else t.burstCycles })) (n + 1) fun k hk => by
        have next := h (k + 1) (Nat.succ_lt_succ hk)
        rwa [← Nat.add_assoc, Nat.add_right_comm] at next
    refine ⟨b, ?_⟩
    simp only [recheckFrames, passes, Bool.false_eq_true, if_false, first, if_true]
    exact later

theorem exec_recheckComplete_clean (hexec : s.mode.mode.executes = true) (hnow : s.tide.now = some r)
    (hjob : r.job = .island i) (hphase : r.phase = .recheck)
    (h : ∀ k, r.place ≤ k → k < 168 → (s.findingOf (168 * i + k)).2 = .clean) :
    ∃ b, exec .recheckComplete s =
      answer ((s.modTide (fun t => { t with burstCycles := b })).recheckPasses r i) := by
  obtain ⟨b, clean⟩ := recheckFrames_of_clean (168 - r.place) s (i * 168 + r.place) fun k hk => by
    have frame := h (r.place + k) (by omega) (by omega)
    rwa [Nat.mul_comm, ← Nat.add_assoc] at frame
  refine ⟨b, ?_⟩
  show execRecheckComplete s = _
  simp only [execRecheckComplete, hexec, hnow, hjob, hphase, clean, Bool.not_true, Bool.false_eq_true, if_false]

/-! ## Its end (R192 step 5, R195, R196) -/

/-- The re-check has passed; its seal and its release are still to follow. -/
def passed (s : State) (i : Nat) : State :=
  ((s.modTide (fun t => { t with now := none })).dropWaiting i).modIsl i (fun x => { x with repair := 2, healed := true })

theorem passed_isl (s : State) (i : Nat) : (s.passed i).isl i = { s.isl i with repair := 2, healed := true } :=
  modIsl_isl_self _ _ _

theorem recheckPasses_eq (h : r.afterLoad = false) (i : Nat) : ∃ u : State, u.beside = (s.passed i).beside ∧
    s.recheckPasses r i = if (u.isl i).keep then
        (u.modIsl i (fun x => { x.endQuarantine with command := true })).recoverCause
      else u.autoRelease i .repairEnd := by
  refine ⟨_, ?_, by unfold recheckPasses; rfl⟩
  rw [h]
  exact raise_beside _ 0 8

/-- The repair of island i has come to its end in `t`, which comes from `s`, and the quarantine with it. -/
def repairedIn (s : State) (i : Nat) (t : State) : Prop :=
  t.tide.now = none ∧ (t.isl i).repair = 2 ∧ (t.isl i).quarantine = false ∧ (t.isl i).quarantined = false ∧
    t.frames = s.frames ∧
    t.mode.trans = if s.mode.mode = .degraded ∧ t.anyQuarantine = false ∧ t.unitRetired = false
      then some { id := 9, target := .run } else none

/-- The island's quarantine ends, and T9 follows where it was the last cause of DEGRADED. -/
theorem repairedIn_recoverCause {g : Isl → Isl} (htrans : s.mode.trans = none) (fresh : s.leave.stale = false)
    (hu : u.beside = (s.passed i).beside) (hrepair : (g (u.isl i)).repair = 2)
    (hseal : (g (u.isl i)).quarantine = false) (hquarantined : (g (u.isl i)).quarantined = false) :
    s.repairedIn i (u.modIsl i g).recoverCause.finish ∧ ((u.modIsl i g).recoverCause.finish).isl i = g (u.isl i) := by
  have kept {α : Type} (f : State → α) (hf : ∀ t : State, f t.beside = f t) : f u = f (s.passed i) := by
    rw [← hf, hu, hf]
  have mode : u.mode.mode = s.mode.mode := kept (fun t => t.mode.mode) fun _ => rfl
  have trans : u.mode.trans = none := (kept (fun t => t.mode.trans) fun _ => rfl).trans htrans
  have now : u.tide.now = none := kept (fun t => t.tide.now) fun _ => rfl
  have frames : u.frames = s.frames := kept State.frames fun _ => rfl
  have leave : u.leave.stale = false := (kept (fun t => t.leave.stale) fun _ => rfl).trans fresh
  rw [recoverCause_of_idle (by exact trans)]
  have ends {α : Type} (f : State → α) (hf : ∀ t : State, f t.beside = f t) :
      f ((u.modIsl i g).withTrans (u.modIsl i g).recovery).finish = f ((u.modIsl i g).withTrans (u.modIsl i g).recovery) :=
    finish_keeps f hf (by exact leave)
  have isl : (((u.modIsl i g).withTrans (u.modIsl i g).recovery).finish).isl i = g (u.isl i) :=
    (ends (fun t => t.isl i) fun _ => rfl).trans (modIsl_isl_self u i g)
  refine ⟨?_, isl⟩
  unfold repairedIn
  rw [isl, ends (fun t => t.tide.now) fun _ => rfl, ends State.frames fun _ => rfl,
    ends (fun t => t.mode.trans) fun _ => rfl, ends State.anyQuarantine fun _ => rfl,
    ends State.unitRetired fun _ => rfl, ← mode]
  exact ⟨now, hrepair, hseal, hquarantined, frames, rfl⟩

/-- The end of a repair clears an ended quarantine and no other reason (R179). -/
theorem clearReasons_repairEnd {x : Isl} {open_ : Bool} (hseal : x.quarantine = true) (hhealed : x.healed = true) :
    Isl.clearReasons .repairEnd open_ x = x.endQuarantine := by
  simp [Isl.clearReasons, mayClear, hseal, hhealed, Isl.endQuarantine]

/-- The end of a repair lets the quarantine of an island go that another reason holds (R179). -/
theorem autoRelease_of_held (hseal : (s.isl i).quarantine = true) (hquarantined : (s.isl i).quarantined = true)
    (hhealed : (s.isl i).healed = true)
    (hheld : (s.isl i).command = true ∨ (s.isl i).load = true ∨ (s.isl i).flr = true ∨ (s.isl i).hold = true) :
    s.autoRelease i .repairEnd =
      (s.modIsl i (Isl.clearReasons .repairEnd (s.loadPending (s.isl i)))).recoverCause := by
  have shut : (s.isl i).sealed = true := by simp [Isl.sealed, hseal]
  have held : s.clearsAll .repairEnd i = false := by
    rcases hheld with h | h | h | h <;> simp [clearsAll, Machine.clearsAll, Isl.reason, mayClear, h]
  have ends : (Isl.clearReasons .repairEnd (s.loadPending (s.isl i)) (s.isl i)).quarantined = false := by
    rw [clearReasons_repairEnd hseal hhealed]
    rfl
  simp only [autoRelease, clearReasons, shut, held, hquarantined, modIsl_isl_self, ends, Bool.not_true, Bool.not_false,
    Bool.false_eq_true, if_false, if_true, Bool.and_self, reduceCtorEq, or_self]

/-- The end of a repair asks for the release of an island that its quarantine alone holds (R179, R192). -/
theorem autoRelease_of_quarantine (hseal : (s.isl i).quarantine = true) (hhealed : (s.isl i).healed = true)
    (hcommand : (s.isl i).command = false) (hload : (s.isl i).load = false) (hflr : (s.isl i).flr = false)
    (hhold : (s.isl i).hold = false) (hrelease : (s.isl i).release = none) :
    s.autoRelease i .repairEnd = (s.modIsl i (fun x => { x with release := some { mech := .repairEnd } })).leaveAsk
      (s.deviceReq (.release i none) s.leave.defaultNs) := by
  have shut : (s.isl i).sealed = true := by simp [Isl.sealed, hseal]
  have clears : s.clearsAll .repairEnd i = true := by
    simp [clearsAll, Machine.clearsAll, Isl.reason, mayClear, hcommand, hload, hflr, hhold, hhealed]
  simp only [autoRelease, shut, clears, hrelease, Bool.not_true, Bool.false_eq_true, if_false]

/-- The release of a repaired island has been asked for when the step has ended. -/
theorem finish_releaseAsked {q : LeaveReq} (fresh : s.leave.stale = false) (hu : u.beside = (s.passed i).beside)
    (hseal : (s.isl i).quarantine = true) :
    let t := ((u.modIsl i (fun x => { x with release := some { mech := .repairEnd } })).leaveAsk q).finish
    t.tide.now = none ∧ (t.isl i).repair = 2 ∧ (t.isl i).healed = true ∧ (t.isl i).sealed = true ∧
      (t.isl i).release = some { mech := .repairEnd } ∧ t.leave.arriving.length = s.leave.arriving.length + 1 ∧
      t.frames = s.frames := by
  have kept {α : Type} (f : State → α) (hf : ∀ t : State, f t.beside = f t) : f u = f (s.passed i) := by
    rw [← hf, hu, hf]
  have isl : u.isl i = { s.isl i with repair := 2, healed := true } :=
    (kept (fun t => t.isl i) fun _ => rfl).trans (passed_isl s i)
  have leave : u.leave = s.leave := kept State.leave fun _ => rfl
  have now : u.tide.now = none := kept (fun t => t.tide.now) fun _ => rfl
  have frames : u.frames = s.frames := kept State.frames fun _ => rfl
  have asked := modIsl_isl_self u i (fun x => { x with release := some { mech := .repairEnd } })
  rw [isl] at asked
  let v := (u.modIsl i (fun x => { x with release := some { mech := .repairEnd } })).leaveAsk q
  have ends {α : Type} (f : State → α) (hf : ∀ t : State, f t.beside = f t) : f v.finish = f v :=
    finish_keeps f hf (by show u.leave.stale = false; rw [leave, fresh])
  have self : v.finish.isl i = { s.isl i with
      repair := 2, healed := true, release := some { mech := .repairEnd } } := by
    rw [ends (fun t => t.isl i) fun _ => rfl]
    exact asked
  have longer : v.finish.leave.arriving.length = s.leave.arriving.length + 1 := by
    rw [ends State.leave fun _ => rfl, ← leave]
    exact List.length_append
  intro t
  refine ⟨(ends (fun t => t.tide.now) fun _ => rfl).trans now, ?_, ?_, ?_, ?_, longer,
    (ends State.frames fun _ => rfl).trans frames⟩
  all_goals rw [self]
  simp [Isl.sealed, hseal]

end State

/-- R193, R197: the start of the repair that waits longest. -/
theorem repairStarts {s : State} {i : IslandId} {n : Nat} {rest : List (RepairJob × Nat)} (fresh : s.leave.stale = false)
    (starts : exec .repairStart s = answer ((s.modTide (fun t => { t with queue := rest })).startRepair i n)) :
    ((s.isl i).repeats = true →
      let told := (s.modTide (fun t => { t with queue := rest })).modIsl i (fun x => { x with repair := 7 })
      answersLike (exec .repairStart s) told ∧
        exec .repairStart s = answer
          (((told.event 0x0306 2 (scopeO (s.islandOwner i)) [(1, i), (1, 0), (2, faddrOf n), (1, 7)]).tideNotice).event
            0x0309 2 (scopeO (s.islandOwner i)) [(1, i), (1, 0), (2, faddrOf n), (1, (s.isl i).qcount)])) ∧
    ((s.isl i).repeats = false → (s.isl i).replaced = false → s.mode.chainFirst = true →
      answersLike (exec .repairStart s) (s.modTide (fun t => { t with
        queue := rest, now := some { job := .island i, frame := n, first := n } }))) ∧
    ((s.isl i).repeats = false → (s.isl i).replaced = false → s.mode.chainFirst = false →
      answersLike (exec .repairStart s) ((s.modTide (fun t => { t with
          queue := rest, now := some { job := .island i, frame := n, first := n, phase := .answer } })).modChain
        (fun c => { c with seqUp := (c.seqUp + 1) % 256 }))) ∧
    ((s.isl i).repeats = false → (s.isl i).replaced = true →
      answersLike (exec .repairStart s)
        ((s.modTide (fun t => { t with queue := rest })).modIsl i (fun x => { x with repair := 3 }))) := by
  refine ⟨fun repeats => ?_, fun fine same first => ?_, fun fine same behind => ?_, fun fine replaced => ?_⟩
  · rw [State.startRepair_repeats (by exact repeats)] at starts
    refine ⟨?_, starts⟩
    rw [starts]
    exact answersLike_answer fresh (State.repairFailed_beside _ i n 7)
  · rw [starts, State.startRepair_seeks (by exact fine) (by exact same), State.seekGolden_first (by exact first)]
    exact answersLike_answer fresh rfl
  · rw [starts, State.startRepair_seeks (by exact fine) (by exact same)]
    exact answersLike_answer fresh (State.seekGolden_behind (by exact behind))
  · rw [starts, State.startRepair_replaced (by exact fine) (by exact replaced)]
    exact answersLike_answer fresh (State.repairFailed_beside _ i n 3)

/-- Settles O27: the start by `State.startRepair` and its cases, the golden frame by `State.takeGolden`, and the end of
the re-check, whose frames are all clean, by `State.recheckPasses_eq`. -/
theorem repairs : Obligations.Repairs := by
  refine ⟨fun i n s hset => ?_, fun i r s hset hexec htrans hnow hjob hphase hload _ hclean => ?_⟩
  · have fresh : s.leave.stale = false := (s.settled_iff.mp hset).2
    refine ⟨fun hrun htrans hnow hrechecks rest hqueue => ?_, fun r hnow hjob => ?_⟩
    · have starts := State.exec_repairStart_island hrun htrans hnow hrechecks hqueue
      obtain ⟨repeats, seeks⟩ := repairStarts fresh starts
      refine ⟨fun last middle first more hq hlate => repeats ?_, seeks⟩
      simp only [Isl.repeats, hq, hlate, decide_true]
    · refine ⟨fun held f => ?_, fun hphase hexec hheld hdata hflash => ?_, fun hphase => ?_⟩
      · rw [State.exec_goldenFrameRead_held held]
        exact answersLike_answer fresh rfl
      · have takes := State.exec_goldenFrameRead_takes hnow hjob hphase hexec hheld hdata hflash
        refine ⟨fun bad f => ?_, fun absent => ?_, fun data record => ?_⟩
        · have ends : s.takeGolden r i f (s.goldenFrame s.ldr.chainIndex r.frame) = s.repairEndsBad i r.frame 4 := by
            obtain lost | ⟨d, c, corrupt⟩ := bad
            · rw [lost, State.takeGolden]
            · rw [corrupt, State.takeGolden]
          rw [takes, ends]
          exact answersLike_answer fresh (State.repairEndsBad_beside i r.frame 4)
        · refine ⟨_, takes true, ?_⟩
          rw [absent]
          exact State.finish_writeGolden_failed fresh r i 0
        · refine ⟨_, takes false, ?_⟩
          rw [record]
          exact State.finish_writeGolden_good fresh r i data
      · show answersLike (answer s.noAnswer) _
        rw [State.noAnswer_of_waits hnow hjob hphase]
        exact answersLike_answer fresh (State.repairEndsBad_beside i r.frame 5)
  · obtain ⟨b, clean⟩ := State.exec_recheckComplete_clean hexec hnow hjob hphase hclean
    have fresh : s.leave.stale = false := (s.settled_iff.mp hset).2
    obtain ⟨u, hu, passes⟩ := State.recheckPasses_eq (s := s.modTide (fun t => { t with burstCycles := b })) hload i
    have isl : u.isl i = { s.isl i with repair := 2, healed := true } :=
      (congrArg (fun t : State => t.isl i) hu).trans (State.passed_isl _ _)
    rw [passes, isl] at clean
    refine ⟨fun keep => ?_, fun keep hseal hquarantined hheld => ?_,
      fun keep hseal hcommand hload hflr hhold hrelease => ?_⟩
    · obtain ⟨ended, last⟩ := State.repairedIn_recoverCause (s := s.modTide (fun t => { t with burstCycles := b }))
        (g := fun x => { x.endQuarantine with command := true }) htrans fresh hu (by rw [isl]; rfl) rfl rfl
      rw [if_pos (by exact keep)] at clean
      exact ⟨_, clean, ended, by rw [last]⟩
    · have shut : (u.isl i).quarantine = true ∧ (u.isl i).healed = true := by rw [isl]; exact ⟨hseal, rfl⟩
      obtain ⟨shut, healed⟩ := shut
      have ends := State.clearReasons_repairEnd (open_ := u.loadPending (u.isl i)) shut healed
      obtain ⟨ended, last⟩ := State.repairedIn_recoverCause (s := s.modTide (fun t => { t with burstCycles := b }))
        (g := Isl.clearReasons .repairEnd (u.loadPending (u.isl i))) htrans fresh hu (by rw [ends, isl]; rfl)
        (by rw [ends]; rfl) (by rw [ends]; rfl)
      rw [if_neg (by simp [keep]), State.autoRelease_of_held shut (by rw [isl]; exact hquarantined) healed
        (by rw [isl]; exact hheld)] at clean
      refine ⟨_, clean, ended, ?_⟩
      rw [last, ends, isl]
      exact ⟨rfl, rfl, rfl, rfl, rfl⟩
    · rw [if_neg (by simp [keep]), State.autoRelease_of_quarantine] at clean
      · exact ⟨_, clean,
          State.finish_releaseAsked (s := s.modTide (fun t => { t with burstCycles := b })) fresh hu hseal⟩
      all_goals rw [isl]
      · exact hseal
      · exact hcommand
      · exact hload
      · exact hflr
      · exact hhold
      · exact hrelease

end Sys2Proof.Machine
end

section
/-! PROOF. The fabric instructions (R359 to R365): what SEAL, BEGIN, LOAD, READ and RELEASE make of their island, their
frame and the harbour buffer. -/

namespace Sys2Proof.Machine

/-! ## Operands -/

theorem islandSealCheck_eq_none {c : Cur} (hlen : c.length = 1) (hheader : c.headerOk = true) (hisland : c.op 1 0 6 ≤ 47)
    (hres : c.op 1 6 26 = 0) : islandSealCheck c = none := by
  simp [islandSealCheck, formatCheck, Cur.island, hlen, hheader, hisland, hres]

theorem frameBeginCheck_eq_none {c : Cur} (hlen : c.length = 2) (hheader : c.headerOk = true) (hisland : c.op 1 0 6 ≤ 47)
    (hsrc : c.op 1 8 5 ≤ 20) (hres : c.op 1 6 2 = 0) (hhigh : c.op 1 13 19 = 0) : frameBeginCheck c = none := by
  simp [frameBeginCheck, formatCheck, Cur.island, srcOk, hlen, hheader, hisland, hsrc, hres, hhigh]

theorem islandReleaseCheck_eq_none {c : Cur} (hlen : c.length = 2) (hheader : c.headerOk = true)
    (hisland : c.op 1 0 6 ≤ 47) (hres : c.op 1 6 26 = 0) : islandReleaseCheck c = none := by
  simp [islandReleaseCheck, formatCheck, Cur.island, hlen, hheader, hisland, hres]

theorem islandFrame_of_denseOf {c : Cur} {n : Nat} (hfar : denseOf (c.op 2 0 16) = some n) (hn : n < 8064) :
    c.islandFrame = some n := by
  simp [Cur.islandFrame, Cur.far, hfar, hn]

theorem frameLoadCheck_eq_none {c : Cur} {n : Nat} (hlen : c.length = 3) (hheader : c.headerOk = true)
    (hsrc : c.op 1 0 5 ≤ 20) (hres : c.op 1 5 27 = 0) (hfew : 1 ≤ c.op 2 16 8) (hmany : c.op 2 16 8 ≤ 168)
    (hhigh : c.op 2 24 8 = 0) (hframe : c.islandFrame = some n) : frameLoadCheck c = none := by
  simp [frameLoadCheck, formatCheck, Cur.loadCount, srcOk, hlen, hheader, hsrc, hres, hhigh, hframe, hmany]
  omega

theorem frameReadCheck_eq_none {c : Cur} {n : Nat} (hlen : c.length = 3) (hheader : c.headerOk = true)
    (hsrc : c.op 1 0 5 ≤ 20) (hres : c.op 1 5 27 = 0) (hone : c.op 2 16 14 = 1) (hhigh : c.op 2 30 2 = 0)
    (hfar : denseOf (c.op 2 0 16) = some n) (hn : n < 8192) : frameReadCheck c = none := by
  simp [frameReadCheck, formatCheck, Cur.readCount, Cur.far, srcOk, hlen, hheader, hsrc, hres, hhigh, hone, hfar]
  omega

/-- A FAR that names a frame is the frame's address (R106). -/
theorem frame_of_far {c : Cur} {n : Nat} (hfar : denseOf (c.op 2 0 16) = some n) :
    n < 8192 ∧ faddrOf n = c.op 2 0 16 := by
  have small : c.op 2 0 16 < 2 ^ 16 := Nat.mod_lt _ (by decide)
  have split : c.op 2 0 16 = 1024 * (c.op 2 0 16 / 1024) + 32 * (c.op 2 0 16 / 32 % 32) + c.op 2 0 16 % 32 := by omega
  rw [split] at hfar ⊢
  exact faddrOf_of_denseOf (by omega) (by omega) (by omega) hfar

/-- A load that has taken the record of frame n. -/
def FrameLoad.taking (f : FrameLoad) (n : Nat) (data : List Word) : FrameLoad :=
  { f with
    last := some n, written := f.written + 1
    sha := shaMore f.sha (leBytes 2 (faddrOf n) ++ wordsBytes data) }

theorem FrameLoad.takes {f : FrameLoad} {n : Nat} {data : List Word} {crc : Word} (hlast : ∀ k, f.last = some k → k < n)
    (hlisted : f.bitmap.getLsbD (n % 168) = true) (hcrc : recordCrc (faddrOf n) data = crc) :
    f.refuses (n / 168) n data crc = none := by
  have later : f.last.any (fun k => decide (n ≤ k)) = false := by
    cases h : f.last with
    | none => rfl
    | some k => simpa using hlast k h
  simp [FrameLoad.refuses, later, hlisted, hcrc]

namespace State

variable {s t u v : State} {r i n a : Nat} {c d : Cur}

/-! ## After ends of instructions -/

/-- What the ends of instructions do not change is as it was when the step has ended. -/
theorem finish_keeps_of_onlyEnds {α : Type} (f : State → α) (hf : ∀ t, f t.beside = f t)
    (hl : ∀ (t : State) (g : Leave → Leave), f (t.modLeave g) = f t) (he : ∀ t u : State, f (t.endedAs u) = f t)
    (h : onlyEnds s t) (empty : s.leave.queue = []) : f t.finish = f s := by
  have leave : t.leave = s.leave := by rw [h.1]; rfl
  calc f t.finish = f t := finish_keeps_of_empty f hf hl (by rw [leave, empty])
    _ = f (s.endedAs t) := congrArg f h.1
    _ = f s := he s t

theorem onlyEnds_endOk (h : onlyEnds s t) (hrun : (t.ring r).state = .running) (x : Nat) : onlyEnds s (t.endOk r x) := by
  rw [endOk_of_running hrun]
  exact onlyEnds_endInstr h r 0 x fun _ _ => .inr rfl

theorem onlyEnds_unitDone (h : onlyEnds s t) (hrun : (t.ring r).state = .running) (units : Nat) (last : Bool) :
    onlyEnds s (t.unitDone r units last) := by
  unfold unitDone
  dsimp only
  split
  · exact onlyEnds_endOk (onlyEnds_modCur h r _) hrun 0
  · exact onlyEnds_boundary (onlyEnds_modCur h r _) r

theorem unitDone_last (hrun : (s.ring r).state = .running) (units : Nat) : s.unitDone r units true =
    (s.modCur r (fun c => { c with
      progress := c.progress + units, xl := none, staged := none, reply := none, dest := none })).endInstr r 0 0 := by
  simp only [unitDone, Bool.true_or, if_true]
  exact endOk_of_running (by exact hrun) 0

/-- The instruction c of thread r has ended OK in `t`, which comes from `s`, and no record was due (R325, R328). -/
def endedOk (s : State) (r : Nat) (c : Cur) (t : State) : Prop :=
  s.recordWanted r c 0 = false → (t.thr r).s = 0 ∧ ((s.ring r).kind = 2 → (t.thr r).pc = c.next)

/-- An instruction that sets S ends OK, whatever answer it may have been given since it started. -/
theorem endedOk_endOk (hruns : s.runs r c) (hcur : (t.thr r).cur.map Cur.unanswered = some { c with started := true }.unanswered)
    (hrings : t.rings = s.rings) (empty : t.leave.queue = []) (hsets : setsS c.opcode = true) :
    s.endedOk r c (t.endOk r 0).finish := by
  obtain ⟨-, -, -, -, -, -, -, hrun, hbegun⟩ := hruns
  intro hw
  obtain ⟨d, hd, same⟩ := Option.map_eq_some_iff.mp hcur
  have next : d.next = c.next := (congrArg Cur.next same :)
  have opcode : d.opcode = c.opcode := (congrArg Cur.opcode same :)
  have flagI : d.flagI = c.flagI := (congrArg Cur.flagI same :)
  have ring (q : Nat) : t.ring q = s.ring q := by simp only [State.ring, hrings]
  have begun : t.recordBegun r = false := by
    rw [← hbegun]
    simp only [recordBegun, begunRing, ring]
  have wanted : t.recordWanted r d 0 = false := by
    rw [← hw]
    simp only [recordWanted, ring, flagI]
  have ends := endInstr_counters 0 hd begun wanted (.inr rfl) rfl
  rw [← endOk_of_running (by rw [ring, hrun]), next, opcode, if_pos hsets] at ends
  obtain ⟨hpc, hs⟩ := Prod.mk.inj ends
  have queue : (t.endOk r 0).leave.queue = [] := by
    rw [(onlyEnds_endOk (onlyEnds_refl t) (by rw [ring, hrun]) 0).1]
    exact empty
  rw [finish_keeps_of_empty (fun t => t.thr r) (fun _ => rfl) (fun _ _ => rfl) queue]
  exact ⟨hs, fun _ => hpc⟩

theorem withStarted_cur (hcur : (s.thr r).cur = some c) :
    ((s.withStarted r).thr r).cur = some { c with started := true } := by
  simp only [withStarted, modCur, modThr_thr_self, hcur, Option.map_some]

/-! ## SEAL (R360) -/

theorem exec_islandSeal {r : RingId} (h : s.starts r c) (hop : c.opcode = 0x40) (hcheck : islandSealCheck c = none)
    (hi : c.op 1 0 6 = i) (hown : s.ownsIsland r i = true) :
    exec (.islandSeal r) s = answer (((s.withStarted r).sealIsland i .command).endOk r 0) := by
  have run := runInsn_of_starts h (opcode := (· == 0x40)) (by simp [hop]) hcheck (fun c s => s.islandSeal r c)
    (fun _ _ => .clean) (held := fun _ _ => false) rfl
  have own : (s.withStarted r).ownsIsland r i = true := hown
  show execIslandSeal r s = _
  rw [execIslandSeal, run]
  simp [islandSeal, Cur.island, hi, own]

/-- An island that a COMMAND has sealed stands in the sealed state (R170, R171). -/
theorem sealIsland_command (s : State) (i : Nat) : ((s.sealIsland i .command).isl i).sealed = true ∧
    ((s.sealIsland i .command).isl i).command = true ∧ ((s.isl i).sealed = false →
      ((s.sealIsland i .command).isl i).user = s.initBits i ∧ ((s.sealIsland i .command).isl i).leave = {} ∧
      ((s.sealIsland i .command).isl i).ureg = {} ∧ ((s.sealIsland i .command).isl i).cause = 0) := by
  have reason := s.sealIsland_reason i .command
  refine ⟨sealed_of_reason reason, reason, fun unsealed => ?_⟩
  have unshut : (s.isl i).shut = false := by simp [Isl.shut, unsealed]
  have made : s.sealedBy i .command = ({ s.isl i with
      ureg := {}, user := s.initBits i, cause := 0, leave := {}, release := (s.isl i).release } : Isl).addReason .command := by
    simp [sealedBy, unshut, unsealed]
  rw [sealIsland_field Isl.user fun _ => rfl, sealIsland_field Isl.leave fun _ => rfl,
    sealIsland_field Isl.ureg fun _ => rfl, sealIsland_field Isl.cause fun _ => rfl, made]
  exact ⟨rfl, rfl, rfl, rfl⟩

/-! ## BEGIN (R361) -/

/-- A read of the harbour buffer changes the count of corrected errors alone (R425). -/
theorem noteRead_eq (s : State) (ha : a < 0x800000) (n : Nat) : ∃ k, s.noteRead a n = { s with bufCorrected := k } := by
  rw [noteRead, if_pos ha, harbourCorrects]
  split
  · exact ⟨s.bufCorrected, rfl⟩
  · exact ⟨_, rfl⟩

theorem memFails_of_good (hbad : s.harbourBad = []) (ha : a < 0x800000) (n : Nat) : s.memFails a n = false := by
  simp [memFails, ha, harbourFails, hbad]

theorem memBytes_harbour (ha : a < 0x800000) (n : Nat) : s.memBytes a n = memRead 0 s.harbour a n := if_pos ha

theorem exec_frameBegin {r : RingId} {bitmap : BitVec 168} (h : s.starts r c) (hop : c.opcode = 0x41)
    (hcheck : frameBeginCheck c = none) (hi : c.op 1 0 6 = i) (howns : s.ownsIsland r i = true)
    (haddr : s.diaAddr r (c.op 1 8 5) (c.word 2) = a) (hfits : a + 1064 ≤ 0x800000)
    (hbytes : s.ownsBytes r a 1064 = true) (hsealed : (s.isl i).sealed = true) (hbusy : s.islandBusy i = false)
    (hown : s.behindOwn r = false) (hbad : s.harbourBad = [])
    (hmanifest : islandManifest i (bytesWords (memRead 0 s.harbour a 1064)) = some bitmap) :
    ∃ k, exec (.frameBegin r) s = answer ((({ s.withStarted r with bufCorrected := k } : State).beginFrames r i
      (bytesWords (memRead 0 s.harbour a 1064)) bitmap).endOk r 0) := by
  have run := runInsn_of_starts h (opcode := (· == 0x41)) (by simp [hop]) hcheck (fun c s => s.frameBegin r c)
    (fun _ _ => .clean) (held := fun _ s => s.behindOwn r) hown
  have small : a < 0x800000 := by omega
  obtain ⟨k, noted⟩ := (s.withStarted r).noteRead_eq small 1064
  have bytes : (s.withStarted r).memBytes a 1064 = memRead 0 s.harbour a 1064 := memBytes_harbour small 1064
  refine ⟨k, ?_⟩
  show execFrameBegin r s = _
  rw [execFrameBegin, run]
  have owns : (s.withStarted r).ownsIsland r i = true := howns
  have ownsBytes : (s.withStarted r).ownsBytes r a 1064 = true := hbytes
  have shut : ((s.withStarted r).isl i).sealed = true := hsealed
  have busy : (s.withStarted r).islandBusy i = false := hbusy
  have good : (s.withStarted r).memFails a 1064 = false := memFails_of_good (by exact hbad) small _
  have read : ({ s.withStarted r with bufCorrected := k } : State).memBytes a 1064 = memRead 0 s.harbour a 1064 := bytes
  simp only [frameBegin, Cur.island, hi, diaAddr_withStarted, haddr, inMemory, manifestBytes, hfits, owns, ownsBytes, shut,
    busy, good, noted, read, hmanifest, decide_true, Bool.true_or, Bool.not_true, Bool.false_eq_true, if_false]

/-! ## LOAD (R174, R362, R363) -/

/-- FRAME_LOAD that starts, with its format and its range right, comes to its first record. -/
theorem exec_frameLoad {r : RingId} (h : s.starts r c) (hop : c.opcode = 0x42) (hcheck : frameLoadCheck c = none)
    (hframe : c.islandFrame = some n) (hown : s.behindOwn r = false) (howns : s.ownsIsland r (n / 168) = true)
    (haddr : s.diaAddr r (c.op 1 0 5) (c.word 3) = a) (hfits : a + 260 * c.op 2 16 8 ≤ 0x800000)
    (hbytes : s.ownsBytes r a (260 * c.op 2 16 8) = true) :
    exec (.frameLoad r) s = answer (((s.withStarted r).keepRange r a 0 (260 * c.op 2 16 8)).frameLoadUnit r
      { c with a0 := a } n) := by
  have run := runInsn_of_starts h (opcode := (· == 0x42)) (by simp [hop]) hcheck (fun c s => s.frameLoadRun r c)
    (State.crossingStrike 11 r (fun c s => s.frameLoadRun r c)) (held := fun _ s => s.behindOwn r) hown
  have owns : (s.withStarted r).ownsIsland r (n / 168) = true := howns
  have ownsBytes : (s.withStarted r).ownsBytes r a (260 * c.op 2 16 8) = true := hbytes
  obtain ⟨-, fresh, -⟩ := h
  show execFrameLoad r s = _
  rw [execFrameLoad, run]
  simp only [frameLoadRun, fresh, hframe, Option.getD_some, frameLoadStart, diaAddr_withStarted, haddr, inMemory,
    recordBytes, Cur.loadCount, hfits, owns, ownsBytes, decide_true, Bool.true_or, Bool.not_true, Bool.false_eq_true, if_false]

theorem around_restartBank (h : around i s t) : around i s (t.restartBank i) := by
  unfold restartBank
  exact around_refreshPort (around_refreshPort (around_leaveWithdraw (around_modBank h _ _) _) (by omega)) (by omega)

theorem around_ioChanged (h : around (n / 168) s t) : around (n / 168) s (t.ioChanged n) := by
  unfold ioChanged
  split
  · exact around_refreshPort (around_refreshPort h (by omega)) (by omega)
  · exact h

theorem around_setFrame (h : around i s t) (n : Nat) (f : Frame) : around i (s.setFrame n f) (t.setFrame n f) := by
  obtain ⟨apart, other, threads, queue⟩ := h
  exact ⟨congrArg (fun o : State => o.setFrame n f) apart, other, threads, queue⟩

theorem around_unmarkFrame (h : around i s t) (n : Nat) : around i (s.unmarkFrame n) (t.unmarkFrame n) := by
  obtain ⟨apart, other, threads, queue⟩ := h
  exact ⟨congrArg (fun o : State => o.unmarkFrame n) apart, other, threads, queue⟩

theorem frameIsland_of_lt (hn : n < 8064) : frameIsland n = some (n / 168) := if_pos hn

/-- A load writes a frame of an island: data and check word, and around them what shows its home ports and its bank. -/
theorem around_loadFrame (s : State) (hn : n < 8064) (data : BitVec 2048) :
    ∃ f : Frame, f.data = data ∧ f.check = checkWord (faddrOf n) data ∧
      around (n / 168) ((s.setFrame n f).unmarkFrame n) (s.loadFrame n data true) := by
  have stopped : around (n / 168) s (s.stopPortsFor n) := by
    unfold stopPortsFor
    rw [frameIsland_of_lt hn]
    dsimp only
    split
    · exact around_stopHomePorts (around_refl _ s)
    · exact around_refl _ s
  have unclocked (t : State) : t.synthChanged n (s.stopPortsFor n) = t := if_neg (by omega)
  have wrote : around (n / 168) (s.setFrame n ((s.stopPortsFor n).written n data)) ((s.stopPortsFor n).writeFrame n data) := by
    unfold writeFrame
    dsimp only
    rw [unclocked]
    exact around_ioChanged (around_setFrame stopped n _)
  refine ⟨(s.stopPortsFor n).written n data, rfl, rfl, ?_⟩
  have marked := around_unmarkFrame wrote n
  unfold loadFrame
  rw [frameIsland_of_lt hn]
  simp only [if_true]
  split
  · exact around_modIsl (around_restartBank marked) _
  · exact around_modIsl marked _

/-- It leaves the island's load as it was. -/
theorem loadFrame_frameLoad (s : State) (hn : n < 8064) (data : BitVec 2048) :
    ((s.loadFrame n data true).isl (n / 168)).frameLoad = (s.isl (n / 168)).frameLoad := by
  have refreshed (t : State) (p : Nat) : ((t.refreshPort p).isl (n / 168)).frameLoad = (t.isl (n / 168)).frameLoad :=
    (congrArg Isl.frameLoad (refreshPort_unkept p (n / 168)) :)
  have stopped : ((s.stopPortsFor n).isl (n / 168)).frameLoad = (s.isl (n / 168)).frameLoad := by
    unfold stopPortsFor
    rw [frameIsland_of_lt hn]
    dsimp only
    split
    · exact (congrArg Isl.frameLoad (stopHomePorts_unkept (n / 168)) :)
    · rfl
  have wrote (t : State) : ((t.writeFrame n data).isl (n / 168)).frameLoad = (t.isl (n / 168)).frameLoad := by
    unfold writeFrame synthChanged ioChanged
    dsimp only
    rw [if_neg (by omega)]
    split
    · exact (refreshed _ _).trans (refreshed _ _)
    · rfl
  have restarted (t : State) : ((t.restartBank (n / 168)).isl (n / 168)).frameLoad = (t.isl (n / 168)).frameLoad :=
    (refreshed _ _).trans (refreshed _ _)
  have marked (t : State) : (t.unmarkFrame n).isl (n / 168) = t.isl (n / 168) := rfl
  unfold loadFrame
  rw [frameIsland_of_lt hn]
  simp only [if_true, modIsl_isl_self]
  split
  · rw [restarted, marked, wrote, stopped]
  · rw [marked, wrote, stopped]

theorem around_writeFrameRecord (s : State) (hn : n < 8064) (data : List Word) :
    ∃ f : Frame, f.data = BitVec.ofNat 2048 (wordsNat data) ∧ f.check = checkWord (faddrOf n) f.data ∧
      around (n / 168) ((s.setFrame n f).unmarkFrame n) (s.writeFrameRecord (n / 168) n data) := by
  obtain ⟨f, hdata, hcheck, wrote⟩ := s.around_loadFrame hn (BitVec.ofNat 2048 (wordsNat data))
  exact ⟨f, hdata, by rw [hcheck, hdata], around_modIsl wrote _⟩

theorem writeFrameRecord_frameLoad (s : State) (hn : n < 8064) (data : List Word) :
    ((s.writeFrameRecord (n / 168) n data).isl (n / 168)).frameLoad =
      (s.isl (n / 168)).frameLoad.map (fun f => f.taking n data) := by
  unfold writeFrameRecord
  dsimp only
  rw [modIsl_isl_self, ← s.loadFrame_frameLoad hn (BitVec.ofNat 2048 (wordsNat data))]
  rfl

section
variable {f : FrameLoad} (hn : n < 8064) (hprogress : c.progress = 0) (hfull : s.forcedFull 11 = false)
  (howns : s.ownsIsland r (n / 168) = true) (ha : c.a0 < 0x800000) (hbytes : s.ownsBytes r c.a0 260 = true)
  (hload : (s.isl (n / 168)).frameLoad = some f) (hring : f.ring = r) (hopen : (s.isl (n / 168)).loadState = .open)
  (hbad : s.harbourBad = []) (hmore : f.written + 1 ≠ f.count)
include hn hprogress hfull howns ha hbytes hload hring hopen hbad hmore

/-- A record that the load takes, and that is not its last, ends its unit once it is written (R362). -/
theorem frameLoadUnit_writes {data : List Word} {crc : Word}
    (hdata : (bytesWords (memRead 0 s.harbour c.a0 260)).take 64 = data)
    (hcrc : (bytesWords (memRead 0 s.harbour c.a0 260)).getD 64 0 = crc)
    (htakes : f.refuses (n / 168) n data crc = none) : ∃ k, s.frameLoadUnit r c n =
      (({ s with bufCorrected := k } : State).writeFrameRecord (n / 168) n data).unitDone r 1 (1 == c.loadCount) := by
  obtain ⟨k, noted⟩ := s.noteRead_eq ha 260
  have read : ({ s with bufCorrected := k } : State).memBytes c.a0 260 = memRead 0 s.harbour c.a0 260 := memBytes_harbour ha 260
  have load : s.loadOf r (n / 168) = some f := by simp [loadOf, hload, hring, hopen]
  have taken : ((({ s with bufCorrected := k } : State).writeFrameRecord (n / 168) n data).isl (n / 168)).frameLoad =
      some (f.taking n data) := by
    rw [writeFrameRecord_frameLoad _ hn]
    exact congrArg (Option.map _) hload
  have more : (f.taking n data).written ≠ (f.taking n data).count := hmore
  refine ⟨k, ?_⟩
  simp only [frameLoadUnit, hprogress, recordBytes, Nat.mul_zero, Nat.add_zero, hfull, howns, hbytes, load,
    memFails_of_good hbad ha, noted, read, hdata, hcrc, htakes, Bool.not_true, Bool.false_eq_true, if_false,
    frameWritten, taken, if_neg more, Nat.zero_add]

end

/-- What the end of the step leaves of a record that `u` has just written. -/
theorem recordOver_finish {f : Frame} {g : FrameLoad} (off : around i ((s.setFrame n f).unmarkFrame n) u)
    (hrun : (s.ring r).state = .running) (empty : s.leave.queue = []) (taken : (u.isl i).frameLoad = some g) (last : Bool) :
    let t := (u.unitDone r 1 last).finish
    t.frame n = f ∧ (∀ m, m ≠ n → t.frame m = s.frame m) ∧ (t.isl i).frameLoad = some g ∧ t.harbour = s.harbour ∧
      ∀ j, j ≠ i → t.isl j = s.isl j := by
  have rings : u.rings = s.rings := (around_keeps State.rings (fun _ => rfl) off :)
  have running : (u.ring r).state = .running := by simpa only [ring, rings] using hrun
  have kept {α : Type} (f : State → α) (hf : ∀ t : State, f t.beside = f t)
      (hl : ∀ (t : State) (g : Leave → Leave), f (t.modLeave g) = f t) (he : ∀ t u : State, f (t.endedAs u) = f t) :
      f (u.unitDone r 1 last).finish = f u :=
    finish_keeps_of_onlyEnds f hf hl he (onlyEnds_unitDone (onlyEnds_refl u) running 1 last) (off.queue empty)
  have frame (m : Nat) : (u.unitDone r 1 last).finish.frame m = (s.setFrame n f).frame m :=
    (kept (fun t => t.frame m) (fun _ => rfl) (fun _ _ => rfl) fun _ _ => rfl).trans
      (around_keeps (fun t => t.frame m) (fun _ => rfl) off :)
  have isl (j : Nat) : (u.unitDone r 1 last).finish.isl j = u.isl j :=
    kept (fun t => t.isl j) (fun _ => rfl) (fun _ _ => rfl) fun _ _ => rfl
  refine ⟨(frame n).trans (setFrame_frame_self n f), fun m hm => (frame m).trans (setFrame_frame_other f hm), ?_, ?_,
    fun j hj => (isl j).trans (off.other j hj)⟩
  · exact (congrArg Isl.frameLoad (isl i)).trans taken
  · exact (kept State.harbour (fun _ => rfl) (fun _ _ => rfl) fun _ _ => rfl).trans
      (around_keeps State.harbour (fun _ => rfl) off :)

/-! ## A thread that stays at its unit (R24, R27) -/

/-- Thread r has formed its addresses, as `x` keeps them, and nothing else has changed. -/
def staysAt (s : State) (r : Nat) (x : Cur) (t : State) : Prop :=
  onlyEnds s t ∧ (t.thr r).cur = some { x with started := true } ∧ (t.thr r).pair = (s.thr r).pair

theorem staysAt_keepRange (fresh : s.leave.stale = false) (hcur : (s.thr r).cur = some c) (a0 a1 len : Nat) :
    s.staysAt r { c with a0 := a0, a1 := a1, len := len } ((s.withStarted r).keepRange r a0 a1 len).finish := by
  have leave : ((s.withStarted r).keepRange r a0 a1 len).leave.stale = false := fresh
  have thr := finish_thr _ leave r
  refine ⟨onlyEnds_finish (onlyEnds_modCur (onlyEnds_modCur (onlyEnds_refl s) r _) r _) leave, ?_, ?_⟩
  · rw [thr]
    simp only [keepRange, withStarted, modCur, modThr_thr_self, hcur, Option.map_some]
  · rw [thr]
    simp only [keepRange, withStarted, modCur, modThr_thr_self]

theorem frameLoadUnit_stays (h : s.forcedFull 11 = true) : s.frameLoadUnit r c n = s := if_pos h

theorem frameReadUnit_stays (h : s.forcedFull 12 = true) : s.frameReadUnit r c n = s := if_pos h

/-! ## READ (R364) -/

/-- The one frame that COUNT names. -/
theorem frameReadUnit_last (hone : c.op 2 16 14 = 1) (hprogress : c.progress = 0) (hfull : s.forcedFull 12 = false)
    (hmay : s.mayReadFrame (ringTenant r) n = true) (hbytes : s.ownsBytes r c.a1 256 = true) :
    s.frameReadUnit r c n = (s.memPut c.a1 (leBytes 256 (s.frame n).data.toNat)).unitDone r 1 true := by
  simp [frameReadUnit, Cur.readCount, hone, hprogress, hfull, hmay, hbytes]

section
variable {r : RingId} (h : s.starts r c) (hop : c.opcode = 0x43) (hcheck : frameReadCheck c = none)
  (hfar : denseOf (c.op 2 0 16) = some n) (hone : c.op 2 16 14 = 1) (hown : s.behindOwn r = false)
  (hmay : s.mayReadFrame (r / 4) n = true) (haddr : s.diaAddr r (c.op 1 0 5) (c.word 3) = a)
  (hfits : a + 256 ≤ 0x800000) (hbytes : s.ownsBytes r a 256 = true)
include h hop hcheck hfar hone hown hmay haddr hfits hbytes

theorem exec_frameRead : exec (.frameRead r) s =
    answer (((s.withStarted r).keepRange r 0 a 256).frameReadUnit r { c with a1 := a } n) := by
  have run := runInsn_of_starts h (opcode := (· == 0x43)) (by simp [hop]) hcheck (fun c s => s.frameReadRun r c)
    (State.crossingStrike 12 r (fun c s => s.frameReadRun r c)) (held := fun _ s => s.behindOwn r) hown
  have may : (s.withStarted r).mayReadFrame (ringTenant r) n = true := hmay
  have ownsBytes : (s.withStarted r).ownsBytes r a 256 = true := hbytes
  obtain ⟨-, fresh, -⟩ := h
  show execFrameRead r s = _
  rw [execFrameRead, run]
  simp [frameReadRun, fresh, Cur.far, hfar, frameReadStart, diaAddr_withStarted, haddr, inMemory,
    Cur.readCount, hone, hfits, may, ownsBytes]

/-- The one frame is written to the harbour buffer, and the instruction ends. -/
theorem ends_frameRead (hset : s.settled = true) (hprogress : c.progress = 0) (hfull : s.forcedFull 12 = false)
    (hbad : s.harbourBad = []) (hsoft : s.harbourSoft = []) :
    State.ends { s with harbour := memWrite 0 s.harbour a (leBytes 256 (s.frame n).data.toNat) } r c c.next 0
      (exec (.frameRead r) s) := by
  rw [exec_frameRead h hop hcheck hfar hone hown hmay haddr hfits hbytes]
  obtain ⟨⟨hcur, -, -, -, -, -, -, hrun, hbegun⟩, -⟩ := h
  let u := (s.withStarted r).keepRange r 0 a 256
  have put : u.memPut a (leBytes 256 (u.frame n).data.toNat) =
      { u with harbour := memWrite 0 s.harbour a (leBytes 256 (s.frame n).data.toNat) } :=
    memPut_harbour (by omega) (by exact hbad) (by exact hsoft) _
  have unit : u.frameReadUnit r { c with a1 := a } n =
      ({ u with harbour := memWrite 0 s.harbour a (leBytes 256 (s.frame n).data.toNat) } : State).unitDone r 1 true := by
    rw [frameReadUnit_last (c := { c with a1 := a }) (by exact hone) (by exact hprogress) (by exact hfull) (by exact hmay)
      (by exact hbytes), put]
  rw [unit, unitDone_last (by exact hrun)]
  refine ends_of_endInstr (c := { c with
      started := true, a0 := 0, a1 := a, len := 256, progress := c.progress + 1, xl := none, staged := none
      reply := none, dest := none }) 0
    (onlyEnds_modCur (onlyEnds_harbour (onlyEnds_modCur (onlyEnds_modCur (onlyEnds_refl s) r _) r _) _) r _) hset rfl hbegun ?_
    (.inr rfl) rfl
  simp only [modCur, modThr_thr_self]
  have cur : (u.thr r).cur = some { c with started := true, a0 := 0, a1 := a, len := 256 } := by
    simp only [u, keepRange, withStarted, modCur, modThr_thr_self, hcur, Option.map_some]
  exact congrArg (Option.map _) cur

end

/-! ## RELEASE (R178, R179, R365) -/

section
variable {r : RingId} (hop : c.opcode = 0x44) (hi : c.op 1 0 6 = i) (howns : s.ownsIsland r i = true)
include hop hi howns

/-- An island without a seal has nothing to release. -/
theorem ends_islandRelease_unsealed (h : s.starts r c) (hcheck : islandReleaseCheck c = none) (hset : s.settled = true)
    (hunsealed : (s.isl i).sealed = false) : s.ends r c c.next 0 (exec (.islandRelease r) s) := by
  have run := runInsn_of_starts h (opcode := (· == 0x44)) (by simp [hop]) hcheck (fun c s => s.islandRelease r c)
    (State.waitStrike r (fun c s => s.islandRelease r c)) (held := fun _ _ => false) rfl
  have owns : (s.withStarted r).ownsIsland r i = true := howns
  have unsealed : ((s.withStarted r).isl i).sealed = false := hunsealed
  obtain ⟨⟨hcur, -, -, -, -, -, -, hrun, hbegun⟩, -, hreply, -⟩ := h
  have goes : exec (.islandRelease r) s = answer ((s.withStarted r).endInstr r 0 0) := by
    show execIslandRelease r s = _
    rw [execIslandRelease, run, ← endOk_of_running (r := r) (by exact hrun)]
    simp [islandRelease, Cur.island, hi, owns, hreply, unsealed]
  rw [goes]
  exact ends_of_endInstr (c := { c with started := true }) 0 (onlyEnds_modCur (onlyEnds_refl s) r _) hset rfl hbegun
    (withStarted_cur hcur) (.inr rfl) rfl

/-- An instruction whose island has been released ends OK. -/
theorem ends_islandRelease_done (hruns : s.runs r c) (hset : s.settled = true) (hstarted : c.started = true) {x : Nat}
    (hreply : c.reply = some (0, x)) : s.ends r c c.next 0 (exec (.islandRelease r) s) := by
  have run := runInsn_of_started (opcode := (· == 0x44)) islandReleaseCheck hruns (by simp [hop]) hstarted
    (fun c s => s.islandRelease r c) (State.waitStrike r (fun c s => s.islandRelease r c)) (fun _ _ => false)
  obtain ⟨hcur, -, -, -, -, -, -, hrun, hbegun⟩ := hruns
  have goes : exec (.islandRelease r) s = answer (s.endInstr r 0 0) := by
    show execIslandRelease r s = _
    rw [execIslandRelease, run, ← endOk_of_running hrun]
    simp [islandRelease, Cur.island, hi, howns, hreply]
  rw [goes]
  exact ends_of_endInstr 0 (onlyEnds_refl s) hset rfl hbegun hcur (.inr rfl) rfl

/-- The release of a sealed island is asked for, and its thread waits. -/
theorem exec_islandRelease_asks (h : s.starts r c) (hcheck : islandReleaseCheck c = none)
    (hsealed : (s.isl i).sealed = true) (hfree : s.releaseRefusal i = none) (hnone : (s.isl i).release = none) :
    ∃ timeout, exec (.islandRelease r) s = answer ((((s.withStarted r).modIsl i (fun x => { x with
      release := some { mech := .instruction, rings := [r.val] } })).leaveAsk
        (s.deviceReq (.release i (some (ringTenant r))) timeout)).waitFor r (.release i)) := by
  have run := runInsn_of_starts h (opcode := (· == 0x44)) (by simp [hop]) hcheck (fun c s => s.islandRelease r c)
    (State.waitStrike r (fun c s => s.islandRelease r c)) (held := fun _ _ => false) rfl
  have owns : (s.withStarted r).ownsIsland r i = true := howns
  have shut : ((s.withStarted r).isl i).sealed = true := hsealed
  have free : (s.withStarted r).releaseRefusal i = none := hfree
  have unasked : ((s.withStarted r).isl i).release = none := hnone
  obtain ⟨-, -, hreply, -⟩ := h
  refine ⟨if c.word 2 = 0 then s.leave.defaultNs else c.word 2, ?_⟩
  show execIslandRelease r s = _
  rw [execIslandRelease, run]
  simp only [islandRelease, Cur.island, hi, owns, hreply, shut, free, askRelease, unasked, Bool.not_true,
    Bool.false_eq_true, if_false]
  rfl

end

theorem waitFor_pair (s : State) (r : Nat) (w : Wait) :
    ((s.waitFor r w).thr r).wait = w ∧ ((s.waitFor r w).thr r).pair = none := by
  have dropped : ((s.dropPair r).thr r).pair = none := by
    unfold dropPair
    split
    · next idle => exact idle
    · have pair (t : State) (p : Nat) (f : Pair → Pair) : (t.modPair p f).thr r = t.thr r := rfl
      rw [pair, modThr_thr_self]
  unfold waitFor
  rw [modThr_thr_self]
  exact ⟨rfl, dropped⟩

end State

/-! ## The instructions (R359 to R365) -/

section
variable {s : State} {r : RingId} {c : Cur} {i n a : Nat} (hstarts : s.starts r c)
include hstarts

theorem islandSeal_seals (empty : s.leave.queue = []) (hop : c.opcode = 0x40) (hcheck : islandSealCheck c = none)
    (hi : c.op 1 0 6 = i) (howns : s.ownsIsland r i = true) :
    ∃ t, exec (.islandSeal r) s = .next t ∧ s.endedOk r c t ∧ (t.isl i).sealed = true ∧ (t.isl i).command = true ∧
      ((s.isl i).sealed = false → (t.isl i).user = s.initBits i ∧ (t.isl i).leave = {} ∧ (t.isl i).ureg = {} ∧
        (t.isl i).cause = 0) ∧
      (∀ j, j ≠ i → t.isl j = s.isl j) ∧ t.frames = s.frames ∧ t.harbour = s.harbour := by
  have goes := State.exec_islandSeal hstarts hop hcheck hi howns
  obtain ⟨hruns, -⟩ := hstarts
  have cur := State.withStarted_cur (show (s.thr r).cur = some c from hruns.1)
  have sealing := (s.withStarted r).sealIsland_command i
  have off := State.around_sealIsland (State.around_refl i (s.withStarted r)) .command
  revert goes sealing off
  generalize (s.withStarted r).sealIsland i .command = u
  intro goes sealing off
  have rings : u.rings = s.rings := (State.around_keeps State.rings (fun _ => rfl) off :)
  have running : (u.ring r).state = .running := by
    obtain ⟨-, -, -, -, -, -, -, hrun, -⟩ := hruns
    simpa only [State.ring, rings] using hrun
  have kept {α : Type} (f : State → α) (hf : ∀ t : State, f t.beside = f t)
      (hl : ∀ (t : State) (g : Leave → Leave), f (t.modLeave g) = f t) (he : ∀ t u : State, f (t.endedAs u) = f t) :
      f (u.endOk r 0).finish = f u :=
    State.finish_keeps_of_onlyEnds f hf hl he (State.onlyEnds_endOk (onlyEnds_refl u) running 0) (off.queue empty)
  have isl (j : Nat) : (u.endOk r 0).finish.isl j = u.isl j :=
    kept (fun t => t.isl j) (fun _ => rfl) (fun _ _ => rfl) fun _ _ => rfl
  obtain ⟨shut, command, unsealed⟩ := sealing
  refine ⟨_, goes, ?_, ?_, ?_, ?_, fun j hj => (isl j).trans (off.other j hj), ?_, ?_⟩
  · refine State.endedOk_endOk hruns ?_ rings (off.queue empty) (by rw [hop]; decide)
    have same := congrArg Thread.cur (off.threads r)
    exact same.trans (congrArg (Option.map Cur.unanswered) cur)
  · rw [isl, shut]
  · rw [isl, command]
  · rw [isl]
    exact unsealed
  · exact (kept State.frames (fun _ => rfl) (fun _ _ => rfl) fun _ _ => rfl).trans
      (State.around_keeps State.frames (fun _ => rfl) off :)
  · exact (kept State.harbour (fun _ => rfl) (fun _ _ => rfl) fun _ _ => rfl).trans
      (State.around_keeps State.harbour (fun _ => rfl) off :)

theorem frameBegin_opens {bitmap : BitVec 168} (empty : s.leave.queue = []) (hop : c.opcode = 0x41)
    (hcheck : frameBeginCheck c = none) (hi : c.op 1 0 6 = i) (howns : s.ownsIsland r i = true)
    (haddr : s.diaAddr r (c.op 1 8 5) (c.word 2) = a) (hfits : a + 1064 ≤ 0x800000)
    (hbytes : s.ownsBytes r a 1064 = true) (hsealed : (s.isl i).sealed = true) (hbusy : s.islandBusy i = false)
    (hown : s.behindOwn r = false) (hbad : s.harbourBad = [])
    (hmanifest : islandManifest i (bytesWords (memRead 0 s.harbour a 1064)) = some bitmap) :
    let p := bytesWords (memRead 0 s.harbour a 1064)
    ∃ t, exec (.frameBegin r) s = .next t ∧ s.endedOk r c t ∧ (t.isl i).loadState = .open ∧
      (t.isl i).frameLoad = some
        { ring := r, bitmap := bitmap, count := wordAt p 1, digest := wordsBytes ((p.drop 2).take 8) } ∧
      (∀ j, j ≠ i → t.isl j = s.isl j) ∧ t.frames = s.frames ∧ t.harbour = s.harbour := by
  intro p
  obtain ⟨k, goes⟩ := State.exec_frameBegin hstarts hop hcheck hi howns haddr hfits hbytes hsealed hbusy hown hbad hmanifest
  obtain ⟨hruns, -⟩ := hstarts
  have cur := State.withStarted_cur (show (s.thr r).cur = some c from hruns.1)
  have running : (s.ring r).state = .running := by
    obtain ⟨-, -, -, -, -, -, -, hrun, -⟩ := hruns
    exact hrun
  let v : State := { s.withStarted r with bufCorrected := k }
  let u := v.beginFrames r i p bitmap
  have off : State.around i v u := State.around_modIsl (State.around_refl i v) _
  have self : u.isl i = { v.isl i with
      loadState := .open
      frameLoad := some
        { ring := r, bitmap := bitmap, count := wordAt p 1, digest := wordsBytes ((p.drop 2).take 8) } } :=
    State.modIsl_isl_self _ _ _
  have kept {α : Type} (f : State → α) (hf : ∀ t : State, f t.beside = f t)
      (hl : ∀ (t : State) (g : Leave → Leave), f (t.modLeave g) = f t) (he : ∀ t u : State, f (t.endedAs u) = f t) :
      f (u.endOk r 0).finish = f u :=
    State.finish_keeps_of_onlyEnds f hf hl he (State.onlyEnds_endOk (onlyEnds_refl u) running 0) (off.queue empty)
  have isl (j : Nat) : (u.endOk r 0).finish.isl j = u.isl j :=
    kept (fun t => t.isl j) (fun _ => rfl) (fun _ _ => rfl) fun _ _ => rfl
  refine ⟨_, goes, ?_, ?_, ?_, fun j hj => (isl j).trans (off.other j hj),
    kept State.frames (fun _ => rfl) (fun _ _ => rfl) fun _ _ => rfl,
    kept State.harbour (fun _ => rfl) (fun _ _ => rfl) fun _ _ => rfl⟩
  · exact State.endedOk_endOk hruns (congrArg (Option.map Cur.unanswered) cur) rfl (off.queue empty) (by rw [hop]; decide)
  · exact (congrArg Isl.loadState (isl i)).trans (by rw [self])
  · exact (congrArg Isl.frameLoad (isl i)).trans (by rw [self])

theorem islandRelease_asks (empty : s.leave.queue = []) (hop : c.opcode = 0x44) (hcheck : islandReleaseCheck c = none)
    (hi : c.op 1 0 6 = i) (howns : s.ownsIsland r i = true) (hsealed : (s.isl i).sealed = true)
    (hfree : s.releaseRefusal i = none) (hnone : (s.isl i).release = none) (hquiet : s.leave.arriving = []) :
    ∃ t, exec (.islandRelease r) s = .next t ∧ (t.thr r).wait = .release i ∧ (t.thr r).pair = none ∧
      (t.isl i).release = some { mech := .instruction, rings := [r.val] } ∧ (t.isl i).sealed = true ∧
      t.leave.arriving.length = 1 ∧ (∀ q ∈ t.leave.arriving, q.cost = field (s.leave.irelReg i) 0 12) ∧
      (∀ j, j ≠ i → t.isl j = s.isl j) ∧ t.frames = s.frames := by
  obtain ⟨timeout, goes⟩ := State.exec_islandRelease_asks hop hi howns hstarts hcheck hsealed hfree hnone
  let q := s.deviceReq (.release i (some (ringTenant r))) timeout
  let v := (s.withStarted r).modIsl i (fun x => { x with release := some { mech := .instruction, rings := [r.val] } })
  let u := v.leaveAsk q
  have off : State.around i (s.withStarted r) v := State.around_modIsl (State.around_refl i _) _
  have self : v.isl i = { s.isl i with release := some { mech := .instruction, rings := [r.val] } } :=
    State.modIsl_isl_self _ _ _
  have waits := onlyEnds_waitFor (onlyEnds_refl u) r (.release i)
  have kept {α : Type} (f : State → α) (hf : ∀ t : State, f t.beside = f t)
      (hl : ∀ (t : State) (g : Leave → Leave), f (t.modLeave g) = f t) (he : ∀ t u : State, f (t.endedAs u) = f t) :
      f (u.waitFor r (.release i)).finish = f u :=
    State.finish_keeps_of_onlyEnds f hf hl he waits empty
  have isl (j : Nat) : (u.waitFor r (.release i)).finish.isl j = v.isl j :=
    kept (fun t => t.isl j) (fun _ => rfl) (fun _ _ => rfl) fun _ _ => rfl
  have leave : (u.waitFor r (.release i)).leave = u.leave := by
    rw [waits.1]
    rfl
  have queue : (u.waitFor r (.release i)).leave.queue = [] := by
    rw [leave]
    exact empty
  have arriving : (u.waitFor r (.release i)).finish.leave.arriving = [q] := by
    have same := congrArg (fun o : State => o.leave.arriving) (State.finish_beside_empty _ queue)
    refine Eq.trans same ?_
    show (u.waitFor r (.release i)).leave.arriving = _
    rw [leave]
    show s.leave.arriving ++ [q] = _
    rw [hquiet, List.nil_append]
  have thr : (u.waitFor r (.release i)).finish.thr r = (u.waitFor r (.release i)).thr r :=
    State.finish_keeps_of_empty (fun t => t.thr r) (fun _ => rfl) (fun _ _ => rfl) queue
  obtain ⟨wait, pair⟩ := u.waitFor_pair r (.release i)
  refine ⟨_, goes, ?_, ?_, ?_, ?_, ?_, ?_, fun j hj => (isl j).trans (off.other j hj),
    kept State.frames (fun _ => rfl) (fun _ _ => rfl) fun _ _ => rfl⟩
  · exact (congrArg Thread.wait thr).trans wait
  · exact (congrArg Thread.pair thr).trans pair
  · exact (congrArg Isl.release (isl i)).trans (by rw [self])
  · refine (congrArg Isl.sealed (isl i)).trans ?_
    rw [self]
    exact hsealed
  · exact congrArg List.length arriving
  · intro x hx
    have one : x ∈ [q] := arriving ▸ hx
    rw [List.mem_singleton.mp one]
    rfl

theorem frameLoad_writes {f : FrameLoad} (empty : s.leave.queue = []) (hop : c.opcode = 0x42)
    (hcheck : frameLoadCheck c = none) (hframe : c.islandFrame = some n) (hown : s.behindOwn r = false)
    (howns : s.ownsIsland r (n / 168) = true) (haddr : s.diaAddr r (c.op 1 0 5) (c.word 3) = a)
    (hfew : 1 ≤ c.op 2 16 8) (hfits : a + 260 * c.op 2 16 8 ≤ 0x800000)
    (hbytes : s.ownsBytes r a (260 * c.op 2 16 8) = true) (hfirst : s.ownsBytes r a 260 = true) (hn : n < 8064)
    (hprogress : c.progress = 0) (hfull : s.forcedFull 11 = false) (hload : (s.isl (n / 168)).frameLoad = some f)
    (hring : f.ring = r.val) (hopen : (s.isl (n / 168)).loadState = .open) (hbad : s.harbourBad = [])
    (hmore : f.written + 1 ≠ f.count)
    (htakes : f.refuses (n / 168) n ((bytesWords (memRead 0 s.harbour a 260)).take 64)
      ((bytesWords (memRead 0 s.harbour a 260)).getD 64 0) = none) :
    let data := (bytesWords (memRead 0 s.harbour a 260)).take 64
    ∃ t, exec (.frameLoad r) s = .next t ∧ (t.frame n).data = BitVec.ofNat 2048 (wordsNat data) ∧
      (t.frame n).check = checkWord (faddrOf n) (t.frame n).data ∧ (∀ m, m ≠ n → t.frame m = s.frame m) ∧
      (t.isl (n / 168)).frameLoad = some (f.taking n data) ∧ t.harbour = s.harbour ∧
      (∀ j, j ≠ n / 168 → t.isl j = s.isl j) := by
  intro data
  have goes := State.exec_frameLoad hstarts hop hcheck hframe hown howns haddr hfits hbytes
  obtain ⟨k, unit⟩ := State.frameLoadUnit_writes (s := (s.withStarted r).keepRange r a 0 (260 * c.op 2 16 8))
    (c := { c with a0 := a }) hn hprogress hfull howns (show a < 0x800000 by omega) hfirst hload hring hopen hbad hmore
    rfl rfl htakes
  rw [unit] at goes
  obtain ⟨hruns, -⟩ := hstarts
  have running : (s.ring r).state = .running := by
    obtain ⟨-, -, -, -, -, -, -, hrun, -⟩ := hruns
    exact hrun
  let v : State := { (s.withStarted r).keepRange r a 0 (260 * c.op 2 16 8) with bufCorrected := k }
  obtain ⟨w, hdata, hcheck, off⟩ := v.around_writeFrameRecord hn data
  have taken : ((v.writeFrameRecord (n / 168) n data).isl (n / 168)).frameLoad = some (f.taking n data) := by
    rw [State.writeFrameRecord_frameLoad _ hn]
    exact congrArg (Option.map _) hload
  obtain ⟨self, others, load, harbour, islands⟩ :=
    State.recordOver_finish off running empty taken (1 == Cur.loadCount { c with a0 := a })
  refine ⟨_, goes, ?_, ?_, others, load, harbour, islands⟩
  · exact (congrArg Frame.data self).trans hdata
  · exact (congrArg Frame.check self).trans (hcheck.trans (congrArg (fun o : Frame => checkWord (faddrOf n) o.data) self.symm))

end

/-- A LOAD or READ that has started waits for an earlier access of its ring (R16). -/
theorem frameAccess_held {s : State} {r : RingId} {c : Cur} (hruns : s.runs r c) (hstarted : c.started = true)
    (held : s.behindOwn r = true) : (c.opcode = 0x42 → exec (.frameLoad r) s = answer s) ∧
      (c.opcode = 0x43 → exec (.frameRead r) s = answer s) := by
  refine ⟨fun hop => ?_, fun hop => ?_⟩
  · show execFrameLoad r s = _
    rw [execFrameLoad, State.runInsn_of_started frameLoadCheck hruns (by simp [hop]) hstarted, if_pos held]
  · show execFrameRead r s = _
    rw [execFrameRead, State.runInsn_of_started frameReadCheck hruns (by simp [hop]) hstarted, if_pos held]

/-- Settles O50: each instruction runs its body by the equation of its command, and the end of the step keeps what
that made of the island, the frame and the harbour buffer. -/
theorem fabricInstructions : Obligations.FabricInstructions := by
  intro r c i s hset empty hruns hbad hsoft howns x ended
  have fresh : s.leave.stale = false := (s.settled_iff.mp hset).2
  refine ⟨fun hstarts hi => ?_, fun hop hi hstarted v hreply =>
    State.ends_islandRelease_done hop hi howns hruns hset hstarted hreply, ?_, fun held hstarted => ?_⟩
  · have hisland : c.op 1 0 6 ≤ 47 := by omega
    have hheader : c.headerOk = true := by
      obtain ⟨-, -, -, header, -⟩ := hstarts
      exact header
    refine ⟨fun hop hlen hres => ?_, fun hop hlen hsrc hres hhigh => ?_, fun hop hlen hres => ?_⟩
    · exact islandSeal_seals hstarts empty hop (islandSealCheck_eq_none hlen hheader hisland hres) hi howns
    · intro a p hfits hbytes hsealed hbusy hown bitmap hmanifest
      exact frameBegin_opens hstarts empty hop (frameBeginCheck_eq_none hlen hheader hisland hsrc hres hhigh) hi howns rfl
        hfits hbytes hsealed hbusy hown hbad hmanifest
    · have hcheck := islandReleaseCheck_eq_none hlen hheader hisland hres
      exact ⟨fun unsealed => State.ends_islandRelease_unsealed hop hi howns hstarts hcheck hset unsealed,
        fun hsealed hfree hnone hquiet =>
          islandRelease_asks hstarts empty hop hcheck hi howns hsealed hfree hnone hquiet⟩
  · intro hstarts hlen hsrc hres hprogress n hfar a stays
    obtain ⟨small, far⟩ := frame_of_far hfar
    have hheader : c.headerOk = true := by
      obtain ⟨-, -, -, header, -⟩ := hstarts
      exact header
    have hcur : (s.thr r).cur = some c := hruns.1
    refine ⟨fun hop hi hn hhigh hfew hmany hfits hbytes hfirst f hload hring hopen => ?_,
      fun hop hhigh hone hfits hbytes hmay hown => ?_⟩
    · intro rec_ hlast hlisted hcrc hmore hown
      have hframe := islandFrame_of_denseOf hfar hn
      have hcheck := frameLoadCheck_eq_none hlen hheader hsrc hres hfew hmany hhigh hframe
      have owns : s.ownsIsland r (n / 168) = true := by rw [hi]; exact howns
      refine ⟨fun hfull => ?_, fun hfull => ?_⟩
      · refine ⟨_, ?_, s.staysAt_keepRange fresh hcur a 0 (260 * c.op 2 16 8)⟩
        rw [State.exec_frameLoad hstarts hop hcheck hframe hown owns rfl hfits hbytes, State.frameLoadUnit_stays (by exact hfull)]
        rfl
      · have writes := frameLoad_writes hstarts empty hop hcheck hframe hown owns rfl hfew hfits hbytes hfirst hn hprogress
          hfull (by rw [hi]; exact hload) hring (by rw [hi]; exact hopen) hbad hmore
          (FrameLoad.takes hlast hlisted (by rw [far]; exact hcrc))
        rw [hi] at writes
        exact writes
    · have hcheck := frameReadCheck_eq_none hlen hheader hsrc hres hone hhigh hfar small
      refine ⟨fun hfull => ?_, fun hfull =>
        State.ends_frameRead hstarts hop hcheck hfar hone hown hmay rfl hfits hbytes hset hprogress hfull hbad hsoft⟩
      refine ⟨_, ?_, s.staysAt_keepRange fresh hcur 0 a 256⟩
      rw [State.exec_frameRead hstarts hop hcheck hfar hone hown hmay rfl hfits hbytes, State.frameReadUnit_stays (by exact hfull)]
      rfl
  · obtain ⟨load, read⟩ := frameAccess_held hruns hstarted held
    refine ⟨fun hop => ?_, fun hop => ?_⟩
    · rw [load hop]
      exact answersLike_answer fresh rfl
    · rw [read hop]
      exact answersLike_answer fresh rfl

end Sys2Proof.Machine
end

section
/-! PROOF. A bank is enabled under its lease (R220, R483): its home ports' states are looked at again, and a port that
leaves ACTIVE there changes what its island's pins keep (R171, R410), where the statement of a bank's samples leaves
every island as it was. -/

namespace Sys2Proof.Machine

/-- Bank 1 is declared for class 1 and present; its request has been refused, and a lease for it is held. Pin 0 is
bound to STBY of its port 2, a CAN port that was last seen in ACTIVE, and whose setup breaks the limits of R447. That
no run from reset may come to this state, the hypotheses do not say. -/
def retryOverActivePort : State :=
  { mode := { mode := .run, trans := none }
    banks := [(1, { present := true, retry := true })]
    leave := { leases := [{ handle := 1, who := .bank 1, cost := 10 }] }
    frames := [(328, { data := 0x40002 }), (333, { data := 1 }), (334, { data := 1 })]
    ports := [(2, { seen := 4 })] }

/-- The port leaves ACTIVE, and its island keeps the level that pin 0 showed. -/
theorem retryOverActivePort_keeps :
    (answered (exec (.bankEnableRetry 1) retryOverActivePort)).map (fun t => (t.isl 1).keepEn) = some 1 := by
  decide +kernel

/-- Refutes O30: BANK_ENABLE_RETRY enables bank 1 of `retryOverActivePort` under its lease, and with that pin 0 becomes
one whose level its island keeps, where the statement leaves every island as it was. -/
theorem not_bankSamples : ¬ Obligations.BankSamples := by
  unfold Obligations.BankSamples
  intro samples
  obtain ⟨-, -, retry⟩ := samples 1 0 retryOverActivePort (by decide) (by decide)
  obtain ⟨-, leased⟩ := retry (by decide) (by decide +kernel) (by decide) (by decide) (by decide)
  obtain ⟨t, answers, -, -, -, -, islands, -⟩ := leased (by decide) (by decide)
  have kept := retryOverActivePort_keeps
  rw [answers] at kept
  have before : (t.isl 1).keepEn = 0 := congrArg Isl.keepEn (State.isl_congr islands 1)
  exact absurd (before.symm.trans (Option.some.inj kept)) (by decide)

end Sys2Proof.Machine
end

section
/-! PROOF. A function level reset of function 0 clears the test unit's controls (R514), and a doorbell that
PTU_DB_DELAY has held for another tenant's ring is applied then (R516), where the statement of the functions leaves
that ring as it was. -/

namespace Sys2Proof.Machine

/-! ## What goes on once a queue has room again (R27, R514) -/

namespace State

variable {s : State}

theorem sendPending_beside (s : State) (t : Nat) : (s.sendPending t).beside = s.beside :=
  overAll_keeps (fun u => u.beside = s.beside) 64 _ (fun v u same => by
    split
    · rw [sendVector_beside, modMsx_beside, same]
    · exact same) s rfl

theorem sendWaited_beside (s : State) (t v : Nat) : (s.sendWaited t v).beside = s.beside := by
  unfold sendWaited
  split
  · rfl
  · split
    · exact modMsx_beside ..
    · exact sendVector_beside ..

theorem sendAllPending_beside (s : State) : s.sendAllPending.beside = s.beside :=
  overAll_keeps (fun u => u.beside = s.beside) 8 _ (fun t u same => (u.sendPending_beside t).trans same) _
    (overList_keeps (fun u => u.beside = s.beside) s.dma.msgs _
      (fun q u same => (u.sendWaited_beside q.1 q.2).trans same) _ rfl)

/-- The rings, and what waits in the leave queue, for its Translation Request and in X17. -/
def ringsAndQueues (s : State) : Tab Ring × List LeaveReq × List TransWant × List Word :=
  (s.rings, s.leave.queue, s.dma.wanted, s.jtag.x17)

theorem ringsAndQueues_eq_iff {rings : Tab Ring} {queue : List LeaveReq} {wanted : List TransWant} {x17 : List Word} :
    s.ringsAndQueues = (rings, queue, wanted, x17) ↔
      s.rings = rings ∧ s.leave.queue = queue ∧ s.dma.wanted = wanted ∧ s.jtag.x17 = x17 := by
  simp only [ringsAndQueues, Prod.mk.injEq]

theorem ringsAndQueues_of_beside {t : State} (h : t.beside = s.beside) : t.ringsAndQueues = s.ringsAndQueues := by
  have same := congrArg ringsAndQueues h
  exact same

theorem wakeAll_ringsAndQueues (s : State) (p : Wait → Bool) : (s.wakeAll p).ringsAndQueues = s.ringsAndQueues := by
  have same := congrArg ringsAndQueues (s.wakeAll_aside p)
  exact same

theorem complete_ringsAndQueues (s : State) (m : OutMsg) : (s.complete m).ringsAndQueues = s.ringsAndQueues := by
  unfold complete
  split
  · rfl
  · split <;> rfl

theorem cplsResume_ringsAndQueues (s : State) : s.cplsResume.ringsAndQueues = s.ringsAndQueues := by
  unfold cplsResume
  split
  · rfl
  · exact overList_keeps (fun u => u.ringsAndQueues = s.ringsAndQueues) s.link.cpls _
      (fun m u same => (u.complete_ringsAndQueues m).trans same) _ rfl

theorem askWanted_of_none (h : s.dma.wanted = []) : s.askWanted.ringsAndQueues = s.ringsAndQueues := by
  rw [askWanted, h]
  exact congrArg (fun w => (s.rings, s.leave.queue, w, s.jtag.x17)) h.symm

theorem tapResumes_of_none (h : s.jtag.x17 = []) : s.tapResumes.ringsAndQueues = s.ringsAndQueues := by
  unfold tapResumes
  split
  · rfl
  · rw [h, setX17_nil]
    exact congrArg (fun w => (s.rings, s.leave.queue, s.dma.wanted, w)) h.symm

theorem pressureOver_of_none (hwanted : s.dma.wanted = []) (hx17 : s.jtag.x17 = []) :
    s.pressureOver.ringsAndQueues = s.ringsAndQueues := by
  have awake : ∀ p, (s.cplsResume.wakeAll p).sendAllPending.ringsAndQueues = s.ringsAndQueues := fun p =>
    ((ringsAndQueues_of_beside (sendAllPending_beside _)).trans (wakeAll_ringsAndQueues _ p)).trans
      s.cplsResume_ringsAndQueues
  have resumed : s.requestsResume.ringsAndQueues = s.ringsAndQueues := by
    obtain ⟨-, -, wanted, -⟩ := ringsAndQueues_eq_iff.mp (awake _)
    rw [requestsResume, askWanted_of_none (wanted.trans hwanted), awake]
  obtain ⟨-, -, -, x17⟩ := ringsAndQueues_eq_iff.mp resumed
  rw [pressureOver, wakeAll_ringsAndQueues, tapResumes_of_none (x17.trans hx17), resumed]

theorem noted_ringsAndQueues (s : State) (u : Ptu) (code sev t : Nat) (fields : List (Nat × Nat)) :
    ({ s with ptu := u }.event code sev t fields).ringsAndQueues = s.ringsAndQueues := rfl

/-- The test unit's controls are at their reset values, and what it held has been let go (R514). -/
def uncontrolled (s : State) (cause : Nat) : State :=
  letHeld { s with ptu := { lastClear := cause, pfResult := if s.ptu.pfGo ∧ cause ≠ 2 ∧ cause ≠ 3 then 4 else 0 } }

theorem clearControls_of_none (htest : s.mode.mode = .test) {cause : Nat}
    (hwanted : (s.uncontrolled cause).dma.wanted = []) (hx17 : (s.uncontrolled cause).jtag.x17 = []) :
    (s.clearControls cause).ringsAndQueues = (s.uncontrolled cause).ringsAndQueues := by
  have kept := pressureOver_of_none hwanted hx17
  unfold clearControls
  rw [if_neg (not_not_intro htest)]
  exact (noted_ringsAndQueues _ _ _ _ _ _).trans kept

/-- Steps 1 to 4 of R251 before what function 0 alone resets. -/
def flrBegun (s : State) (t : Nat) : State :=
  (overAll 64 (fun v s => s.modMsx t v (fun m => { m with pend := false }))
    (s.modFn t (fun f => { f with flr := some s.coreNs }))).resetTenant t 2

theorem exec_flr_function0 (hopen : s.configOpen 0 = true) (hnone : (s.fn 0).flr.isSome = false) :
    exec (.flr 0) s = answer ((s.flrBegun 0).abortHostLoad.clearControls 3) := by
  have starts : s.startFlr 0 = (s.flrBegun 0).abortHostLoad.clearControls 3 := by
    unfold startFlr
    rw [hnone]
    simp only [Bool.false_eq_true, if_false, if_true, flrBegun]
  calc exec (.flr 0) s = answer (if s.configOpen 0 then s.startFlr 0 else s.configRetry 0) := rfl
    _ = answer ((s.flrBegun 0).abortHostLoad.clearControls 3) := by rw [if_pos hopen, starts]

end State

/-! ## The doorbell -/

/-- TEST, with PTU_DB_DELAY on for ring 4, tenant 1's first: the ring runs, no record has been begun in any ring, and a
doorbell that moves its tail from 0 to 1 is held. -/
def heldDoorbell : State :=
  { mode := { mode := .test, trans := none, porActive := false }
    link := { up := true, perst := false }
    rings := [(4, { enable := true, state := .running })]
    ptu := { dbDelay := [(4, 3)] }
    ptuHeld := { items := [.tail 4 1] } }

/-- `heldDoorbell` where the FLR of function 0 has come to the controls of the test unit. -/
def heldDoorbellReset : State := (heldDoorbell.flrBegun 0).abortHostLoad

theorem heldDoorbellReset_test : heldDoorbellReset.mode.mode = .test := by decide +kernel

theorem heldDoorbellReset_uncontrolled : (heldDoorbellReset.uncontrolled 3).ringsAndQueues =
    ([(4, { enable := true, state := .running, tail := 1 })], [], [], []) := by decide +kernel

/-- The FLR lets the doorbell go, and no request for leave is left for the end of the step. -/
theorem heldDoorbellReset_cleared : (heldDoorbellReset.clearControls 3).ringsAndQueues =
    ([(4, { enable := true, state := .running, tail := 1 })], [], [], []) := by
  obtain ⟨-, -, wanted, x17⟩ := State.ringsAndQueues_eq_iff.mp heldDoorbellReset_uncontrolled
  rw [State.clearControls_of_none heldDoorbellReset_test wanted x17, heldDoorbellReset_uncontrolled]

theorem heldDoorbellReset_finish : (heldDoorbellReset.clearControls 3).finish.rings =
    [(4, { enable := true, state := .running, tail := 1 })] := by
  obtain ⟨rings, queue, -, -⟩ := State.ringsAndQueues_eq_iff.mp heldDoorbellReset_cleared
  rw [State.finish_keeps_of_empty State.rings (fun _ => rfl) (fun _ _ => rfl) queue, rings]

/-- No record has been begun in any ring. -/
theorem heldDoorbell_unbegun (r : Nat) (e : Rec × Nat) : (heldDoorbell.ring r).part ≠ some e := by
  simp only [State.ring, heldDoorbell, tabGet]
  split <;> simp

/-- Refutes O38: the function level reset of function 0 in `heldDoorbell` moves the tail of ring 4, which is
tenant 1's and holds no record, from 0 to 1, where the statement leaves such a ring as it was. -/
theorem not_hostInterface : ¬ Obligations.HostInterface := by
  unfold Obligations.HostInterface
  intro host
  obtain ⟨-, functions⟩ := host
  obtain ⟨opened, -, -⟩ := functions 0 heldDoorbell (by decide)
  obtain ⟨⟨t, answers, ⟨-, rings, -⟩, -, -⟩, -⟩ := opened (by decide)
  obtain ⟨-, others⟩ := rings fun _ e begun => absurd begun (heldDoorbell_unbegun _ e)
  obtain ⟨unbegun, -⟩ := others 4 (by decide)
  have kept : (t.ring 4).tail = 0 :=
    congrArg Ring.tail (unbegun (.inl fun e begun => absurd begun (heldDoorbell_unbegun _ e)))
  rw [State.exec_flr_function0 (by decide) (by decide)] at answers
  obtain rfl := Host.Outcome.next.inj answers
  rw [State.ring, ← heldDoorbellReset, heldDoorbellReset_finish] at kept
  exact absurd kept (by decide)

end Sys2Proof.Machine
end

section
/-! PROOF. A host's read of the harbour buffer through a window brings HP_BUF_CORRECTED down to the largest value that
its register holds (R414, R425), as `overCounted` shows of the other paths; the statement of the windows has such a
read change nothing. -/

namespace Sys2Proof.Machine

/-- Window 0 of function 0 is VALID and maps page 0 of the harbour buffer for reads, and `overCounted`'s count of
corrected errors stands past its 32 bits, which the hypotheses do not exclude. -/
def overCountedWindow : State :=
  { overCounted with
    link := { up := true, perst := false }
    fns := [(0, { mse := true })]
    wins := [(0, { pages := 1, req := true, rd := true, state := .valid })] }

theorem overCountedWindow_clipped_by_read :
    (answered (exec (.windowAccess 0 false 0 4 []) overCountedWindow)).map State.bufCorrected = some 0xFFFFFFFF := by
  decide +kernel

/-- Refutes O39: function 0's read of word 0 through window 0 of `overCountedWindow` answers a count of 0xFFFFFFFF
corrected errors where 2^32 stood, although no word of the buffer holds an error. -/
theorem not_windows : ¬ Obligations.Windows := by
  unfold Obligations.Windows
  intro windows
  obtain ⟨-, -, -, -, accesses⟩ := windows 0 0 0 overCountedWindow (by decide) (by decide)
  obtain ⟨-, mapped⟩ := accesses (by decide) (by decide) rfl 0 rfl (by decide)
  obtain ⟨-, read⟩ := mapped rfl (by decide) (by decide) (by decide) (by decide) rfl rfl (by decide) (by decide)
  obtain ⟨t, answers, same, -⟩ := read (by decide)
  have kept := bufCorrected_of_answersLike ⟨t, answers, same⟩
  exact absurd (overCountedWindow_clipped_by_read.symm.trans kept) (by decide)

end Sys2Proof.Machine
end
